-- ==== Sys2Proof/Word.lean ====
section
/-! DEFINITION. The word types of the SF4110 and the small index types of its lanes, streams and slots. -/

namespace Sys2Proof

/-- One byte of staging memory. -/
abbrev Byte := BitVec 8

/-- A 16-bit field of a record. -/
abbrev Half := BitVec 16

/-- A 32-bit count, address or field (00_scope.md, "Counts on rings"). -/
abbrev Word := BitVec 32

/-- A 64-bit counter (R34). -/
abbrev Long := BitVec 64

/-- Lanes 0 to 3 (00_scope.md, "Numbering"); lane n serves drive Dn. -/
abbrev LaneId := Fin 4

/-- Streams 0 to 3. -/
abbrev StreamId := Fin 4

/-- Job slots 0 to 7. -/
abbrev SlotId := Fin 8

/-- Directory records 0 to 31 (R137). -/
abbrev CartId := Fin 32

/-- Places 0 to 29 (R136). -/
abbrev PlaceId := Fin 30

/-- The eight characters of a cartridge label (R137). -/
abbrev Label := Vector Byte 8

end Sys2Proof
end

