-- ==== Sys2Proof/Syntax.lean ====
section
/-! DEFINITION. The commands: one constructor per row of spec/opcode_table.json. The table gives the rows no operand bits;
the operands are the facts of the event that the part takes from outside itself (notes/assumptions/5.md, 6.md, 18.md). -/

namespace Sys2Proof

/-- The three doors (R136, R144). -/
inductive Door where
  | a | b | mail
  deriving DecidableEq, Repr

/-- Levels of the three door inputs, true = OPEN (R144). -/
structure DoorLevels where
  a : Bool := false
  b : Bool := false
  mail : Bool := false
  deriving DecidableEq, Repr

/-- Levels of the loader's input lines (R149), true = asserted. -/
structure Lines where
  stationMark : Bool := false
  home : Bool := false
  extended : Bool := false
  retracted : Bool := false
  gripped : Bool := false
  jawOpen : Bool := false
  cartridgePresent : Bool := false
  slotPresence : Bool := false
  deriving DecidableEq, Repr

/-- What the part samples at an event: the microsecond timebase and the loader's input lines. -/
structure Sample where
  now : Nat := 0
  lines : Lines := {}
  deriving DecidableEq, Repr

/-- A command. A request row takes no argument operands: the Request Engine reads the request record from the request ring
(R19). -/
inductive Instr where
  /-- RESET_N is released (R30): `drives` is the DRIVE_COUNT straps less one. -/
  | powerOnReset (drives : Fin 4) (doors : DoorLevels) (lines : Lines)
  /-- A controller write with no row of its own (R2). -/
  | controllerWrite (addr : Word) (data : List Byte)
  /-- A controller write that covers an index word (R4). -/
  | indexWordWrite (addr : Word) (data : List Byte)
  /-- A controller write into a stream aperture or a return ring (R12). -/
  | apertureWrite (addr : Word) (data : List Byte)
  /-- A controller read (R15). -/
  | finalByteRead (addr : Word) (length : Nat) (now : Nat)
  | requestProducerTake
  | reportConsumerTake
  | catalogConsumerTake
  | restoreConsumerTake (slot : SlotId)
  | unknownKindRequest
  | layoutSet
  | laneSet (now : Nat)
  | loaderSet
  | partReset (sample : Sample)
  | writeStart
  | streamClose
  | verifyStart
  | restoreStart
  | jobEnd
  | jobAbort
  | laneResync
  | laneReset
  | cartridgeSet
  | move (sample : Sample)
  | mount (sample : Sample)
  | dismount (sample : Sample)
  | inventory (sample : Sample)
  | pickerPut (sample : Sample)
  | loaderHalt (sample : Sample)
  | loaderResume
  | backlogAdmit (sample : Sample)
  | reportWrite
  | statusRefresh
  | compressorTake
  | compressionComplete
  | packerBeginSegment (lane : LaneId) (now : Nat)
  | frameComplete (lane : LaneId) (now : Nat)
  | segmentContinues (lane : LaneId) (now : Nat)
  | segmentPacked (lane : LaneId)
  | ageExpiry (lane : LaneId) (now : Nat)
  | syncSearchTest (lane : LaneId)
  | syncConfirm (lane : LaneId)
  | frameTake (lane : LaneId)
  | decodeTake
  | expansionComplete
  | sighting
  | restoreEntryWrite
  | endEvaluation
  | doorOpeningEdge (door : Door) (sample : Sample)
  | doorClosingEdge (door : Door)
  | orderActivate (sample : Sample)
  | homeInput (sample : Sample)
  | stationMark (sample : Sample)
  | markTimeout (sample : Sample)
  | retractedDeassert (sample : Sample)
  | gripperStepEnd (sample : Sample)
  | stepTimeout (sample : Sample)
  | labelExchange (byte : Byte) (sample : Sample)
  | exchangeTimeout (sample : Sample)
  | retryTimer (sample : Sample)
  | resetNAsserted
  deriving DecidableEq, Repr

end Sys2Proof
end

