-- ==== Sys2Proof/Decode.lean ====
section
/-! DEFINITION. The command a word spells. spec/opcode_table.json gives no row any bits ("fields": [] and no fixed bits),
so no word spells a command and the decoder refuses every word. -/

namespace Sys2Proof

/-- The command of the table that the word `w` of `nbits` bits spells: none, for no row has bits. -/
def decodeTableWord (_nbits _w : Nat) : Option Instr := none

end Sys2Proof
end

