-- ==== Sys2Proof/Config.lean ====
section
/-! DEFINITION. The free values: what the spec leaves open and the machine goes on with. No body, so no proof can rest on
a value. -/

namespace Sys2Proof

/-- A 32-bit field of a report for which the spec gives no value. Used for the group number of LOCK_LOST when no frame has
been accepted since lock was gained (R108, R168 give only the frame index, 0xFF, for that case); notes/assumptions/12.md.
The argument is `State.freeCount`, which the step advances at each use. -/
opaque Config.freeWord : Nat → Word

end Sys2Proof
end

