-- ==== Sys2Proof/Machine/State.lean ====
section
/-! DEFINITION. The state of the SF4110 as plain data, block by block (00_scope.md, "Block diagram"), the reasons a step can
stop, and the state in power-on reset. The default value of a field is its value in power-on reset; INVENTORY.md lists each
with the rule of the spec that gives it. -/

namespace Sys2Proof.Machine

open Sys2Proof

/-! ## Why a step can stop -/

/-- Why the machine stops with a fault: never. The part has no error indication (R1) and addresses are 32-bit operands, so
no access lies outside the 4 GiB space. The type has no constructor. -/
inductive Fault where
  deriving DecidableEq, Repr

/-- Why a command has no meaning. -/
inductive Refusal where
  /-- Raised by exec for a command that has no meaning yet; none is left. Safe: nothing can be proved of its next state. -/
  | notModelled (mnemonic : String)
  /-- Raised by the four controller transactions when the operands are not a transaction as 01 section 1.1 describes one (no
  bytes, more than 4,096, or across a 4 KiB boundary). Safe: the spec says such a transaction does not occur. -/
  | notATransaction
  deriving DecidableEq, Repr

/-! ## Codes (R168) -/

/-- Outcome codes of REQUEST_DONE, in the order of their values (R168). -/
inductive Code where
  | done | badKind | badArgument | noLayout | layoutInvalid | busy | ringFault | tagInUse
  | noJob | streamInUse | laneBusy | laneFull | driveEmpty | placePending | placeUnknown | placeOccupied
  | placeEmpty | cartridgeUnset | cartridgeSuspect | cartridgeUnlabelled | cartridgeLimit | rangeInvalid | ringInvalid
  | queueFull | loaderHalted | doorOpen | pickerEmpty | pickerHolding
  deriving DecidableEq, Repr

/-- Job outcomes (R47). -/
inductive JobOutcome where
  | complete | aborted | cartridgeFull | laneReset
  deriving DecidableEq, Repr

/-- Loader faults (R168). -/
inductive LoaderFault where
  | homeFail | stall | overtravel | gripTimeout | sourceEmpty | targetOccupied | doorOpened | halted | cancelled
  deriving DecidableEq, Repr

/-- Outcome of an order (R153): DONE, a refusal code of re-validation, or a loader fault. -/
inductive OrderOutcome where
  | done
  | refused (code : Code)
  | fault (fault : LoaderFault)
  deriving DecidableEq, Repr

/-- Close reasons of a group (05 section 5.5). -/
inductive CloseReason where
  | full | starve | age | flush | limit
  deriving DecidableEq, Repr

/-- Why an aperture overran (R12). -/
inductive OverrunReason where
  | gap | limit
  deriving DecidableEq, Repr

/-- Why lock was lost (R108, R110, R111). -/
inductive LostReason where
  | misses | checks | resync
  deriving DecidableEq, Repr

/-- Reasons of SEGMENT_FAULT (R112, R113, R114). -/
inductive SegmentFaultReason where
  | mark | mode | length | split | short
  deriving DecidableEq, Repr

/-- Kinds of the last reset (R30, R31). -/
inductive ResetCause where
  | powerOn | request
  deriving DecidableEq, Repr

/-! ## Jobs (03 section 3.1) -/

inductive JobKind where
  | write | verify | restore
  deriving DecidableEq, Repr

inductive JobState where
  | free | active | flushing | draining | ending
  deriving DecidableEq, Repr

/-- Counters of a job record (R34): two 64-bit counts, the others 32-bit saturating. -/
structure Counters where
  rawBytes : Long := 0
  storedBytes : Long := 0
  segments : Word := 0
  plainSegments : Word := 0
  groupCheckFailures : Word := 0
  framesMissed : Word := 0
  slips : Word := 0
  verified : Word := 0
  failed : Word := 0
  uncatalogued : Word := 0
  missing : Word := 0
  faulted : Word := 0
  deriving DecidableEq, Repr

/-- A job record (R33). A record that no job has used since reset has tag 0; the fields a kind does not use keep their
defaults and are shown as absent. -/
structure JobRecord where
  tag : Byte := 0
  kind : JobKind := .write
  state : JobState := .free
  lane : LaneId := 0
  cart : CartId := 0
  stream : StreamId := 0
  firstSeq : Word := 0
  nextSeq : Word := 0
  /-- A chunk of sequence 0xFFFF_FFFF has closed and has not been given up (R43, R47). -/
  closedFinal : Bool := false
  lastEnd : Option Word := none
  pendingOutcome : JobOutcome := .complete
  firstGroup : Word := 0
  lastGroup : Word := 0
  sourceTag : Byte := 0
  firstChunk : Word := 0
  lastChunk : Word := 0
  ringBase : Word := 0
  ringSize : Word := 0
  counters : Counters := {}
  deriving DecidableEq, Repr

/-- A job slot (R33): a freed slot goes on showing its last record. -/
structure JobSlot where
  live : Bool := false
  record : JobRecord := {}
  deriving DecidableEq, Repr

/-- Signals that reach the Job Table and are held while it waits on a post (R46). -/
inductive JobSignal where
  /-- A buffer of the job's stream changed, or the job entered FLUSHING: the test of R40. -/
  | flushTest (slot : SlotId)
  /-- A lane released a group (R83). -/
  | released (lane : LaneId) (group : Word)
  /-- A lane set its FULL flag (R48). -/
  | fullSet (lane : LaneId)
  /-- A Framer met its job's end condition (R116). -/
  | endCondition (slot : SlotId)
  /-- The Decode Engine finished a job's end evaluation (R127). -/
  | evaluationDone (slot : SlotId)
  /-- A job ends with this outcome (R46). -/
  | ending (slot : SlotId) (outcome : JobOutcome)
  deriving DecidableEq, Repr

structure JobTable where
  jobs : Vector JobSlot 8 := Vector.replicate 8 {}
  /-- The slot whose JOB_DONE waits to join the backlog (R46). -/
  ending : Option SlotId := none
  held : List JobSignal := []
  deriving DecidableEq, Repr

/-! ## Loader orders and steps (10 sections 10.1, 10.2) -/

inductive OrderKind where
  | move | mount | dismount | inventory | pickerPut
  deriving DecidableEq, Repr

inductive Scope where
  | a | b | mail | drives
  deriving DecidableEq, Repr

inductive LoaderState where
  | unhomed | homing | idle | busy | halted
  deriving DecidableEq, Repr

/-- Steps of an order, with the codes of R168 from 1. -/
inductive StepKind where
  | homing | travel | get | put | labelRead | survey
  deriving DecidableEq, Repr

/-- Which part of a step is under way. -/
inductive StepPart where
  /-- The retract step before a travel or before homing (R149, R154, R155). -/
  | retractFirst
  /-- The rail motor runs. -/
  | moving
  | jawOpening | extending | jawClosing | retracting
  /-- A label read whose exchange or retry timer is under way (R160). -/
  | reading
  /-- The label has been handed to the Cartridge Directory, which waits on a post (R145). -/
  | labelHanded
  deriving DecidableEq, Repr

/-- The step of the active order under way, with the station it concerns (-1 for homing). -/
structure ActiveStep where
  kind : StepKind
  station : Int
  part : StepPart
  deriving DecidableEq, Repr

/-- An order record (R150); the current step is `Loader.step`. -/
structure Order where
  tag : Byte
  kind : OrderKind
  source : Option PlaceId := none
  target : Option PlaceId := none
  scope : Option Scope := none
  label : Option Label := none
  active : Bool := false
  deriving DecidableEq, Repr

/-! ## Frames -/

/-- A frame is named by its group number and frame index (R104). -/
structure FrameName where
  group : Word
  index : Fin 8
  deriving DecidableEq, Repr

/-! ## Reports (02 section 2.2, R168) -/

/-- The aperture an OVERRUN names. -/
inductive ApertureId where
  | stream (stream : StreamId)
  | ring (lane : LaneId)
  deriving DecidableEq, Repr

/-- A report with its fields; `Records.lean` gives its 32 bytes. -/
inductive Report where
  | requestDone (code : Code) (tag kind : Half) (count : Word)
  | jobDone (slot : SlotId) (record : JobRecord) (outcome : JobOutcome)
  | groupReady (lane : LaneId) (reason : CloseReason) (address group : Word) (slot starts : Nat)
  | overrun (aperture : ApertureId) (tag : Byte) (reason : OverrunReason) (expected limit offset : Word)
  | lockGained (lane : LaneId) (tag : Byte) (position : Word) (frame : FrameName)
  | lockLost (lane : LaneId) (tag : Byte) (reason : LostReason) (position group : Word) (index : Byte)
  | groupCheckFail (lane : LaneId) (tag : Byte) (group computed recorded position : Word)
  | segmentFault (lane : LaneId) (tag : Byte) (reason : SegmentFaultReason) (position : Word) (frame : FrameName)
  | orderDone (tag : Byte) (kind : OrderKind) (outcome : OrderOutcome) (step : Option StepKind) (stepStation : Option Int)
      (state : LoaderState) (station : Option Int)
  | labelChanged (place : PlaceId) (record : CartId) (old new : Option Label)
  | doorOpened (door : Door) (freed : Nat)
  | ringFault (consumer : Bool) (value count : Word)
  | resetDone (cause : ResetCause) (tag : Half) (drives : Nat)
  deriving DecidableEq, Repr

/-! ## Window Decoder (01) -/

structure Window where
  base : Nat := 0
  size : Nat := 0
  deriving DecidableEq, Repr

/-- A block pool: slot k lies at base + 32,768 × k (R5). -/
structure Pool where
  base : Nat := 0
  slots : Nat := 0
  deriving DecidableEq, Repr

/-- The entries of the window table (R5). -/
structure Layout where
  memorySize : Nat := 0
  apertures : Vector Window 4 := Vector.replicate 4 {}
  pools : Vector Pool 4 := Vector.replicate 4 {}
  rings : Vector Window 4 := Vector.replicate 4 {}
  catalog : Window := {}
  restore : Window := {}
  deriving DecidableEq, Repr

/-- An ordered aperture (01 section 1.4): expected offset E, accept limit A, hold condition. -/
structure Aperture where
  expected : Word := 0
  limit : Word := 0
  held : Bool := false
  deriving DecidableEq, Repr

/-- The pending latch of an index word (R4). -/
structure Latch where
  value : Word := 0
  pending : Bool := false
  deriving DecidableEq, Repr

structure WindowDecoder where
  /-- The window table; none while the set flag is clear (R5). -/
  layout : Option Layout := none
  requestProducerLatch : Latch := {}
  reportConsumerLatch : Latch := {}
  catalogConsumerLatch : Latch := {}
  restoreConsumerLatch : Vector Latch 8 := Vector.replicate 8 {}
  refusedCount : Word := 0
  lastRefused : Word := 0
  streamAperture : Vector Aperture 4 := Vector.replicate 4 {}
  /-- Return rings: E is the arrived mark, A the Framer's accept limit (R14). -/
  ringAperture : Vector Aperture 4 := Vector.replicate 4 {}
  deriving DecidableEq, Repr

/-! ## Request Engine (02) -/

/-- Lane settings (R26) with their defaults (R28). -/
structure LaneSettings where
  retainDepth : Nat := 2
  streamingLimit : Nat := 40
  ageLimit : Nat := 5000
  lossThreshold : Nat := 4
  deriving DecidableEq, Repr

/-- Loader settings (R27) with their defaults (R28). -/
structure LoaderSettings where
  cruiseDuty : Nat := 192
  creepDuty : Nat := 64
  markTimeout : Nat := 400
  stepTimeout : Nat := 1500
  deriving DecidableEq, Repr

/-- The units that post reports (R22). -/
inductive Poster where
  | requestEngine
  | jobTable
  | stream (stream : StreamId)
  | laneUnit (lane : LaneId)
  | framer (lane : LaneId)
  | directory
  | loader
  deriving DecidableEq, Repr

/-- What a unit waits to have admitted to the backlog (R22). -/
inductive WaitItem where
  | post (report : Report)
  | reservation
  deriving DecidableEq, Repr

structure Waiter where
  unit : Poster
  item : WaitItem
  deriving DecidableEq, Repr

/-- A request read from the ring and not yet decided, with whether it holds its reservation (R19), and whether it is a
LANE_RESET that has waited for an end evaluation of its lane, or, after that of a RESTORE job, for the job's end (R127, R132;
the model's own field). -/
structure InHand where
  bytes : List Byte
  reserved : Bool
  metEvaluation : Bool := false
  deriving DecidableEq, Repr

structure RequestEngine where
  takenProducer : Word := 0
  consumer : Word := 0
  reservation : Bool := false
  inHand : Option InHand := none
  backlog : List Report := []
  waiters : List Waiter := []
  pendingRingFault : Option Report := none
  producer : Word := 0
  shownProducer : Word := 0
  takenConsumer : Word := 0
  refreshCount : Word := 0
  stale : Bool := false
  resetCause : ResetCause := .powerOn
  laneSettings : Vector LaneSettings 4 := Vector.replicate 4 {}
  loaderSettings : LoaderSettings := {}
  deriving DecidableEq, Repr

/-! ## Chunks, segments, streams, the Compressor (03, 04) -/

inductive Mode where
  | packed | plain
  deriving DecidableEq, Repr

/-- The fields of a segment header (R63). -/
structure SegmentHeader where
  mode : Mode
  tag : Byte
  rawLength : Nat
  storedLength : Nat
  sequence : Word
  rawCheck : Word
  deriving DecidableEq, Repr

/-- An entry of the compression queue (04 section 4.1). -/
structure ChunkEntry where
  stream : StreamId
  buffer : Fin 2
  slot : SlotId
  tag : Byte
  lane : LaneId
  sequence : Word
  rawLength : Nat
  rawCheck : Word
  /-- Position in the order of joining (R52, R71). -/
  order : Nat
  deriving DecidableEq, Repr

inductive BufferState where
  | free | filling | closed | compressing | ready | packing
  deriving DecidableEq, Repr

/-- A chunk buffer (03 section 3.4). `data` is the raw bytes up to the compression's completion and the segment's 16 + stored
length bytes after it. -/
structure Buffer where
  state : BufferState := .free
  data : List Byte := []
  /-- The running raw check, not complemented (R43). -/
  check : Word := 0xFFFFFFFF
  /-- The chunk's queue entry, from its close on. -/
  entry : Option ChunkEntry := none
  /-- The segment header's fields, from completion on. -/
  header : Option SegmentHeader := none
  deriving DecidableEq, Repr

inductive StreamPhase where
  | free | opened | closing
  deriving DecidableEq, Repr

structure Stream where
  phase : StreamPhase := .free
  slot : Option SlotId := none
  buffers : Vector Buffer 2 := Vector.replicate 2 {}
  deriving DecidableEq, Repr

/-- The compression in flight with its discard mark (R53, R55). -/
structure Compression where
  entry : ChunkEntry
  discard : Bool := false
  deriving DecidableEq, Repr

structure Compressor where
  queue : List ChunkEntry := []
  inFlight : Option Compression := none
  /-- The non-empty entries of the head table: hash and position, each hash once (R57). -/
  headTable : List (Nat × Nat) := []
  output : List Byte := []
  nextOrder : Nat := 0
  deriving DecidableEq, Repr

/-! ## Lane Units (05) -/

inductive Role where
  | idle | write | read
  deriving DecidableEq, Repr

/-- A slot's state, with the group number of a slot not FREE (R67, R69). -/
inductive SlotState where
  | free
  | opened (group : Word)
  | ready (group : Word)
  | drained (group : Word)
  deriving DecidableEq, Repr

/-- The packer position and what belongs to the open frame and group (R67, R70, R75). -/
structure Position where
  slot : Nat
  frame : Nat := 0
  offset : Nat := 0
  /-- First-segment offset of the current frame, none while unset. -/
  firstSegment : Option Nat := none
  /-- The group's running check, not complemented. -/
  check : Word := 0xFFFFFFFF
  /-- Segment headers that begin in the group (R82). -/
  starts : Nat := 0
  deriving DecidableEq, Repr

/-- The segment being packed: its buffer and the bytes still to be copied. -/
structure Packing where
  stream : StreamId
  buffer : Fin 2
  rest : List Byte
  /-- Steps 4 and 5 of R74 are still to be done, because the GROUP_READY of step 3 waits (R82). -/
  starting : Bool
  deriving DecidableEq, Repr

/-- Signals of the Job Table held by a Lane Unit (R82). -/
inductive LaneSignal where
  | flushTest | idleTest
  deriving DecidableEq, Repr

structure LaneCounters where
  padBytes : Word := 0
  misordered : Word := 0
  closedFull : Word := 0
  closedStarve : Word := 0
  closedAge : Word := 0
  closedFlush : Word := 0
  closedLimit : Word := 0
  deriving DecidableEq, Repr

/-- The lane record (R67). -/
structure Lane where
  role : Role := .idle
  full : Bool := false
  nextGroup : Word := 0
  slots : List SlotState := []
  nextSlot : Nat := 0
  position : Option Position := none
  /-- The timebase when the open slot opened; the open age is the time since (R79). -/
  openedAt : Option Nat := none
  closePending : Option (CloseReason × Nat) := none
  lastRelease : Option Nat := none
  interval : Option Nat := none
  heldReads : List Nat := []
  heldSignals : List LaneSignal := []
  packing : Option Packing := none
  /-- Close order of the chosen segment that waits, with its lane on the wait list, for catalog room (R73). -/
  chosen : Option Nat := none
  counters : LaneCounters := {}
  deriving DecidableEq, Repr

/-! ## Segment Catalog (06) -/

/-- Catalog operations (R99). Each is a whole inside one step (95_what_each_step_holds.md), so none stays in progress. -/
inductive CatalogOperation where
  | append | consumerTake | settlement | discard | rangeReset | missingSweep | sighting
  deriving DecidableEq, Repr

structure Catalog where
  producer : Word := 0
  consumer : Word := 0
  waitList : List LaneId := []
  claims : List LaneId := []
  operation : Option CatalogOperation := none
  deriving DecidableEq, Repr

/-! ## Return Framers (07) -/

inductive Phase where
  | unbound | taking | stopped
  deriving DecidableEq, Repr

/-- The synchronizer's state (07 section 7.1); the confirming states carry the candidate's frame. -/
inductive Sync where
  | search
  | confirm1 (candidate : FrameName)
  | confirm2 (candidate : FrameName)
  | locked
  deriving DecidableEq, Repr

/-- The group in hand (R109). -/
structure GroupInHand where
  group : Word
  accumulating : Bool
  check : Word
  deriving DecidableEq, Repr

/-- An entry of a piece list: stream position and length (R114). -/
structure Piece where
  position : Word
  length : Nat
  deriving DecidableEq, Repr

/-- The segment the assembler holds (R113, R114). -/
structure Assembly where
  wanted : Bool
  header : SegmentHeader
  /-- Start group, frame and offset. -/
  frame : FrameName
  offset : Nat
  /-- Stream position of the header. -/
  position : Word
  pieces : List Piece
  remaining : Nat
  deriving DecidableEq, Repr

/-- The assembler's states (07 section 7.6). AT_HEADER's offset is `FrameWork.cursor`. -/
inductive Assembler where
  | waitStart
  | atHeader
  | atNext
  | collect (segment : Assembly)
  | hold (segment : Assembly)
  deriving DecidableEq, Repr

/-- What remains of an accepted frame: its payload for the assembler, then the group check, then the scan mark's advance
(R107). -/
inductive FrameStage where
  | assemble | check | finish (lost : Bool)
  deriving DecidableEq, Repr

/-- The accepted frame whose payload is not finished. -/
structure FrameWork where
  position : Word
  name : FrameName
  firstSegment : Nat
  dataEnd : Nat
  recorded : Word
  slip : Bool
  cursor : Nat
  stage : FrameStage
  deriving DecidableEq, Repr

/-- Signals a Framer holds while it waits on a post (R103). -/
inductive FramerSignal where
  | admitted | unbind
  deriving DecidableEq, Repr

structure Framer where
  slot : Option SlotId := none
  scan : Word := 0
  consumed : Word := 0
  phase : Phase := .unbound
  sync : Sync := .search
  expected : Option FrameName := none
  missCount : Nat := 0
  firstMissed : Option Word := none
  groupInHand : Option GroupInHand := none
  lastSettled : Option Word := none
  failures : Nat := 0
  assembler : Assembler := .waitStart
  frame : Option FrameWork := none
  /-- The last frame accepted since lock was gained (R108, R168). -/
  lastAccepted : Option FrameName := none
  /-- A frame of a group later than a VERIFY job's last group has been accepted (R116). -/
  pastLast : Bool := false
  pendingOverrun : Option Report := none
  held : List FramerSignal := []
  locksLost : Word := 0
  groupsChecked : Word := 0
  groupsUnchecked : Word := 0
  segmentFaults : Word := 0
  deriving DecidableEq, Repr

/-! ## Decode Engine (08) -/

inductive DecodeFault where
  | shortInput | distance | overlong | excessInput
  deriving DecidableEq, Repr

inductive DecodeResult where
  | good
  | decodeFault (reason : DecodeFault)
  | checkFault
  deriving DecidableEq, Repr

/-- An entry of the decode queue (R118). -/
structure DecodeEntry where
  slot : SlotId
  tag : Byte
  kind : JobKind
  lane : LaneId
  header : SegmentHeader
  frame : FrameName
  offset : Nat
  pieces : List Piece
  deriving DecidableEq, Repr

/-- The decode in flight: EXPANDING until it has a result, SETTLING from then on (R119, R123). `ring` is the return ring in
which its pieces lie, as the layout gave it when the decode was taken; a later LAYOUT_SET leaves it (R125). `linked` is false
once its lane's Framer has been unbound (R120). -/
structure Decode where
  entry : DecodeEntry
  ring : Window := {}
  result : Option DecodeResult := none
  check : Word := 0xFFFFFFFF
  discard : Bool := false
  linked : Bool := true
  deriving DecidableEq, Repr

inductive DecodeOperation where
  | decode (decode : Decode)
  | evaluation (slot : SlotId)
  deriving DecidableEq, Repr

/-- Per job slot (08, state table; R135). -/
structure RestoreSlot where
  producer : Word := 0
  consumer : Word := 0
  expected : Nat := 0
  lastFault : Option (DecodeResult × Word) := none
  deriving DecidableEq, Repr

structure DecodeEngine where
  queue : List DecodeEntry := []
  holding : List LaneId := []
  operation : Option DecodeOperation := none
  /-- The expansion buffer.
  DESIGN CHOICE: it and the output check stay between the end of a decode and the next take; notes/assumptions/48.md. -/
  buffer : List Byte := []
  /-- The running output check, not complemented (R121). -/
  outputCheck : Word := 0xFFFFFFFF
  due : List SlotId := []
  slots : Vector RestoreSlot 8 := Vector.replicate 8 {}
  deriving DecidableEq, Repr

/-! ## Cartridge Directory (09) -/

inductive PlaceState where
  | empty
  | occupied (record : CartId)
  | unknown
  deriving DecidableEq, Repr

structure PlaceRecord where
  state : PlaceState := .empty
  /-- The tag of the order in the pending-order field (R138). -/
  pending : Option Byte := none
  deriving DecidableEq, Repr

inductive Condition where
  | unset | blank | written | suspect
  deriving DecidableEq, Repr

/-- A directory record (R137); the defaults are those of a new record. -/
structure CartRecord where
  label : Option Label := none
  place : PlaceId
  origin : Option PlaceId := none
  written : Word := 0
  verified : Word := 0
  limit : Word := 0
  condition : Condition := .unset
  deriving DecidableEq, Repr

/-- The level before the first sample is a DESIGN CHOICE, CLOSED; notes/assumptions/14.md. -/
structure DoorState where
  /-- The sampled level, true = OPEN. -/
  isOpen : Bool := false
  latch : Bool := true
  deriving DecidableEq, Repr

/-- What the directory holds while its post waits (R145). -/
inductive DirectorySignal where
  | edge (door : Door)
  | label (place : PlaceId) (label : Option Label)
  deriving DecidableEq, Repr

/-- The place map with `drives` drive places present, before any inventory (R146). -/
def initialPlaces (drives : Nat) : Vector PlaceRecord 30 :=
  Vector.ofFn fun p => if (p.val < drives || (4 ≤ p.val && p.val ≤ 28)) then { state := .unknown } else {}

structure Directory where
  places : Vector PlaceRecord 30 := initialPlaces 1
  /-- A free record is none (R137: a record that becomes free keeps nothing). -/
  records : Vector (Option CartRecord) 32 := Vector.replicate 32 none
  doorA : DoorState := {}
  doorB : DoorState := {}
  doorMail : DoorState := {}
  held : List DirectorySignal := []
  deriving DecidableEq, Repr

/-! ## Loader Controller (10) -/

/-- A running timer: when it started and its length, in microseconds. -/
structure Timer where
  started : Nat
  length : Nat
  deriving DecidableEq, Repr

/-- An exchange in progress on the label link (R160): the byte that the Loader Controller has sent, and the 5 ms within which
the reader's byte is due. -/
structure Exchange where
  sent : Byte
  limit : Timer
  /-- The order of its read has ended: the read stops once this exchange is over. -/
  stopped : Bool := false
  deriving DecidableEq, Repr

/-- Levels driven on the loader's outputs (R149).
Where the spec states no level before any has been driven (direction, jaw) the default is a DESIGN CHOICE;
notes/assumptions/14.md. -/
structure Outputs where
  motorRun : Bool := false
  /-- The rail direction: true toward home. -/
  towardHome : Bool := true
  gripperExtend : Bool := false
  gripperRetract : Bool := true
  jawClose : Bool := false
  jawOpen : Bool := false
  deriving DecidableEq, Repr

structure Loader where
  state : LoaderState := .unhomed
  station : Option Int := none
  queue : List Order := []
  step : Option ActiveStep := none
  markTimer : Option Timer := none
  stepTimer : Option Timer := none
  retryTimer : Option Timer := none
  /-- The exchange in progress on the label link (R160). -/
  exchange : Option Exchange := none
  /-- The label link is EXCHANGING. -/
  exchanging : Bool := false
  /-- The attempt number and the bytes received so far.
  DESIGN CHOICE while no attempt is under way; notes/assumptions/49.md. -/
  attempt : Nat := 0
  received : List Byte := []
  travelCount : Nat := 0
  lines : Lines := {}
  outputs : Outputs := {}
  /-- ORDER_DONE reports still to be posted one after another (R163). -/
  posts : List Report := []
  /-- Door signals held while the Loader Controller waits on a post (R153). -/
  heldDoors : List Door := []
  deriving DecidableEq, Repr

/-! ## The whole part -/

/-- The state of the part. -/
structure State where
  /-- Commands waiting, first in, first out; notes/assumptions/2.md. -/
  pending : List Instr := []
  /-- RESET_N is asserted. -/
  resetAsserted : Bool := true
  /-- N, the number of drives. -/
  driveCount : Nat := 1
  /-- Bytes returned to the last controller read. -/
  readData : List Byte := []
  /-- The microsecond timebase at the last event that read it. -/
  timebase : Nat := 0
  /-- How many free values have been used. -/
  freeCount : Nat := 0
  /-- Staging memory. -/
  mem : List Host.Cell := []
  wd : WindowDecoder := {}
  re : RequestEngine := {}
  jt : JobTable := {}
  streams : Vector Stream 4 := Vector.replicate 4 {}
  ce : Compressor := {}
  lanes : Vector Lane 4 := Vector.replicate 4 {}
  sc : Catalog := {}
  framers : Vector Framer 4 := Vector.replicate 4 {}
  de : DecodeEngine := {}
  cd : Directory := {}
  lc : Loader := {}
  deriving DecidableEq, Repr

/-- Power-on reset with RESET_N still asserted: every block in its initial state (R5, R7, R16, R30, R33, R50, R56, R88, R100,
R101, R125, R146, R165), nothing in memory; notes/assumptions/1.md and 14.md.
DESIGN CHOICE: this is the part with RESET_N asserted. -/
def State.reset : State := {}

/-- ATTN (R25). -/
def State.attn (s : State) : Bool :=
  !s.resetAsserted && decide (s.re.shownProducer ≠ s.re.takenConsumer)

end Sys2Proof.Machine
end

