-- ==== Sys2Proof/Machine/Ops.lean ====
section
/-! DEFINITION. The shared operations: bytes and numbers, staging memory, ring counts, CRC-32, updates of one lane, stream,
Framer or job, posting a report, and what an event samples. -/

namespace Sys2Proof.Machine

open Sys2Proof

/-! ## Numbers and bytes (00_scope.md, "Byte order and sizes") -/

/-- The `n` lowest bytes of a number, least significant first. -/
def leBytes : Nat → Nat → List Byte
  | 0, _ => []
  | n + 1, v => BitVec.ofNat 8 v :: leBytes n (v / 256)

/-- The number that little-endian bytes hold. -/
def leNat : List Byte → Nat
  | [] => 0
  | b :: bs => b.toNat + 256 * leNat bs

/-- The 32-bit value of little-endian bytes. -/
def leWord (bs : List Byte) : Word := BitVec.ofNat 32 (leNat bs)

/-- `n` bytes of value 0. -/
def zeroBytes (n : Nat) : List Byte := List.replicate n 0

/-- A field of a record held as a list of bytes: the number at `offset`, `size` bytes. -/
def fieldNat (bs : List Byte) (offset size : Nat) : Nat := leNat ((bs.drop offset).take size)

/-- How far count `a` is ahead of count `b` (00_scope.md, "Counts on rings"). -/
def ahead (a b : Word) : Nat := (a - b).toNat

/-- A saturating 32-bit count raised by `n`. -/
def satAdd (w : Word) (n : Nat) : Word := if w.toNat + n < 4294967295 then BitVec.ofNat 32 (w.toNat + n) else 0xFFFFFFFF

/-- A saturating 32-bit count raised by 1. -/
def satInc (w : Word) : Word := satAdd w 1

/-! ## Staging memory -/

/-- What a byte that no cell lists reads as: DESIGN CHOICE 0, notes/assumptions/4.md. -/
def unlistedByte : Byte := 0

/-- The byte at an address. -/
def memRead : List Host.Cell → Nat → Byte
  | [], _ => unlistedByte
  | (k, b) :: rest, a => if k = a then b else memRead rest a

/-- `n` bytes from an address on. -/
def memBytes (m : List Host.Cell) (a n : Nat) : List Byte := (List.range n).map fun i => memRead m (a + i)

/-- The 32-bit little-endian value at an address. -/
def memWord (m : List Host.Cell) (a : Nat) : Word := leWord (memBytes m a 4)

/-- The cells that list bytes from an address on: none for a byte that an unlisted address reads as. -/
def cellsFrom : Nat → List Byte → List Host.Cell
  | _, [] => []
  | a, b :: bs => if b = unlistedByte then cellsFrom (a + 1) bs else (a, b) :: cellsFrom (a + 1) bs

/-- Memory after the bytes have been written from an address on. -/
def memWrite (m : List Host.Cell) (a : Nat) (bs : List Byte) : List Host.Cell :=
  m.filter (fun c => decide (c.1 < a)) ++ cellsFrom a bs ++ m.filter (fun c => decide (a + bs.length ≤ c.1))

/-- Addresses rise strictly and none is below `low`. -/
def memSorted : Nat → List Host.Cell → Bool
  | _, [] => true
  | low, (k, _) :: rest => decide (low ≤ k) && memSorted (k + 1) rest

/-- The canonical form of memory: addresses strictly rising, no cell equal to what an unlisted byte reads as. -/
def Memory.wf (m : List Host.Cell) : Bool := memSorted 0 m && m.all fun c => decide (c.2 ≠ unlistedByte)

/-- A write of the part or a passed write (R3). -/
def State.store (s : State) (a : Nat) (bs : List Byte) : State := { s with mem := memWrite s.mem a bs }

/-- The address of a position or count in a byte ring of a window (07 section 7.1, R131).
A size that is no power of two is taken literally, DEDUCED; notes/assumptions/23.md. -/
def ringAddress (w : Window) (x : Nat) : Nat := w.base + x % w.size

/-- `n` bytes of a byte ring from a position on, read across its end (R120). Positions are 32-bit counts. -/
def ringBytes (m : List Host.Cell) (w : Window) (x : Word) (n : Nat) : List Byte :=
  (List.range n).map fun i => memRead m (ringAddress w (x + BitVec.ofNat 32 i).toNat)

/-- Memory after bytes have been written into a byte ring from a count on, one after another across its end (R131). -/
def ringWrite (m : List Host.Cell) (w : Window) : Word → List Byte → List Host.Cell
  | _, [] => m
  | x, b :: bs => ringWrite (memWrite m (ringAddress w x.toNat) [b]) w (x + 1) bs

/-! ## CRC-32 (R64) -/

/-- One step of the register. -/
def crcStep (r : Word) : Word := if r.getLsbD 0 then (r >>> 1) ^^^ 0xEDB88320 else r >>> 1

/-- The register after one byte. -/
def crcByte (r : Word) (b : Byte) : Word :=
  let r := r ^^^ b.setWidth 32
  crcStep (crcStep (crcStep (crcStep (crcStep (crcStep (crcStep (crcStep r)))))))

/-- The register, not complemented, after more bytes. -/
def crcUpdate (r : Word) (bs : List Byte) : Word := bs.foldl crcByte r

/-- The register's start value. -/
def crcStart : Word := 0xFFFFFFFF

/-- The CRC-32 of a sequence of bytes. -/
def crc32 (bs : List Byte) : Word := ~~~ crcUpdate crcStart bs

/-! ## Updates of one element -/

def State.modLane (s : State) (n : LaneId) (f : Lane → Lane) : State := { s with lanes := s.lanes.set n (f s.lanes[n]) }

def State.modFramer (s : State) (n : LaneId) (f : Framer → Framer) : State :=
  { s with framers := s.framers.set n (f s.framers[n]) }

def State.modStream (s : State) (i : StreamId) (f : Stream → Stream) : State :=
  { s with streams := s.streams.set i (f s.streams[i]) }

def State.modBuffer (s : State) (i : StreamId) (b : Fin 2) (f : Buffer → Buffer) : State :=
  s.modStream i fun st => { st with buffers := st.buffers.set b (f st.buffers[b]) }

def State.modJob (s : State) (k : SlotId) (f : JobRecord → JobRecord) : State :=
  { s with jt.jobs := s.jt.jobs.set k { s.jt.jobs[k] with record := f s.jt.jobs[k].record } }

def State.modCounters (s : State) (k : SlotId) (f : Counters → Counters) : State :=
  s.modJob k fun r => { r with counters := f r.counters }

def State.setStreamAperture (s : State) (i : StreamId) (a : Aperture) : State :=
  { s with wd.streamAperture := s.wd.streamAperture.set i a }

def State.setRingAperture (s : State) (n : LaneId) (a : Aperture) : State :=
  { s with wd.ringAperture := s.wd.ringAperture.set n a }

def State.modRestore (s : State) (k : SlotId) (f : RestoreSlot → RestoreSlot) : State :=
  { s with de.slots := s.de.slots.set k (f s.de.slots[k]) }

/-- Elements that a function accepts, in rising order. -/
def finFilter (n : Nat) (p : Fin n → Bool) : List (Fin n) := (List.finRange n).filter p

/-! ## Posting (R22) -/

/-- Entries of the backlog, counting a held reservation as one. -/
def RequestEngine.used (re : RequestEngine) : Nat := re.backlog.length + (if re.reservation then 1 else 0)

/-- Room for a post that begins now: an entry that is free and that no earlier waiter is due (notes/assumptions/9.md).
DEDUCED. -/
def RequestEngine.hasRoom (re : RequestEngine) : Bool := decide (re.used + re.waiters.length < 64)

/-- A unit posts a report: it joins the tail of the backlog, or the unit waits. -/
def post (unit : Poster) (report : Report) (s : State) : State :=
  if s.re.hasRoom then { s with re.backlog := s.re.backlog ++ [report] }
  else { s with re.waiters := s.re.waiters ++ [{ unit := unit, item := .post report }] }

/-- The unit waits on a post or a reservation. -/
def State.waiting (s : State) (unit : Poster) : Bool := s.re.waiters.any fun w => decide (w.unit = unit)

/-! ## What an event samples (notes/assumptions/5.md) -/

/-- The timebase read at an event; it never runs back.
DESIGN CHOICE. -/
def State.observeTime (s : State) (now : Nat) : State := { s with timebase := max s.timebase now }

/-- The timebase and the loader's input lines sampled at an event. -/
def State.observe (s : State) (x : Sample) : State :=
  { s with timebase := max s.timebase x.now, lc.lines := x.lines }

/-- A timer started now, with a length in milliseconds. -/
def State.startTimer (s : State) (ms : Nat) : Timer := { started := s.timebase, length := ms * 1000 }

/-- The timer runs and has reached its length.
DESIGN CHOICE: an expiry row takes effect only then; notes/assumptions/5.md. -/
def State.expired (s : State) (t : Option Timer) : Bool :=
  match t with
  | none => false
  | some t => decide (t.started + t.length ≤ s.timebase)

/-- The next free value (notes/assumptions/12.md). -/
def State.freeWord (s : State) : Word := Config.freeWord s.freeCount

/-- One free value has been used. -/
def State.freeUsed (s : State) : State := { s with freeCount := s.freeCount + 1 }

/-! ## Jobs and places that many blocks look up -/

/-- The record of a live slot. -/
def State.liveJob (s : State) (k : SlotId) : Option JobRecord := if s.jt.jobs[k].live then some s.jt.jobs[k].record else none

/-- The live job with a tag (R33: live tags are distinct; the lowest slot is taken). -/
def State.jobByTag (s : State) (tag : Nat) : Option (SlotId × JobRecord) :=
  match finFilter 8 fun k => s.jt.jobs[k].live && decide (s.jt.jobs[k].record.tag.toNat = tag) with
  | [] => none
  | k :: _ => some (k, s.jt.jobs[k].record)

/-- The live jobs on a lane, in the order of their slots. -/
def State.jobsOnLane (s : State) (n : LaneId) : List SlotId :=
  finFilter 8 fun k => s.jt.jobs[k].live && decide (s.jt.jobs[k].record.lane = n)

/-- Live WRITE jobs on a lane. -/
def State.writeJobsOnLane (s : State) (n : LaneId) : List SlotId :=
  (s.jobsOnLane n).filter fun k => decide (s.jt.jobs[k].record.kind = .write)

/-- The place of a lane's drive (R136). -/
def drivePlace (n : LaneId) : PlaceId := ⟨n.val, by omega⟩

/-- The PICKER (R136). -/
def pickerPlace : PlaceId := 29

/-- The directory record of the cartridge in a lane's drive, if its place is OCCUPIED. -/
def State.driveCart (s : State) (n : LaneId) : Option CartId :=
  match s.cd.places[drivePlace n].state with
  | .occupied c => some c
  | _ => none

def State.modCart (s : State) (c : CartId) (f : CartRecord → CartRecord) : State :=
  { s with cd.records := s.cd.records.set c (s.cd.records[c].map f) }

/-- The label of a directory record, absent where the record is free. -/
def State.cartLabel (s : State) (c : CartId) : Option Label := s.cd.records[c].bind fun r => r.label

end Sys2Proof.Machine
end

