-- ==== Sys2Proof/Machine/Operands.lean ====
section
/-! DEFINITION. The argument fields of request records (R167), and the values that settings clamp to (R26, R27). -/

namespace Sys2Proof.Machine

open Sys2Proof

/-- The request kinds (R167). -/
inductive RequestKind where
  | layoutSet | laneSet | loaderSet | partReset
  | writeStart | streamClose | verifyStart | restoreStart | jobEnd | jobAbort
  | laneResync | laneReset | cartridgeSet
  | move | mount | dismount | inventory | pickerPut | loaderHalt | loaderResume
  deriving DecidableEq, Repr

/-- The kind a value names (R167). -/
def requestKindOf : Nat → Option RequestKind
  | 0x0001 => some .layoutSet
  | 0x0002 => some .laneSet
  | 0x0003 => some .loaderSet
  | 0x0004 => some .partReset
  | 0x0010 => some .writeStart
  | 0x0011 => some .streamClose
  | 0x0012 => some .verifyStart
  | 0x0013 => some .restoreStart
  | 0x0014 => some .jobEnd
  | 0x0015 => some .jobAbort
  | 0x0020 => some .laneResync
  | 0x0021 => some .laneReset
  | 0x0030 => some .cartridgeSet
  | 0x0040 => some .move
  | 0x0041 => some .mount
  | 0x0042 => some .dismount
  | 0x0043 => some .inventory
  | 0x0044 => some .pickerPut
  | 0x0045 => some .loaderHalt
  | 0x0046 => some .loaderResume
  | _ => none

/-- The kind field of a record as read, two bytes at offset 0. -/
def recordKindValue (r : List Byte) : Nat := fieldNat r 0 2

/-- The kind of a record, none for an unknown kind. -/
def recordKind (r : List Byte) : Option RequestKind := requestKindOf (recordKindValue r)

/-- The tag field, two bytes at offset 2. -/
def recordTag (r : List Byte) : Nat := fieldNat r 2 2

/-- A one-byte argument. -/
def argByte (r : List Byte) (offset : Nat) : Nat := fieldNat r offset 1

/-- A 32-bit argument. -/
def argWord (r : List Byte) (offset : Nat) : Word := BitVec.ofNat 32 (fieldNat r offset 4)

/-- The lane argument: byte 4, or byte 5 for WRITE_START. -/
def recordLane (kind : RequestKind) (r : List Byte) : Nat :=
  match kind with
  | .writeStart => argByte r 5
  | _ => argByte r 4

/-- The eight characters at an offset. -/
def argLabel (r : List Byte) (offset : Nat) : Label :=
  Vector.ofFn fun i : Fin 8 => BitVec.ofNat 8 (argByte r (offset + i.val))

/-- Every character lies from 0x20 to 0x7E (R137, R142). -/
def labelOk (l : Label) : Bool := l.toList.all fun b => decide (0x20 ≤ b.toNat ∧ b.toNat ≤ 0x7E)

/-! ## LAYOUT_SET (R5, R6, R167) -/

/-- The window table a LAYOUT_SET record gives; the entries of lanes numbered N and above are ignored (R5). -/
def recordLayout (drives : Nat) (r : List Byte) : Layout :=
  { memorySize := 2 ^ argByte r 4
    apertures := Vector.ofFn fun i : Fin 4 =>
      { base := fieldNat r (5 + 4 * i.val) 3 * 4096, size := 2 ^ argByte r (8 + 4 * i.val) }
    pools := Vector.ofFn fun n : Fin 4 =>
      if n.val < drives then { base := fieldNat r (21 + 4 * n.val) 3 * 4096, slots := argByte r (24 + 4 * n.val) } else {}
    rings := Vector.ofFn fun n : Fin 4 =>
      if n.val < drives then
        { base := fieldNat r (37 + 4 * n.val) 3 * 4096, size := argByte r (40 + 4 * n.val) * 32768 }
      else {}
    catalog := { base := fieldNat r 53 3 * 4096, size := fieldNat r 56 2 * 32768 }
    restore := { base := fieldNat r 58 3 * 4096, size := fieldNat r 61 2 * 65536 } }

/-- A block pool as one window (R6). -/
def Pool.window (p : Pool) : Window := { base := p.base, size := 32768 * p.slots }

/-- The windows that R6 compares: apertures, the N pools, the N return rings, catalog, restore area. -/
def Layout.windows (l : Layout) (drives : Nat) : List Window :=
  l.apertures.toList ++ ((l.pools.toList.take drives).map Pool.window) ++ l.rings.toList.take drives
    ++ [l.catalog, l.restore]

/-- Two windows share no byte; ends are reckoned without wrap (R6). -/
def Window.disjoint (a b : Window) : Bool := decide (a.base + a.size ≤ b.base) || decide (b.base + b.size ≤ a.base)

/-- An aperture entry in the range and with the alignment of R5. -/
def apertureOk (w : Window) : Bool :=
  [65536, 131072, 262144, 524288, 1048576].contains w.size && decide (w.base % w.size = 0)

/-- A pool entry as R5 allows it. -/
def poolOk (p : Pool) : Bool := decide (p.base % 32768 = 0) && decide (4 ≤ p.slots ∧ p.slots ≤ 64)

/-- A window whose base and size are multiples of `unit` and whose size lies from `low` to `high`. -/
def windowOk (unit low high : Nat) (w : Window) : Bool :=
  decide (w.base % unit = 0) && decide (w.size % unit = 0) && decide (low ≤ w.size ∧ w.size ≤ high)

/-- No two of the windows overlap. -/
def allDisjoint : List Window → Bool
  | [] => true
  | w :: ws => ws.all (fun v => w.disjoint v) && allDisjoint ws

/-- The validation of R6. -/
def Layout.valid (l : Layout) (drives : Nat) : Bool :=
  [2 ^ 28, 2 ^ 29, 2 ^ 30, 2 ^ 31, 2 ^ 32].contains l.memorySize
    && l.apertures.toList.all apertureOk
    && (l.pools.toList.take drives).all poolOk
    && (l.rings.toList.take drives).all (windowOk 32768 65536 4194304)
    && windowOk 32768 32768 33554432 l.catalog
    && windowOk 65536 65536 268435456 l.restore
    && (l.windows drives).all (fun w => decide (0x10000 ≤ w.base) && decide (w.base + w.size ≤ l.memorySize))
    && allDisjoint (l.windows drives)

/-! ## Settings (R26, R27) -/

/-- The lane settings of a LANE_SET record after clamping (R26). -/
def recordLaneSettings (r : List Byte) : LaneSettings :=
  { retainDepth := min (argByte r 5) 4
    streamingLimit := min (fieldNat r 6 2) 1000
    ageLimit := min (fieldNat r 8 2) 60000
    lossThreshold := if argByte r 10 = 3 then 3 else 4 }

/-- The loader settings of a LOADER_SET record after clamping, the creep duty to the cruise duty just stored (R27). -/
def recordLoaderSettings (r : List Byte) : LoaderSettings :=
  let cruise := max 1 (min (fieldNat r 4 2) 256)
  { cruiseDuty := cruise
    creepDuty := max 1 (min (fieldNat r 6 2) cruise)
    markTimeout := max 50 (min (fieldNat r 8 2) 2000)
    stepTimeout := max 200 (min (fieldNat r 10 2) 5000) }

/-! ## Orders (R150, R151, R167) -/

/-- The order kind of a request kind. -/
def orderKindOf : RequestKind → Option OrderKind
  | .move => some .move
  | .mount => some .mount
  | .dismount => some .dismount
  | .inventory => some .inventory
  | .pickerPut => some .pickerPut
  | _ => none

/-- The scope an INVENTORY names (R167). -/
def scopeOf : Nat → Option Scope
  | 0 => some .a
  | 1 => some .b
  | 2 => some .mail
  | 3 => some .drives
  | _ => none

/-- A place number names a place the part has: 0 to 29, an absent drive excepted (R136). -/
def presentPlace (drives : Nat) (p : Nat) : Option PlaceId :=
  if h : p < 30 then (if drives ≤ p ∧ p < 4 then none else some ⟨p, h⟩) else none

/-- MAIL or a magazine slot (R151). -/
def isShelf (p : PlaceId) : Bool := decide (4 ≤ p.val ∧ p.val ≤ 28)

/-- A drive place (R151). -/
def isDrive (p : PlaceId) : Bool := decide (p.val < 4)

/-- The door a place lies behind (R136). -/
def doorOf (p : PlaceId) : Option Door :=
  if p.val = 4 then some .mail
  else if 5 ≤ p.val ∧ p.val ≤ 16 then some .a
  else if 17 ≤ p.val ∧ p.val ≤ 28 then some .b
  else none

/-- The present places of a scope, lowest station first (R151, R161). -/
def scopePlaces (drives : Nat) (sc : Scope) : List PlaceId :=
  (List.finRange 30).filter fun p =>
    match sc with
    | .a => decide (doorOf p = some .a)
    | .b => decide (doorOf p = some .b)
    | .mail => decide (doorOf p = some .mail)
    | .drives => decide (p.val < drives ∧ p.val < 4)

/-- The door of a scope; DRIVES has none (R161). -/
def scopeDoor : Scope → Option Door
  | .a => some .a
  | .b => some .b
  | .mail => some .mail
  | .drives => none

end Sys2Proof.Machine
end

