-- ==== Sys2Proof/Machine/Flags.lean ====
section
/-! DEFINITION. The status the part derives from its state: what a stream shows as its state, the rail motor's duty, the
phase a decode shows, the presence of the picker station. ATTN is `State.attn` in State.lean. -/

namespace Sys2Proof.Machine

open Sys2Proof

/-- The stream states that the status image shows (03 section 3.4), coded 1 FREE, 2 OPEN, 3 HELD, 4 CLOSING. -/
def State.streamShown (s : State) (i : StreamId) : Nat :=
  match s.streams[i].phase with
  | .free => 1
  | .opened => if s.wd.streamAperture[i].held then 3 else 2
  | .closing => 4

/-- The duty of the rail motor in 256ths of its period (R149, R154, R155): creep while homing and at travel count 1, cruise at
travel count 2 or more, 0 while the motor does not run. -/
def State.motorDuty (s : State) : Nat :=
  if s.lc.outputs.motorRun then
    if s.lc.state = .homing ∨ s.lc.travelCount ≤ 1 then s.re.loaderSettings.creepDuty else s.re.loaderSettings.cruiseDuty
  else 0

/-- Free space of a buffer (R44). -/
def Buffer.space (b : Buffer) : Nat :=
  match b.state with
  | .free => 16384
  | .filling => 16384 - b.data.length
  | _ => 0

/-- Free space of a stream's two buffers (R44). -/
def Stream.space (st : Stream) : Nat := st.buffers[0].space + st.buffers[1].space

/-- The accept limit of a stream (R44). -/
def State.streamLimit (s : State) (i : StreamId) : Word :=
  match s.streams[i].phase with
  | .free => 0
  | .closing => s.wd.streamAperture[i].expected
  | .opened =>
    if s.waiting (.stream i) then s.wd.streamAperture[i].expected
    else s.wd.streamAperture[i].expected + BitVec.ofNat 32 s.streams[i].space

/-- The room of a restore ring (R131). -/
def State.restoreRoom (s : State) (k : SlotId) : Nat :=
  s.jt.jobs[k].record.ringSize.toNat - ahead s.de.slots[k].producer s.de.slots[k].consumer

/-- The number of catalog records, 0 while the set flag is clear (R89). -/
def State.catalogSize (s : State) : Nat :=
  match s.wd.layout with
  | none => 0
  | some l => l.catalog.size / 32

/-- The room of the catalog (R93). -/
def State.catalogRoom (s : State) : Nat :=
  s.catalogSize - ahead s.sc.producer s.sc.consumer - s.sc.claims.length

/-- READY slots with their group numbers. -/
def Lane.readyGroups (l : Lane) : List Word :=
  l.slots.filterMap fun x => match x with | .ready g => some g | _ => none

/-- OPEN slots. -/
def Lane.openCount (l : Lane) : Nat := l.slots.countP fun x => match x with | .opened _ => true | _ => false

/-- DRAINED slots. -/
def Lane.drainedCount (l : Lane) : Nat := l.slots.countP fun x => match x with | .drained _ => true | _ => false

end Sys2Proof.Machine
end

