-- ==== Sys2Proof/Machine/Records.lean ====
section
/-! DEFINITION. The byte layouts of what the part writes and reads in memory: reports (R168), frame headers, segment headers,
catalog records and restore descriptors (R169). -/

namespace Sys2Proof.Machine

open Sys2Proof

/-! ## Codes (R168) -/

/-- The value of an outcome code (R168). -/
def Code.value : Code → Nat
  | .done => 0x00 | .badKind => 0x01 | .badArgument => 0x02 | .noLayout => 0x03
  | .layoutInvalid => 0x04 | .busy => 0x05 | .ringFault => 0x06 | .tagInUse => 0x07
  | .noJob => 0x08 | .streamInUse => 0x09 | .laneBusy => 0x0A | .laneFull => 0x0B
  | .driveEmpty => 0x0C | .placePending => 0x0D | .placeUnknown => 0x0E | .placeOccupied => 0x0F
  | .placeEmpty => 0x10 | .cartridgeUnset => 0x11 | .cartridgeSuspect => 0x12 | .cartridgeUnlabelled => 0x13
  | .cartridgeLimit => 0x14 | .rangeInvalid => 0x15 | .ringInvalid => 0x16 | .queueFull => 0x17
  | .loaderHalted => 0x18 | .doorOpen => 0x19 | .pickerEmpty => 0x1A | .pickerHolding => 0x1B

def JobOutcome.value : JobOutcome → Nat
  | .complete => 0x20 | .aborted => 0x21 | .cartridgeFull => 0x22 | .laneReset => 0x23

def LoaderFault.value : LoaderFault → Nat
  | .homeFail => 0x40 | .stall => 0x41 | .overtravel => 0x42 | .gripTimeout => 0x43 | .sourceEmpty => 0x44
  | .targetOccupied => 0x45 | .doorOpened => 0x46 | .halted => 0x47 | .cancelled => 0x48

def OrderOutcome.value : OrderOutcome → Nat
  | .done => 0
  | .refused c => c.value
  | .fault f => f.value

def CloseReason.value : CloseReason → Nat
  | .full => 1 | .starve => 2 | .age => 3 | .flush => 4 | .limit => 5

def JobKind.value : JobKind → Nat
  | .write => 1 | .verify => 2 | .restore => 3

def StepKind.value : StepKind → Nat
  | .homing => 1 | .travel => 2 | .get => 3 | .put => 4 | .labelRead => 5 | .survey => 6

def LoaderState.value : LoaderState → Nat
  | .unhomed => 1 | .homing => 2 | .idle => 3 | .busy => 4 | .halted => 5

/-- An order's kind as the low byte of its request kind (R167, R168). -/
def OrderKind.value : OrderKind → Nat
  | .move => 0x40 | .mount => 0x41 | .dismount => 0x42 | .inventory => 0x43 | .pickerPut => 0x44

def doorValue : Door → Nat
  | .a => 0 | .b => 1 | .mail => 2

def SegmentFaultReason.value : SegmentFaultReason → Nat
  | .mark => 1 | .mode => 2 | .length => 3 | .split => 4 | .short => 5

def LostReason.value : LostReason → Nat
  | .misses => 1 | .checks => 2 | .resync => 3

def OverrunReason.value : OverrunReason → Nat
  | .gap => 1 | .limit => 2

def ResetCause.value : ResetCause → Nat
  | .powerOn => 1 | .request => 2

/-- The aperture byte of OVERRUN (R168). -/
def ApertureId.value : ApertureId → Nat
  | .stream i => i.val
  | .ring n => 0x10 + n.val

def Mode.value : Mode → Nat
  | .packed => 1 | .plain => 2

/-! ## Small fields -/

def byte1 (n : Nat) : List Byte := leBytes 1 n
def half (n : Nat) : List Byte := leBytes 2 n
def word (w : Word) : List Byte := leBytes 4 w.toNat
def long (w : Long) : List Byte := leBytes 8 w.toNat

/-- A label, eight bytes of 0 when absent (R168). -/
def labelBytes : Option Label → List Byte
  | none => zeroBytes 8
  | some l => l.toList

/-- A station as a signed byte, 0x7F when absent (R168).
The values for HOMING, SURVEY and CANCELLED are DEDUCED; notes/assumptions/15.md. -/
def stationByte : Option Int → List Byte
  | none => byte1 0x7F
  | some i => [BitVec.ofInt 8 i]

/-- The bytes of a record filled with 0 to its size. -/
def padded (size : Nat) (bs : List Byte) : List Byte := bs ++ zeroBytes (size - bs.length)

/-! ## Reports (R168) -/

/-- The resume offset (R47). -/
def JobRecord.resumeOffset (r : JobRecord) : Long :=
  let next := if r.closedFinal && decide (r.nextSeq = 0xFFFFFFFF) then 4294967296 else r.nextSeq.toNat
  BitVec.ofNat 64 ((next - r.firstSeq.toNat) * 16384)

/-- Bytes 8 to 31 of a JOB_DONE (R46, R168). -/
def jobCounterBytes (r : JobRecord) (outcome : JobOutcome) : List Byte :=
  match r.kind, outcome with
  | .write, .cartridgeFull =>
    long r.counters.rawBytes ++ word r.counters.segments ++ word r.nextSeq ++ long r.resumeOffset
  | .write, _ =>
    long r.counters.rawBytes ++ long r.counters.storedBytes ++ word r.counters.segments ++ word r.counters.plainSegments
  | .verify, _ =>
    word r.counters.verified ++ word r.counters.failed ++ word r.counters.uncatalogued ++ word r.counters.missing
      ++ word r.counters.faulted ++ word r.counters.groupCheckFailures
  | .restore, _ =>
    long r.counters.rawBytes ++ word r.counters.segments ++ word r.counters.faulted ++ word r.counters.missing
      ++ word r.counters.groupCheckFailures

/-- The assigned bytes of a report, from byte 0 on (R168).
DESIGN CHOICE: a count of segment starts above 255 is written modulo 256; notes/assumptions/35.md. -/
def reportFields : Report → List Byte
  | .requestDone code tag kind count =>
    byte1 1 ++ byte1 code.value ++ half tag.toNat ++ half kind.toNat ++ half 0 ++ word count
  | .jobDone slot record outcome =>
    byte1 2 ++ byte1 outcome.value ++ half record.tag.toNat ++ byte1 slot.val ++ byte1 record.kind.value ++ byte1 record.lane.val
      ++ byte1 0 ++ jobCounterBytes record outcome
  | .groupReady lane reason address group slot starts =>
    byte1 3 ++ byte1 reason.value ++ byte1 lane.val ++ byte1 0 ++ word address ++ word group ++ byte1 slot ++ byte1 starts
  | .overrun aperture tag reason expected limit offset =>
    byte1 4 ++ byte1 reason.value ++ byte1 aperture.value ++ byte1 tag.toNat ++ word expected ++ word limit ++ word offset
  | .lockGained lane tag position frame =>
    byte1 5 ++ byte1 0 ++ byte1 lane.val ++ byte1 tag.toNat ++ word position ++ word frame.group ++ byte1 frame.index.val
  | .lockLost lane tag reason position group index =>
    byte1 6 ++ byte1 reason.value ++ byte1 lane.val ++ byte1 tag.toNat ++ word position ++ word group ++ byte1 index.toNat
  | .groupCheckFail lane tag group computed recorded position =>
    byte1 7 ++ byte1 0 ++ byte1 lane.val ++ byte1 tag.toNat ++ word group ++ word computed ++ word recorded ++ word position
  | .segmentFault lane tag reason position frame =>
    byte1 8 ++ byte1 reason.value ++ byte1 lane.val ++ byte1 tag.toNat ++ word position ++ word frame.group
      ++ byte1 frame.index.val
  | .orderDone tag kind outcome step stepStation state station =>
    byte1 9 ++ byte1 outcome.value ++ half tag.toNat ++ byte1 kind.value
      ++ byte1 (match step with | none => 0 | some k => k.value) ++ stationByte stepStation ++ byte1 state.value
      ++ stationByte station
  | .labelChanged place record old new =>
    byte1 10 ++ byte1 0 ++ byte1 place.val ++ byte1 record.val ++ labelBytes old ++ labelBytes new
      ++ byte1 ((if old.isNone then 1 else 0) + (if new.isNone then 2 else 0))
  | .doorOpened door freed => byte1 11 ++ byte1 0 ++ byte1 (doorValue door) ++ byte1 0 ++ byte1 freed
  | .ringFault consumer value count =>
    byte1 12 ++ byte1 (if consumer then 2 else 1) ++ half 0 ++ word value ++ word count
  | .resetDone cause tag drives => byte1 13 ++ byte1 cause.value ++ half tag.toNat ++ byte1 drives

/-- The 32-byte record of a report. -/
def reportBytes (r : Report) : List Byte := padded 32 (reportFields r)

/-! ## Frame headers (R70, R169) -/

/-- The sync pattern. -/
def syncPattern : List Byte := [0xB5, 0x3C, 0xE2, 0x71]

/-- The sum of bytes modulo 256. -/
def byteSum (bs : List Byte) : Byte := bs.foldl (· + ·) 0

/-- The 20 bytes of a frame header; the last makes them sum to 0 modulo 256. -/
def frameHeader (group check : Word) (firstSegment : Option Nat) (index : Nat) (padClosed : Bool) (fill : Nat) :
    List Byte :=
  let body := syncPattern ++ word group ++ word check ++ half (firstSegment.getD 0xFFFF) ++ byte1 index ++ byte1 1
    ++ byte1 (if padClosed then 1 else 0) ++ half fill
  body ++ [0 - byteSum body]

/-- A good header (R104), judged over its 20 bytes. -/
def headerGood (h : List Byte) : Bool :=
  decide (h.take 4 = syncPattern) && decide (fieldNat h 15 1 = 1) && decide (byteSum h = 0) && decide (fieldNat h 14 1 ≤ 7)

/-- The frame a header names, its index taken modulo 8 (0 to 7 in a good header). -/
def headerName (h : List Byte) : FrameName :=
  { group := leWord ((h.drop 4).take 4), index := Fin.ofNat 8 (fieldNat h 14 1) }

/-- The successor of a frame (R104). -/
def FrameName.next (x : FrameName) : FrameName :=
  if x.index.val = 7 then { group := x.group + 1, index := 0 } else { group := x.group, index := x.index + 1 }

/-- The signed distance from frame `x` to frame `y` (R104). -/
def FrameName.distance (x y : FrameName) : Int :=
  8 * (y.group - x.group).toInt + ((y.index.val : Int) - (x.index.val : Int))

/-- Frame `y` is later than frame `x` (R104). -/
def FrameName.later (x y : FrameName) : Bool := decide (0 < x.distance y)

/-- Group `a` is later than group `b`. -/
def groupLater (a b : Word) : Bool := decide (0 < (a - b).toInt)

/-! ## Segment headers (R63, R169) -/

def segmentHeaderBytes (h : SegmentHeader) : List Byte :=
  [0xA7, 0x5E] ++ byte1 h.mode.value ++ byte1 h.tag.toNat ++ half h.rawLength ++ half h.storedLength ++ word h.sequence
    ++ word h.rawCheck

/-- The first check of R113 that a 16-byte segment header fails, or its fields. -/
def readSegmentHeader (b : List Byte) : Except SegmentFaultReason SegmentHeader :=
  let mode := fieldNat b 2 1
  let raw := fieldNat b 4 2
  let stored := fieldNat b 6 2
  if b.take 2 ≠ [0xA7, 0x5E] then .error .mark
  else if mode ≠ 1 ∧ mode ≠ 2 then .error .mode
  else if ¬ (1 ≤ raw ∧ raw ≤ 16384) then .error .length
  else if ¬ (1 ≤ stored ∧ stored ≤ raw) then .error .length
  else if mode = 2 ∧ stored ≠ raw then .error .length
  else .ok
    { mode := if mode = 1 then .packed else .plain
      tag := BitVec.ofNat 8 (fieldNat b 3 1)
      rawLength := raw
      storedLength := stored
      sequence := leWord ((b.drop 8).take 4)
      rawCheck := leWord ((b.drop 12).take 4) }

/-! ## Catalog records (R91, R169) -/

/-- States of a catalog record. -/
inductive RecordState where
  | packed | onTape | verified | verifyFailed | missing | discarded
  deriving DecidableEq, Repr

def RecordState.value : RecordState → Nat
  | .packed => 1 | .onTape => 2 | .verified => 3 | .verifyFailed => 4 | .missing => 5 | .discarded => 6

/-- A catalog record's 32 bytes as appended, in state PACKED (R92). -/
def catalogRecordBytes (label : Option Label) (lane : LaneId) (h : SegmentHeader) (startGroup : Word)
    (startFrame startOffset spanned : Nat) : List Byte :=
  labelBytes label ++ byte1 h.tag.toNat ++ byte1 lane.val ++ byte1 h.mode.value ++ byte1 RecordState.packed.value
    ++ word h.sequence ++ word startGroup ++ byte1 startFrame ++ byte1 spanned ++ half startOffset ++ half h.rawLength
    ++ half h.storedLength ++ word h.rawCheck

/-! ## Restore descriptors (R129, R169) -/

/-- Status of a restore descriptor. -/
inductive RestoreStatus where
  | good | faulted | missing
  deriving DecidableEq, Repr

def RestoreStatus.value : RestoreStatus → Nat
  | .good => 1 | .faulted => 2 | .missing => 3

def descriptorBytes (sequence count : Nat) (rawLength : Nat) (status : RestoreStatus) : List Byte :=
  padded 16 (leBytes 4 sequence ++ leBytes 4 count ++ half rawLength ++ byte1 status.value)

end Sys2Proof.Machine
end

