-- ==== Sys2Proof/Machine/Image.lean ====
section
/-! DEFINITION. The status image: its records as bytes at their places (R29, R170), the stale mark, a refresh, and the frame
that every command runs in. Where R170 does not place the words inside a record, the layout here is the model's:
notes/assumptions/13.md. -/

namespace Sys2Proof.Machine

open Sys2Proof

/-! ## Words and fields -/

/-- A field of a record: whether it is present, and its words. -/
structure Shown where
  present : Bool
  words : List Nat

/-- A field that is always present. -/
def shown (ws : List Nat) : Shown := { present := true, words := ws }

/-- A field that may be absent, shown as 0 then. -/
def shownIf (present : Bool) (ws : List Nat) : Shown :=
  { present := present, words := if present then ws else ws.map fun _ => 0 }

/-- The presence word: bit i is 1 when field i is present. -/
def presenceWord : List Shown → Nat
  | [] => 0
  | f :: fs => (if f.present then 1 else 0) + 2 * presenceWord fs

/-- A record: its presence word and its fields' words, four bytes each (R170). -/
def recordBytes (fs : List Shown) : List Byte :=
  leBytes 4 (presenceWord fs) ++ (fs.flatMap fun f => f.words).flatMap fun w => leBytes 4 w

/-- A list as its count and its entries, filled with 0 to its full capacity (R170). -/
def listWords (capacity width : Nat) (entries : List (List Nat)) : List Nat :=
  entries.length :: (entries.take capacity).flatten ++ List.replicate (width * (capacity - entries.length)) 0

def bit (b : Bool) : Nat := if b then 1 else 0

/-- A label's two words, its eight characters in order. -/
def labelWords (l : Label) : List Nat := [leNat (l.toList.take 4), leNat (l.toList.drop 4)]

/-- A 64-bit value as two words, the less significant first. -/
def longWords (n : Nat) : List Nat := [n % 4294967296, n / 4294967296]

/-- A signed station as a word. -/
def stationWord (i : Int) : Nat := (BitVec.ofInt 32 i).toNat

/-! ## Enumerated values: position from 1 in the list that names them (R170) -/

def holdShown (held : Bool) : Nat := if held then 2 else 1

def BufferState.shown : BufferState → Nat
  | .free => 1 | .filling => 2 | .closed => 3 | .compressing => 4 | .ready => 5 | .packing => 6

def Role.shown : Role → Nat
  | .idle => 1 | .write => 2 | .read => 3

def SlotState.shown : SlotState → List Nat
  | .free => [1, 0]
  | .opened g => [2, g.toNat]
  | .ready g => [3, g.toNat]
  | .drained g => [4, g.toNat]

def JobState.shown : JobState → Nat
  | .free => 1 | .active => 2 | .flushing => 3 | .draining => 4 | .ending => 5

def JobOutcome.shown : JobOutcome → Nat
  | .complete => 1 | .aborted => 2 | .cartridgeFull => 3 | .laneReset => 4

def Phase.shown : Phase → Nat
  | .unbound => 1 | .taking => 2 | .stopped => 3

def Sync.shown : Sync → Nat
  | .search => 1 | .confirm1 _ => 2 | .confirm2 _ => 3 | .locked => 4

def Assembler.shown : Assembler → Nat
  | .waitStart => 1 | .atHeader => 2 | .atNext => 3 | .collect _ => 4 | .hold _ => 5

def Condition.shown : Condition → Nat
  | .unset => 1 | .blank => 2 | .written => 3 | .suspect => 4

def Scope.shown : Scope → Nat
  | .a => 1 | .b => 2 | .mail => 3 | .drives => 4

def OrderKind.shown : OrderKind → Nat
  | .move => 1 | .mount => 2 | .dismount => 3 | .inventory => 4 | .pickerPut => 5

/-- The state of the active step.
DESIGN CHOICE: R148 names no list of its values; notes/assumptions/13.md. -/
def StepPart.shown : StepPart → Nat
  | .retractFirst => 1 | .moving => 2 | .jawOpening => 3 | .extending => 4 | .jawClosing => 5 | .retracting => 6
  | .reading => 7 | .labelHanded => 8

def DecodeFault.shown : DecodeFault → Nat
  | .shortInput => 1 | .distance => 2 | .overlong => 3 | .excessInput => 4

/-- A result of a faulted decode: DECODE_FAULT with its reason, or CHECK_FAULT. -/
def DecodeResult.shown : DecodeResult → List Nat
  | .good => [0, 0]
  | .decodeFault r => [1, r.shown]
  | .checkFault => [2, 0]

/-! ## The records -/

/-- The counts record, word by word (R170). -/
def countsRecords (s : State) : List (Nat × List Byte) :=
  [(0x9004, word s.re.consumer), (0x9008, word s.re.producer), (0x900C, word s.sc.producer), (0x9010, word s.sc.consumer),
   (0x9014, (listWords 4 1 (s.sc.waitList.map fun n => [n.val])).flatMap fun w => leBytes 4 w),
   (0x9028, word s.re.takenConsumer), (0x902C, word s.re.takenProducer)]
    ++ (List.finRange 8).map (fun k => (0x9040 + 4 * k.val, word s.de.slots[k].producer))
    ++ (List.finRange 8).map (fun k => (0x9060 + 4 * k.val, word s.de.slots[k].consumer))

def partRecord (s : State) : List Shown :=
  [shown [s.re.resetCause.value], shown [s.driveCount], shown [s.wd.refusedCount.toNat], shown [s.wd.lastRefused.toNat]]

/-- The window table (R5, R17); the windows of lanes numbered N and above are absent.
DESIGN CHOICE: while the set flag is clear the entries are absent too; notes/assumptions/13.md. -/
def tableRecord (s : State) : List Shown :=
  let l := s.wd.layout.getD {}
  let set := s.wd.layout.isSome
  [shown [bit set], shownIf set [l.memorySize / 1048576]]
    ++ (List.finRange 4).map (fun i => shownIf set [l.apertures[i].base, l.apertures[i].size])
    ++ (List.finRange 4).map (fun n => shownIf (set && decide (n.val < s.driveCount)) [l.pools[n].base, l.pools[n].slots])
    ++ (List.finRange 4).map (fun n => shownIf (set && decide (n.val < s.driveCount)) [l.rings[n].base, l.rings[n].size])
    ++ [shownIf set [l.catalog.base, l.catalog.size], shownIf set [l.restore.base, l.restore.size]]

/-- An aperture record (R17). DESIGN CHOICE: the return-ring apertures of lanes numbered N and above are shown too, with their
initial values; notes/assumptions/13.md. -/
def apertureRecord (a : Aperture) : List Shown :=
  [shown [a.expected.toNat], shown [a.limit.toNat], shown [holdShown a.held]]

/-- A stream record (R44). -/
def streamRecord (s : State) (i : StreamId) : List Shown :=
  let st := s.streams[i]
  let buffer (b : Buffer) : List Shown :=
    [shown [b.state.shown], shownIf (decide (b.state = .filling)) [b.data.length],
     match b.entry with
     | none => shownIf false [0]
     | some e => shown [e.sequence.toNat]]
  [shown [s.streamShown i], match st.slot with | none => shownIf false [0] | some k => shown [k.val]]
    ++ buffer st.buffers[0] ++ buffer st.buffers[1]

/-- The Lane Unit's fields (R67).
DESIGN CHOICE: the slot states are shown as an ordered list, a count before 64 places, and a time or age above 2^32 - 1
microseconds is shown modulo 2^32.
DESIGN CHOICE: the record of a lane numbered N or above shows its fields present, with their initial values.
Both are in notes/assumptions/13.md. -/
def laneFields (s : State) (n : LaneId) : List Shown :=
  let l := s.lanes[n]
  let c := l.counters
  [shown [l.role.shown], shown [if l.full then 1 else 2], shown [l.nextGroup.toNat],
   shown (listWords 64 2 (l.slots.map SlotState.shown)), shown [l.nextSlot],
   match l.position with
   | none => shownIf false [0, 0, 0]
   | some p => shown [p.slot, p.frame, p.offset],
   match l.openedAt with
   | none => shownIf false [0]
   | some t => shown [s.timebase - t],
   shown [match l.closePending with | none => 1 | some (.starve, _) => 2 | some _ => 3],
   match l.lastRelease with
   | none => shownIf false [0]
   | some t => shown [t],
   match l.interval with
   | none => shownIf false [0]
   | some i => shown [i],
   shown (listWords 64 1 (l.heldReads.map fun k => [k])),
   shown [c.padBytes.toNat, c.misordered.toNat, c.closedFull.toNat, c.closedStarve.toNat, c.closedAge.toNat,
     c.closedFlush.toNat, c.closedLimit.toNat]]

/-- The segment an assembler holds: the fields of its header in the order of R63, its start group, frame and offset and its
header position (R113), the bytes still to gather, and its piece list of up to six entries (R114).
The order of the words is a DESIGN CHOICE; notes/assumptions/13.md. -/
def assemblyWords (a : Assembly) : List Nat :=
  [a.header.mode.value, a.header.tag.toNat, a.header.rawLength, a.header.storedLength, a.header.sequence.toNat,
   a.header.rawCheck.toNat, a.frame.group.toNat, a.frame.index.val, a.offset, a.position.toNat, a.remaining]
    ++ listWords 6 2 (a.pieces.map fun p => [p.position.toNat, p.length])

/-- The Return Framer's fields (07 section 7.1).
DESIGN CHOICE: a pending OVERRUN is shown as its reason, E, A and offset, and the fields of a lane numbered N or above are
present with their initial values; notes/assumptions/13.md. -/
def framerFields (s : State) (n : LaneId) : List Shown :=
  let f := s.framers[n]
  let a := s.wd.ringAperture[n]
  [shown [a.expected.toNat], shown [f.scan.toNat], shown [f.consumed.toNat], shown [a.limit.toNat], shown [f.phase.shown],
   shown [f.sync.shown],
   match f.expected with
   | none => shownIf false [0, 0]
   | some x => shown [x.group.toNat, x.index.val],
   shown [f.missCount],
   match f.firstMissed with
   | none => shownIf false [0]
   | some q => shown [q.toNat],
   match f.groupInHand with
   | none => shownIf false [0, 0, 0]
   | some g => shown [g.group.toNat, if g.accumulating then 1 else 2, g.check.toNat],
   match f.lastSettled with
   | none => shownIf false [0]
   | some g => shown [g.toNat],
   shown [f.failures],
   shown (f.assembler.shown :: match f.assembler with
     | .collect a => assemblyWords a
     | .hold a => assemblyWords a
     | _ => List.replicate 24 0),
   match f.pendingOverrun with
   | some (.overrun _ _ r e l o) => shown [r.value, e.toNat, l.toNat, o.toNat]
   | _ => shownIf false [0, 0, 0, 0],
   shown [f.locksLost.toNat, f.groupsChecked.toNat, f.groupsUnchecked.toNat, f.segmentFaults.toNat]]

/-- The sequence the decode in flight for a RESTORE job still needs room for makes its phase WAITING_ROOM (R135): a GOOD
segment needs its padded bytes and a descriptor, any other entry a descriptor. -/
def Decode.entrySize (d : Decode) (expected : Nat) : Nat :=
  if expected < d.entry.header.sequence.toNat then 16
  else match d.result with
    | some .good => 16 + (d.entry.header.rawLength + 15) / 16 * 16
    | _ => 16

/-- The phase that a decode in flight shows (R135): 1 EXPANDING, 2 SETTLING, 3 WAITING_ROOM. -/
def State.decodePhase (s : State) (d : Decode) : Nat :=
  if d.result.isNone then 1
  else if d.entry.kind = .restore
      ∧ s.restoreRoom d.entry.slot < d.entrySize s.de.slots[d.entry.slot].expected then 3
  else 2

/-- The reason of a decode in flight that has ended in DECODE_FAULT (R123), 0 for any other. -/
def Decode.reasonShown (d : Decode) : Nat :=
  match d.result with
  | some (.decodeFault r) => r.shown
  | _ => 0

/-- The Decode Engine's record (R135).
DESIGN CHOICE: the reason that R123 shows for the decode in flight follows its discard mark, and the expected sequence of a job
slot, which R170 names beside the items of R135, is shown once, after the slot's two counts; notes/assumptions/13.md. -/
def decodeRecord (s : State) : List Shown :=
  [shown (listWords 8 3 (s.de.queue.map fun e => [e.lane.val, e.slot.val, e.header.sequence.toNat])),
   shown (listWords 4 1 (s.de.holding.map fun n => [n.val])),
   shown (listWords 8 1 (s.de.due.map fun k => [k.val])),
   match s.de.operation with
   | none => shownIf false [0, 0, 0, 0, 0, 0, 0]
   | some (.decode d) =>
     shown [1, d.entry.lane.val, d.entry.slot.val, d.entry.header.sequence.toNat, s.decodePhase d, bit d.discard,
       d.reasonShown]
   | some (.evaluation k) => shown [2, 0, k.val, 0, 0, 0, 0]]
    ++ (List.finRange 8).map (fun k =>
      shown ([s.de.slots[k].producer.toNat, s.de.slots[k].consumer.toNat] ++ longWords s.de.slots[k].expected))
    ++ (List.finRange 8).map (fun k =>
      match s.de.slots[k].lastFault with
      | none => shownIf false [0, 0, 0]
      | some (r, q) => shown (r.shown ++ [q.toNat]))

/-- A job slot and its record (R33, R34); fields a kind does not use are absent.
DESIGN CHOICE: a cleared record has no field present, its state among them; the counter `missing`, which R34 lists twice, has
one word, before `faulted`; and each value that a row of R33 lists (first and last group; source tag, first and last chunk; ring
base and size; each counter of R34) has a presence bit of its own; notes/assumptions/13.md. -/
def jobRecordShown (j : JobSlot) : List Shown :=
  let r := j.record
  let c := r.counters
  let used := decide (r.tag ≠ 0)
  let w := used && decide (r.kind = .write)
  let v := used && decide (r.kind = .verify)
  let t := used && decide (r.kind = .restore)
  [shown [if j.live then 2 else 1], shownIf used [r.tag.toNat], shownIf used [r.kind.value],
   shownIf used [r.state.shown], shownIf used [r.lane.val], shownIf used [r.cart.val], shownIf w [r.stream.val],
   shownIf w [r.firstSeq.toNat], shownIf w [r.nextSeq.toNat], shownIf (w && r.lastEnd.isSome) [(r.lastEnd.getD 0).toNat],
   shownIf w [r.pendingOutcome.shown], shownIf v [r.firstGroup.toNat], shownIf v [r.lastGroup.toNat],
   shownIf t [r.sourceTag.toNat], shownIf t [r.firstChunk.toNat], shownIf t [r.lastChunk.toNat], shownIf t [r.ringBase.toNat],
   shownIf t [r.ringSize.toNat], shownIf (w || t) (longWords c.rawBytes.toNat), shownIf w (longWords c.storedBytes.toNat),
   shownIf used [c.segments.toNat], shownIf w [c.plainSegments.toNat], shownIf (v || t) [c.groupCheckFailures.toNat],
   shownIf (v || t) [c.framesMissed.toNat], shownIf (v || t) [c.slips.toNat], shownIf v [c.verified.toNat],
   shownIf v [c.failed.toNat], shownIf v [c.uncatalogued.toNat], shownIf (v || t) [c.missing.toNat],
   shownIf (v || t) [c.faulted.toNat]]

/-- A place in one word: state, record index, pending tag (R170). -/
def placeWord (p : PlaceRecord) : Nat :=
  (match p.state with
    | .empty => 1
    | .occupied c => 2 + 256 * c.val
    | .unknown => 3) + 65536 * (match p.pending with | none => 0 | some t => t.toNat)

/-- A door in one word: level (OPEN 1, CLOSED 2) and latch. -/
def doorWord (d : DoorState) : Nat := (if d.isOpen then 1 else 2) + 256 * bit d.latch

/-- A directory record (R137).
DESIGN CHOICE: `in use` is shown as a flag, 1 or 0; notes/assumptions/13.md. -/
def cartRecordShown : Option CartRecord → List Shown
  | none => [shown [0], shownIf false [0, 0], shownIf false [0], shownIf false [0], shownIf false [0], shownIf false [0],
      shownIf false [0], shownIf false [0]]
  | some r =>
    [shown [1], match r.label with | none => shownIf false [0, 0] | some l => shown (labelWords l), shown [r.place.val],
     match r.origin with | none => shownIf false [0] | some p => shown [p.val],
     shown [r.written.toNat], shown [r.verified.toNat], shown [r.limit.toNat], shown [r.condition.shown]]

/-- A running timer's remaining time.
DESIGN CHOICE: in microseconds; notes/assumptions/13.md. -/
def State.timerShown (s : State) : Option Timer → Shown
  | none => shownIf false [0]
  | some t => shown [t.started + t.length - s.timebase]

/-- The loader state (10, state table; R148).
DESIGN CHOICE: space for 9 bytes received, the line levels one field of 14 words, the rail direction 1 toward home, and a
presence bit for each of the three timers, which share one row of the table; notes/assumptions/13.md. -/
def loaderRecord (s : State) : List Shown :=
  let l := s.lc
  [shown [l.state.value], match l.station with | none => shownIf false [0] | some i => shown [stationWord i],
   shown [l.queue.length],
   match l.step with
   | none => shownIf false [0, 0, 0]
   | some x => shown [x.kind.value, stationWord x.station, x.part.shown],
   s.timerShown l.markTimer, s.timerShown l.stepTimer, s.timerShown l.retryTimer,
   shown ((if l.exchanging then 2 else 1) :: l.attempt :: listWords 9 1 (l.received.map fun b => [b.toNat])),
   shown [l.travelCount],
   shown [bit l.lines.stationMark, bit l.lines.home, bit l.lines.extended, bit l.lines.retracted, bit l.lines.gripped,
     bit l.lines.jawOpen, bit l.lines.cartridgePresent, bit l.lines.slotPresence, bit l.outputs.motorRun,
     bit l.outputs.towardHome, bit l.outputs.gripperExtend, bit l.outputs.gripperRetract, bit l.outputs.jawClose,
     bit l.outputs.jawOpen]]

/-- An order record (R150); a position beyond the queue is 0. -/
def orderRecord (s : State) (o : Option Order) : List Byte :=
  match o with
  | none => zeroBytes 44
  | some o =>
    recordBytes
      [shown [o.tag.toNat], shown [o.kind.shown], match o.source with | none => shownIf false [0] | some p => shown [p.val],
       match o.target with | none => shownIf false [0] | some p => shown [p.val],
       match o.scope with | none => shownIf false [0] | some c => shown [c.shown],
       match o.label with | none => shownIf false [0, 0] | some l => shown (labelWords l),
       shown [if o.active then 2 else 1],
       match o.active, s.lc.step with
       | true, some x => shown [x.kind.value, stationWord x.station]
       | _, _ => shownIf false [0, 0]]

/-- The settings record: one presence word, then four words for each lane and for the loader.
DESIGN CHOICE: the four settings of a lane, or of the loader, are one field of the presence word; notes/assumptions/13.md. -/
def settingsRecord (s : State) : List Shown :=
  (List.finRange 4).map (fun n =>
    shown [s.re.laneSettings[n].retainDepth, s.re.laneSettings[n].streamingLimit, s.re.laneSettings[n].ageLimit,
      s.re.laneSettings[n].lossThreshold])
    ++ [shown [s.re.loaderSettings.cruiseDuty, s.re.loaderSettings.creepDuty, s.re.loaderSettings.markTimeout,
      s.re.loaderSettings.stepTimeout]]

/-- Every record of the status image with its address, the refresh count left out (R170).
The order of words in a record is partly a DESIGN CHOICE; notes/assumptions/13.md. -/
def imageRecords (s : State) : List (Nat × List Byte) :=
  countsRecords s
    ++ [(0x9100, recordBytes (partRecord s)), (0x9140, recordBytes (tableRecord s))]
    ++ (List.finRange 4).map (fun i => (0x9200 + 16 * i.val, recordBytes (apertureRecord s.wd.streamAperture[i])))
    ++ (List.finRange 4).map (fun n => (0x9240 + 16 * n.val, recordBytes (apertureRecord s.wd.ringAperture[n])))
    ++ (List.finRange 4).map (fun i => (0x9280 + 64 * i.val, recordBytes (streamRecord s i)))
    ++ (List.finRange 4).map (fun n => (0x9400 + 0x600 * n.val, recordBytes (laneFields s n ++ framerFields s n)))
    ++ [(0xAC00, recordBytes (decodeRecord s))]
    ++ (List.finRange 8).map (fun k => (0xB000 + 256 * k.val, recordBytes (jobRecordShown s.jt.jobs[k])))
    ++ [(0xB800, recordBytes ((List.finRange 30).map fun p => shown [placeWord s.cd.places[p]])),
        (0xB8F0, recordBytes [shown [doorWord s.cd.doorA], shown [doorWord s.cd.doorB], shown [doorWord s.cd.doorMail]])]
    ++ (List.finRange 32).map (fun c => (0xB900 + 64 * c.val, recordBytes (cartRecordShown s.cd.records[c])))
    ++ [(0xC100, recordBytes (loaderRecord s))]
    ++ (List.finRange 16).map (fun i => (0xC200 + 64 * i.val, orderRecord s s.lc.queue[i.val]?))
    ++ [(0xC600, recordBytes (settingsRecord s))]

/-! ## Refreshes (R29, R30, R31) -/

/-- The next odd refresh count: from an even count the next, from an odd one (a refresh abandoned) the one after (R31). -/
def oddAfter (c : Word) : Word := if c.getLsbD 0 then c + 2 else c + 1

/-- Write the records one after another. -/
def writeRecords (m : List Host.Cell) (rs : List (Nat × List Byte)) : List Host.Cell :=
  rs.foldl (fun m r => memWrite m r.1 r.2) m

/-- A refresh: the odd count, the records, the even count; the image then shows the report producer count (R29). A record
whose value has not changed is written with the bytes it has (notes/assumptions/7.md).
DESIGN CHOICE: one step writes every record; notes/assumptions/7.md. -/
def refresh (s : State) : State :=
  let odd := oddAfter s.re.refreshCount
  let m := memWrite s.mem 0x9000 (word odd)
  let m := writeRecords m (imageRecords s)
  { s with
    mem := memWrite m 0x9000 (word (odd + 1))
    re := { s.re with refreshCount := odd + 1, shownProducer := s.re.producer, stale := false } }

/-- The whole refresh after a power-on reset or PART_RESET: the unassigned bytes are written 0 too (R170). -/
def wholeRefresh (s : State) : State := refresh (s.store 0x9004 (zeroBytes 0x6FFC))

/-! ## The frame of every command -/

/-- Any change of a value that the status image shows marks it stale (R29). -/
def markStale (before after : State) : State :=
  { after with re.stale := after.re.stale || decide (imageRecords after ≠ imageRecords before) }

/-- A command of a part that is not held in reset: its effect, then the stale mark. While RESET_N is asserted the part takes
no transaction and its blocks stand still (R1, R25). -/
def runStep (s : State) (effect : State → State) : Host.Outcome State Fault Refusal :=
  if s.resetAsserted then .next s else .next (markStale s (effect s))

end Sys2Proof.Machine
end

