-- ==== Sys2Proof/Machine/Encoding.lean ====
section
/-! DEFINITION. The encoding of a chunk and its expansion as functions of bytes alone (04 sections 4.2 to 4.4, 08 section
8.2). -/

namespace Sys2Proof.Machine

open Sys2Proof

/-! ## The head table (R57) -/

/-- The head table: its non-empty entries. -/
abbrev HeadTable := List (Nat × Nat)

/-- The hash at a position (R57). -/
def hashAt (chunk : Array Byte) (q : Nat) : Nat :=
  (16 * (chunk.getD q 0).toNat + 4 * (chunk.getD (q + 1) 0).toNat + (chunk.getD (q + 2) 0).toNat) % 4096

/-- The position an entry holds, none while it is empty. -/
def headLookup (t : HeadTable) (h : Nat) : Option Nat := (t.find? fun e => decide (e.1 = h)).map fun e => e.2

/-- The table with an entry set. -/
def headSet (t : HeadTable) (h p : Nat) : HeadTable := (h, p) :: t.filter fun e => decide (e.1 ≠ h)

/-! ## Encoding (R58, R59) -/

/-- A token: a literal, or a match with its distance and length. -/
inductive Token where
  | literal (byte : Byte)
  | copy (distance length : Nat)
  deriving DecidableEq, Repr

/-- How many bytes at `c` equal those at `p`, up to a limit (R58 step 3). -/
def matchLength (chunk : Array Byte) (c p : Nat) : Nat → Nat
  | 0 => 0
  | n + 1 => if chunk.getD c 0 = chunk.getD p 0 then 1 + matchLength chunk (c + 1) (p + 1) n else 0

/-- The updates inside a match of length `l` at `p`, in increasing order (R59). -/
def updateInside (chunk : Array Byte) (p l : Nat) (t : HeadTable) : HeadTable :=
  (List.range (l - 1)).foldl
    (fun t i => if chunk.size - (p + 1 + i) < 3 then t else headSet t (hashAt chunk (p + 1 + i)) (p + 1 + i)) t

/-- The tokens from position `p` on and the head table at the end (R58). The first argument bounds the number of tokens. -/
def encodeFrom (chunk : Array Byte) : Nat → Nat → HeadTable → List Token × HeadTable
  | 0, _, t => ([], t)
  | n + 1, p, t =>
    if chunk.size ≤ p then ([], t)
    else if chunk.size - p < 3 then
      let r := encodeFrom chunk n (p + 1) t
      (.literal (chunk.getD p 0) :: r.1, r.2)
    else
      let h := hashAt chunk p
      let l := match headLookup t h with
        | none => 0
        | some c => if 4096 < p - c then 0 else matchLength chunk c p (min 18 (chunk.size - p))
      let d := p - (headLookup t h).getD 0
      let t := headSet t h p
      if 3 ≤ l then
        let r := encodeFrom chunk n (p + l) (updateInside chunk p l t)
        (.copy d l :: r.1, r.2)
      else
        let r := encodeFrom chunk n (p + 1) t
        (.literal (chunk.getD p 0) :: r.1, r.2)

/-- The tokens of a chunk and the head table its encoding leaves; the table starts empty (R53). -/
def encodeChunk (data : List Byte) : List Token × HeadTable := encodeFrom data.toArray data.length 0 []

/-! ## The token stream (R60) -/

def tokenBytes : Token → List Byte
  | .literal b => [b]
  | .copy d l => [BitVec.ofNat 8 ((d - 1) % 256), BitVec.ofNat 8 (16 * ((d - 1) / 256) + (l - 3))]

/-- The flag byte's value for the tokens of a group, counted from its first. -/
def flagValue : List Token → Nat
  | [] => 0
  | .literal _ :: ts => 2 * flagValue ts
  | .copy _ _ :: ts => 1 + 2 * flagValue ts

/-- The bytes of tokens, a flag byte before each group of eight; the first argument bounds the number of groups. -/
def tokenGroups : Nat → List Token → List Byte
  | 0, _ => []
  | _, [] => []
  | n + 1, ts => BitVec.ofNat 8 (flagValue (ts.take 8)) :: (ts.take 8).flatMap tokenBytes ++ tokenGroups n (ts.drop 8)

/-- The token stream of a chunk (R60). -/
def tokenStream (ts : List Token) : List Byte := tokenGroups ts.length ts

/-- The stored bytes and mode after the expansion guard (R62). -/
def guardExpansion (data packed : List Byte) : Mode × List Byte :=
  if packed.length < data.length then (.packed, packed) else (.plain, data)

/-! ## Expansion (R121, R122) -/

/-- What an expansion of a PACKED segment leaves: the output so far and the fault that stopped it, if any. -/
structure Expansion where
  output : Array Byte
  fault : Option DecodeFault
  deriving DecidableEq, Repr

/-- The bytes of a match copied one at a time from the output already produced (R121 step 4). -/
def copyMatch (distance : Nat) : Nat → Array Byte → Array Byte
  | 0, out => out
  | n + 1, out => copyMatch distance n (out.push (out.getD (out.size - distance) 0))

/-- Expand tokens until the output holds `raw` bytes or a test of R122 fails. `tokens` counts the flag bits left of the group
under way (0 where a group begins) and `flags` holds them, the next token's lowest. The first argument bounds the number of
flag bytes and tokens. -/
def expandFrom (raw : Nat) : Nat → Nat → Nat → List Byte → Array Byte → Expansion
  | 0, _, _, _, out => { output := out, fault := some .shortInput }
  | n + 1, tokens, flags, input, out =>
    if raw ≤ out.size then
      { output := out, fault := if input.isEmpty then none else some .excessInput }
    else if tokens = 0 then
      match input with
      | [] => { output := out, fault := some .shortInput }
      | f :: input => expandFrom raw n 8 f.toNat input out
    else if flags % 2 = 0 then
      match input with
      | [] => { output := out, fault := some .shortInput }
      | b :: input => expandFrom raw n (tokens - 1) (flags / 2) input (out.push b)
    else
      match input with
      | u :: w :: input =>
        let distance := u.toNat + 256 * (w.toNat / 16) + 1
        let length := w.toNat % 16 + 3
        if out.size < distance then { output := out, fault := some .distance }
        else if raw < out.size + length then { output := out, fault := some .overlong }
        else expandFrom raw n (tokens - 1) (flags / 2) input (copyMatch distance length out)
      | _ => { output := out, fault := some .shortInput }

/-- The expansion of a segment's stored bytes: a copy for PLAIN, token by token for PACKED (R121). Every flag byte and token
takes an input byte, so the input's length bounds their number. -/
def expandSegment (mode : Mode) (raw : Nat) (input : List Byte) : Expansion :=
  match mode with
  | .plain => { output := input.toArray, fault := none }
  | .packed => expandFrom raw (input.length + 1) 0 0 input #[]

end Sys2Proof.Machine
end

