-- ==== Sys2Proof/Machine/Ingest.lean ====
section
/-! DEFINITION. The Ingest Streams' buffers and accept limits (03 sections 3.4, 3.5, R43 to R45), and how the chunks of a
stream are given up (R41, R48, R49). -/

namespace Sys2Proof.Machine

open Sys2Proof

/-- The stream recomputes its accept limit (R44). -/
def recomputeLimit (i : StreamId) (s : State) : State :=
  s.setStreamAperture i { s.wd.streamAperture[i] with limit := s.streamLimit i }

/-- The buffer of the stream that takes the next byte, and whether it opens with it: the FILLING one, else the
lowest-numbered FREE one (R43). -/
def Stream.target (st : Stream) : Option (Fin 2 × Bool) :=
  if st.buffers[0].state = .filling then some (0, false)
  else if st.buffers[1].state = .filling then some (1, false)
  else if st.buffers[0].state = .free then some (0, true)
  else if st.buffers[1].state = .free then some (1, true)
  else none

/-- The FILLING buffer of a stream. -/
def Stream.filling (st : Stream) : Option (Fin 2) :=
  if st.buffers[0].state = .filling then some 0
  else if st.buffers[1].state = .filling then some 1
  else none

/-- The stream becomes CLOSING; its accept limit becomes E, the hold condition is left (R39). -/
def streamClosing (i : StreamId) (s : State) : State :=
  recomputeLimit i (s.modStream i fun st => { st with phase := .closing })

/-- A chunk closes: it takes the job's next chunk sequence and its raw check and joins the compression queue (R43, R52). A
chunk that takes the sequence 0xFFFF_FFFF makes the stream CLOSING and an ACTIVE job FLUSHING.
DESIGN CHOICE: at once, even while the Job Table waits on a post; notes/assumptions/31.md. -/
def closeChunk (i : StreamId) (b : Fin 2) (s : State) : State :=
  match s.streams[i].slot with
  | none => s
  | some k =>
    let r := s.jt.jobs[k].record
    let buffer := s.streams[i].buffers[b]
    let entry : ChunkEntry :=
      { stream := i, buffer := b, slot := k, tag := r.tag, lane := r.lane, sequence := r.nextSeq
        rawLength := buffer.data.length, rawCheck := ~~~ buffer.check, order := s.ce.nextOrder }
    let s := s.modBuffer i b fun x => { x with state := .closed, entry := some entry }
    let s := { s with ce := { s.ce with queue := s.ce.queue ++ [entry], nextOrder := s.ce.nextOrder + 1 } }
    if r.nextSeq = 0xFFFFFFFF then
      streamClosing i (s.modJob k fun r =>
        { r with closedFinal := true, state := if r.state = .active then .flushing else r.state })
    else s.modJob k fun r => { r with nextSeq := r.nextSeq + 1 }

/-- Bytes are appended to the chunk of a buffer and taken into its running raw check (R43). -/
def fillBuffer (i : StreamId) (b : Fin 2) (opens : Bool) (bs : List Byte) (s : State) : State :=
  s.modBuffer i b fun x =>
    if opens then { state := .filling, data := bs, check := crcUpdate crcStart bs }
    else { x with data := x.data ++ bs, check := crcUpdate x.check bs }

/-- Place bytes in offset order; a chunk closes at 16,384 bytes before the next byte is placed (R43). Answers the state and
the bytes that found no place, which the accept limit keeps empty unless the stream became CLOSING. The first argument bounds
the number of buffers a write fills.
DEDUCED; notes/assumptions/26.md. -/
def placeBytes (i : StreamId) : Nat → List Byte → State → State × List Byte
  | 0, bs, s => (s, bs)
  | n + 1, bs, s =>
    if bs.isEmpty || decide (s.streams[i].phase ≠ .opened) then (s, bs)
    else match s.streams[i].target with
      | none => (s, bs)
      | some (b, opens) =>
        let room := 16384 - (if opens then 0 else s.streams[i].buffers[b].data.length)
        let s' := fillBuffer i b opens (bs.take room) s
        if bs.length < room then (s', [])
        else placeBytes i n (bs.drop room) (closeChunk i b s')

/-- A buffer becomes FREE and holds nothing. -/
def freeBuffer (i : StreamId) (b : Fin 2) (s : State) : State := s.modBuffer i b fun _ => {}

/-- The entry names this buffer. -/
def ChunkEntry.names (e : ChunkEntry) (i : StreamId) (b : Fin 2) : Bool := decide (e.stream = i ∧ e.buffer = b)

/-- Give up what a buffer holds (R41, R48, R49): a CLOSED chunk leaves the queue, a COMPRESSING one is marked for discard, a
PACKING one is left to the packer unless a LANE_RESET stops it. -/
def giveUpBuffer (i : StreamId) (stopPacking : Bool) (s : State) (b : Fin 2) : State :=
  match s.streams[i].buffers[b].state with
  | .free => s
  | .filling => freeBuffer i b s
  | .ready => freeBuffer i b s
  | .closed => freeBuffer i b { s with ce.queue := s.ce.queue.filter fun e => !e.names i b }
  | .compressing =>
    { s with ce.inFlight := s.ce.inFlight.map fun c => if c.entry.names i b then { c with discard := true } else c }
  | .packing => if stopPacking then freeBuffer i b s else s

/-- Give up a stream's chunks. -/
def giveUpStream (i : StreamId) (stopPacking : Bool) (s : State) : State :=
  [0, 1].foldl (giveUpBuffer i stopPacking) s

/-- The COMPRESSING buffer's chunk has already been marked for discard. -/
def State.discarding (s : State) (i : StreamId) (b : Fin 2) : Bool :=
  match s.ce.inFlight with
  | some c => c.discard && c.entry.names i b
  | none => false

/-- The buffer keeps a FLUSHING job from DRAINING (R40): CLOSED, COMPRESSING a chunk not marked for discard, READY or
PACKING. -/
def State.bufferBusy (s : State) (i : StreamId) (b : Fin 2) : Bool :=
  match s.streams[i].buffers[b].state with
  | .closed | .ready | .packing => true
  | .compressing => !s.discarding i b
  | .free | .filling => false

/-- The sequences of the chunks that R48 gives up: CLOSED, READY, and COMPRESSING not yet marked for discard. -/
def State.givenUp (s : State) (i : StreamId) : List Word :=
  ([0, 1] : List (Fin 2)).filterMap fun b =>
    match s.streams[i].buffers[b].state, s.streams[i].buffers[b].entry with
    | .closed, some e => some e.sequence
    | .ready, some e => some e.sequence
    | .compressing, some e => if s.discarding i b then none else some e.sequence
    | _, _ => none

/-- The stream becomes FREE when its job's slot is freed; a buffer still COMPRESSING a discarded chunk stays so (R46).
No chunk outlives its job unmarked (R54): what the stream has taken since a LANE_RESET whose JOB_DONE waited is given up now.
DESIGN CHOICE: at this moment; notes/assumptions/30.md. -/
def freeStream (i : StreamId) (s : State) : State :=
  ((giveUpStream i false s).modStream i fun st => { st with phase := .free, slot := none }).setStreamAperture i {}

/-- A WRITE_START binds the stream: E = 0, ACCEPTING, the accept limit by R44 (R36).
DESIGN CHOICE: ACCEPTING even while an OVERRUN of the stream's earlier job still waits, with A = E, so that writes are dropped
until it has joined; notes/assumptions/44.md. -/
def bindStream (i : StreamId) (k : SlotId) (s : State) : State :=
  recomputeLimit i ((s.modStream i fun st => { st with phase := .opened, slot := some k }).setStreamAperture i {})

end Sys2Proof.Machine
end

