-- ==== Sys2Proof/Machine/Catalog.lean ====
section
/-! DEFINITION. The Segment Catalog (06): its records in memory, room and claims, settlements, sweeps and sightings, and the
command CATALOG_CONSUMER_TAKE. Every catalog operation is a whole inside the step that asks for it (R99,
notes/assumptions/7.md). -/

namespace Sys2Proof.Machine

open Sys2Proof

/-! ## Records (R89, R91, R169) -/

/-- The address of the record with a count (R89).
A ring size that is no power of two is taken literally, DEDUCED; notes/assumptions/23.md. -/
def recordAddress (l : Layout) (c : Word) : Nat := l.catalog.base + 32 * (c.toNat % (l.catalog.size / 32))

/-- The counts of the live records, in ring order from Cc to P (R89). -/
def Catalog.live (sc : Catalog) : List Word :=
  (List.range (ahead sc.producer sc.consumer)).map fun i => sc.consumer + BitVec.ofNat 32 i

/-- A record's fields that operations compare. -/
def recLabel (r : List Byte) : List Byte := r.take 8
def recLane (r : List Byte) : Nat := fieldNat r 9 1
def recState (r : List Byte) : Nat := fieldNat r 11 1
def recStartGroup (r : List Byte) : Word := leWord ((r.drop 16).take 4)
def recStartFrame (r : List Byte) : Nat := fieldNat r 20 1
def recSpanned (r : List Byte) : Nat := fieldNat r 21 1
def recStartOffset (r : List Byte) : Nat := fieldNat r 22 2
def recRawCheck (r : List Byte) : Word := leWord ((r.drop 28).take 4)

/-- The record's end group (R91). -/
def recEndGroup (r : List Byte) : Word := recStartGroup r + BitVec.ofNat 32 (recSpanned r) - 1

/-- Memory after a record's state byte has been written alone (R94). -/
def writeRecordState (m : List Host.Cell) (l : Layout) (c : Word) (st : RecordState) : List Host.Cell :=
  memWrite m (recordAddress l c + 11) [BitVec.ofNat 8 st.value]

/-- Go through records in order, setting the state of those a function names; answers memory and how many were set. -/
def sweepRecords (l : Layout) (f : List Byte → Option RecordState) : List Word → List Host.Cell → Nat → List Host.Cell × Nat
  | [], m, n => (m, n)
  | c :: cs, m, n =>
    match f (memBytes m (recordAddress l c) 32) with
    | none => sweepRecords l f cs m n
    | some st => sweepRecords l f cs (writeRecordState m l c st) (n + 1)

/-- An operation that reads every live record once (R95 to R97).
DESIGN CHOICE: the whole sweep is inside one step; notes/assumptions/7.md. -/
def catalogSweep (f : List Byte → Option RecordState) (s : State) : State × Nat :=
  match s.wd.layout with
  | none => (s, 0)
  | some l =>
    let r := sweepRecords l f s.sc.live s.mem 0
    ({ s with mem := r.1 }, r.2)

/-! ## Room, wait list and claims (R93) -/

/-- Admit lanes from the head of the wait list, one for each unit of room. -/
def offerRoom (s : State) : State :=
  { s with sc := { s.sc with
      claims := s.sc.claims ++ s.sc.waitList.take s.catalogRoom, waitList := s.sc.waitList.drop s.catalogRoom } }

/-- A lane's claim ends unused; the room is offered again. -/
def endClaim (n : LaneId) (s : State) : State :=
  if s.sc.claims.contains n then offerRoom { s with sc.claims := s.sc.claims.filter fun m => decide (m ≠ n) } else s

/-- A lane leaves the wait list and its claim ends unused: its role leaves WRITE, its FULL flag is set, or LANE_RESET (R93,
R96). -/
def leaveCatalog (n : LaneId) (s : State) : State :=
  endClaim n { s with sc.waitList := s.sc.waitList.filter fun m => decide (m ≠ n) }

/-- The append of R92: the whole record at the position of P, then P advances; a claim of the lane is used. -/
def catalogAppend (n : LaneId) (record : List Byte) (s : State) : State :=
  match s.wd.layout with
  | none => s
  | some l =>
    let s := s.store (recordAddress l s.sc.producer) record
    { s with sc := { s.sc with producer := s.sc.producer + 1, claims := s.sc.claims.filter fun m => decide (m ≠ n) } }

/-! ## Settlements and sweeps -/

/-- R95: the lane's PACKED records that end in the released group become ON_TAPE. -/
def settleLane (n : LaneId) (group : Word) (s : State) : State :=
  (catalogSweep (fun r =>
    if recLane r = n.val ∧ recState r = 1 ∧ recEndGroup r = group then some .onTape else none) s).1

/-- R96: the lane's PACKED records become DISCARDED, and the lane leaves the wait list and its claim. -/
def discardLane (n : LaneId) (s : State) : State :=
  leaveCatalog n (catalogSweep (fun r => if recLane r = n.val ∧ recState r = 1 then some .discarded else none) s).1

/-- A record lies on the cartridge with this label and begins in the range; an absent label matches none (R97). -/
def recordInRange (label : Option Label) (first last : Word) (r : List Byte) : Bool :=
  match label with
  | none => false
  | some x => decide (recLabel r = x.toList ∧ first.toNat ≤ (recStartGroup r).toNat ∧ (recStartGroup r).toNat ≤ last.toNat)

/-- The range reset (R97). -/
def rangeReset (label : Option Label) (first last : Word) (s : State) : State :=
  (catalogSweep (fun r =>
    if recordInRange label first last r && [2, 3, 4, 5].contains (recState r) then some .onTape else none) s).1

/-- The missing sweep (R97) with the number of records made MISSING. -/
def missingSweep (label : Option Label) (first last : Word) (s : State) : State × Nat :=
  catalogSweep (fun r =>
    if recordInRange label first last r && decide (recState r = 2) then some .missing else none) s

/-! ## Sightings (R98) -/

/-- Results of a sighting. -/
inductive SightingResult where
  | matchedGood | matchedBad | notFound
  deriving DecidableEq, Repr

/-- The record is the one a sighting looks for; DISCARDED records are passed over. -/
def sightingFinds (label : Option Label) (frame : FrameName) (offset : Nat) (r : List Byte) : Bool :=
  match label with
  | none => false
  | some x => decide (recLabel r = x.toList ∧ recStartGroup r = frame.group ∧ recStartFrame r = frame.index.val
      ∧ recStartOffset r = offset ∧ recState r ≠ 6)

/-- Look up a decoded segment's tape position and settle the first live record found (R98). -/
def catalogSighting (label : Option Label) (frame : FrameName) (offset : Nat) (good : Bool) (check : Word) (s : State) :
    State × SightingResult :=
  match s.wd.layout with
  | none => (s, .notFound)
  | some l =>
    match s.sc.live.find? fun c => sightingFinds label frame offset (memBytes s.mem (recordAddress l c) 32) with
    | none => (s, .notFound)
    | some c =>
      if good && decide (check = recRawCheck (memBytes s.mem (recordAddress l c) 32)) then
        ({ s with mem := writeRecordState s.mem l c .verified }, .matchedGood)
      else ({ s with mem := writeRecordState s.mem l c .verifyFailed }, .matchedBad)

/-! ## CATALOG_CONSUMER_TAKE (R90) -/

/-- The latch may be taken: it is pending and no catalog operation is in progress. -/
def State.catalogTakeReady (s : State) : Bool := s.wd.catalogConsumerLatch.pending && s.sc.operation.isNone

/-- Take the catalog consumer latch: judge its value, give records back and offer the room. -/
def catalogConsumerTake (s : State) : State :=
  if s.catalogTakeReady then
    let v := s.wd.catalogConsumerLatch.value
    let s := { s with wd.catalogConsumerLatch.pending := false }
    if ahead v s.sc.consumer ≤ ahead s.sc.producer s.sc.consumer then offerRoom { s with sc.consumer := v } else s
  else s

def execCatalogConsumerTake (s : State) : Host.Outcome State Fault Refusal := runStep s catalogConsumerTake

end Sys2Proof.Machine
end

