-- ==== Sys2Proof/Machine/LaneUnit.lean ====
section
/-! DEFINITION. The Lane Unit's slots, frames, closes and tests (05 sections 5.1 to 5.6) that need no other block but the
catalog: what the packer, the releases and the Job Table build on. -/

namespace Sys2Proof.Machine

open Sys2Proof

/-! ## Slots (R67, R69) -/

/-- The address of a slot of a lane's pool (R5); 0 while there is no layout. -/
def State.slotAddress (s : State) (n : LaneId) (k : Nat) : Nat :=
  match s.wd.layout with
  | none => 0
  | some l => l.pools[n].base + 32768 * k

/-- A lane's slots with one of them set. -/
def Lane.setSlot (l : Lane) (k : Nat) (x : SlotState) : Lane := { l with slots := l.slots.set k x }

/-- The slot at the next slot index is FREE. -/
def Lane.nextFree (l : Lane) : Bool := decide (l.slots[l.nextSlot]? = some .free)

/-- The group number of a slot, 0 for a FREE or absent one. -/
def Lane.slotGroup (l : Lane) (k : Nat) : Word :=
  match l.slots[k]? with
  | some (.opened g) | some (.ready g) | some (.drained g) => g
  | _ => 0

/-- Open the slot at the next slot index with group number g (R69, R74 step 4, R75). -/
def openSlot (n : LaneId) (s : State) : State :=
  s.modLane n fun l =>
    { l.setSlot l.nextSlot (.opened l.nextGroup) with
      nextGroup := l.nextGroup + 1
      nextSlot := (l.nextSlot + 1) % l.slots.length
      position := some { slot := l.nextSlot }
      openedAt := some s.timebase }

/-! ## Frames (R70, R75) -/

/-- Payload bytes at the packer position, taken into the group's running check.
That the bytes of a frame reach memory in one step is a DESIGN CHOICE; notes/assumptions/8.md. -/
def writePayload (n : LaneId) (bs : List Byte) (s : State) : State :=
  match s.lanes[n].position with
  | none => s
  | some p =>
    (s.store (s.slotAddress n p.slot + 4096 * p.frame + 20 + p.offset) bs).modLane n fun l =>
      { l with position := some { p with offset := p.offset + bs.length, check := crcUpdate p.check bs } }

/-- The current frame is complete: its header is written, and the position of a frame 0 to 6 moves to the next (R75). -/
def completeFrame (n : LaneId) (padClosed : Bool) (fill : Nat) (s : State) : State :=
  match s.lanes[n].position with
  | none => s
  | some p =>
    let check := if p.frame = 7 then ~~~ p.check else 0
    let header := frameHeader (s.lanes[n].slotGroup p.slot) check p.firstSegment p.frame padClosed fill
    let s := s.store (s.slotAddress n p.slot + 4096 * p.frame) header
    if p.frame < 7 then
      s.modLane n fun l => { l with position := some { p with frame := p.frame + 1, offset := 0, firstSegment := none } }
    else s

/-- Fill the rest of the current frame with filler and complete it. -/
def fillFrame (n : LaneId) (padClosed : Bool) (s : State) : State :=
  match s.lanes[n].position with
  | none => s
  | some p => completeFrame n padClosed (4076 - p.offset) (writePayload n (zeroBytes (4076 - p.offset)) s)

/-- Complete `k` frames with filler, from the current one on (R77). -/
def fillFrames (n : LaneId) : Nat → State → State
  | 0, s => s
  | k + 1, s => fillFrames n k (fillFrame n true s)

/-! ## Closing (R76, R77, R82) -/

/-- The counter of a close reason. -/
def LaneCounters.close (c : LaneCounters) : CloseReason → LaneCounters
  | .full => { c with closedFull := satInc c.closedFull }
  | .starve => { c with closedStarve := satInc c.closedStarve }
  | .age => { c with closedAge := satInc c.closedAge }
  | .flush => { c with closedFlush := satInc c.closedFlush }
  | .limit => { c with closedLimit := satInc c.closedLimit }

/-- The open slot becomes READY, a close pending for it is dropped (R81, R86) and GROUP_READY is posted (R76, R77, R82). -/
def closeGroup (n : LaneId) (reason : CloseReason) (s : State) : State :=
  match s.lanes[n].position with
  | none => s
  | some p =>
    let g := s.lanes[n].slotGroup p.slot
    let s := s.modLane n fun l =>
      { l.setSlot p.slot (.ready g) with
        position := none, openedAt := none, closePending := none, counters := l.counters.close reason }
    post (.laneUnit n) (.groupReady n reason (BitVec.ofNat 32 (s.slotAddress n p.slot)) g p.slot p.starts) s

/-- A pad-close of the open group (R77). -/
def padClose (n : LaneId) (reason : CloseReason) (s : State) : State :=
  match s.lanes[n].position with
  | none => s
  | some p =>
    let s := fillFrames n (8 - p.frame) s
    let s := s.modLane n fun l =>
      { l with counters := { l.counters with
        padBytes := satAdd l.counters.padBytes (4076 - p.offset + (7 - p.frame) * 4076) } }
    closeGroup n reason s

/-- A STARVE or AGE close: at once, or made pending while the packer is in the middle of a segment (R81). -/
def closeOrPend (n : LaneId) (reason : CloseReason) (s : State) : State :=
  match s.lanes[n].position with
  | none => s
  | some p =>
    if s.lanes[n].packing.isSome then
      s.modLane n fun l => { l with closePending := some (l.closePending.getD (reason, p.slot)) }
    else padClose n reason s

/-! ## Roles and tests (R68, R80) -/

/-- The lane becomes IDLE (R68). -/
def laneIdle (n : LaneId) (s : State) : State :=
  leaveCatalog n (s.modLane n fun l =>
    { l with role := .idle, full := false, closePending := none, lastRelease := none, interval := none })

/-- The IDLE test of a WRITE lane (R68). -/
def idleTest (n : LaneId) (s : State) : State :=
  if s.lanes[n].role = .write ∧ s.writeJobsOnLane n = [] ∧ s.lanes[n].openCount = 0 ∧ s.lanes[n].readyGroups = [] then
    laneIdle n s
  else s

/-- The FLUSH test (R80). -/
def flushTest (n : LaneId) (s : State) : State :=
  if (s.writeJobsOnLane n).all (fun k => decide (s.jt.jobs[k].record.state = .draining)) && s.lanes[n].packing.isNone then
    padClose n .flush s
  else s

/-- Take a signal of the Job Table. -/
def takeLaneSignal (n : LaneId) : LaneSignal → State → State
  | .flushTest, s => flushTest n s
  | .idleTest, s => idleTest n s

/-- The Job Table signals the Lane Unit, which holds the signal while it waits on a post (R82). -/
def laneSignal (n : LaneId) (x : LaneSignal) (s : State) : State :=
  if s.waiting (.laneUnit n) then s.modLane n fun l => { l with heldSignals := l.heldSignals ++ [x] }
  else takeLaneSignal n x s

/-! ## Retained groups (R84) -/

/-- The lowest of some group numbers. -/
def lowestGroup : List Word → Option Word
  | [] => none
  | g :: gs => some (gs.foldl (fun a b => if b.toNat < a.toNat then b else a) g)

/-- The DRAINED slots' group numbers. -/
def Lane.drainedGroups (l : Lane) : List Word :=
  l.slots.filterMap fun x => match x with | .drained g => some g | _ => none

/-- The oldest DRAINED slot becomes FREE. -/
def Lane.freeOldest (l : Lane) : Lane :=
  match lowestGroup l.drainedGroups with
  | none => l
  | some g => { l with slots := l.slots.map fun x => if x = .drained g then .free else x }

/-- Free the oldest DRAINED slots until no more than `keep` remain; the first argument bounds their number. -/
def Lane.retain (keep : Nat) : Nat → Lane → Lane
  | 0, l => l
  | n + 1, l => if l.drainedCount ≤ keep then l else Lane.retain keep n l.freeOldest

/-- Enforce the applied retain depth (R69, R84). -/
def enforceRetain (n : LaneId) (s : State) : State :=
  s.modLane n fun l =>
    Lane.retain (min s.re.laneSettings[n].retainDepth (l.slots.length - 1)) l.slots.length l

/-- The open age has reached the age limit (R79). -/
def State.ageExpired (s : State) (n : LaneId) : Bool :=
  match s.lanes[n].openedAt with
  | none => false
  | some t =>
    decide (s.re.laneSettings[n].ageLimit ≠ 0 ∧ s.re.laneSettings[n].ageLimit * 1000 ≤ s.timebase - t)

/-- The open slot's age expires: it is pad-closed AGE, or the close is made pending. While the Lane Unit waits on a post it
makes no close (R79, R81, R82). -/
def ageClose (n : LaneId) (s : State) : State :=
  if s.ageExpired n && !s.waiting (.laneUnit n) then closeOrPend n .age s else s

end Sys2Proof.Machine
end

