-- ==== Sys2Proof/Machine/FramerBase.lean ====
section
/-! DEFINITION. What other blocks do to a Return Framer: bind it, stop it, unbind it, and let it recompute its consumed mark
(07 sections 7.1, 7.7); and the Decode Engine's due list (R127). -/

namespace Sys2Proof.Machine

open Sys2Proof

/-- A lane's return ring (R5), of size 0 while there is no layout. -/
def State.returnRing (s : State) (n : LaneId) : Window :=
  match s.wd.layout with
  | none => {}
  | some l => l.rings[n]

/-! ## The consumed mark (R102) -/

/-- The retained position: the oldest the synchronizer may still read. -/
def Framer.retained (f : Framer) : Word :=
  if f.phase = .taking ∧ f.sync = .locked ∧ 0 < f.missCount then f.firstMissed.getD f.scan else f.scan

/-- First piece positions of the segments the assembler holds. -/
def Framer.assemblyPieces (f : Framer) : List Word :=
  match f.assembler with
  | .collect a | .hold a => (a.pieces.take 1).map fun p => p.position
  | _ => []

/-- First piece positions of the lane's segments that the Decode Engine holds queued or is still reading. -/
def DecodeEngine.piecesOf (de : DecodeEngine) (n : LaneId) : List Word :=
  (de.queue.filter fun e => decide (e.lane = n)).flatMap (fun e => (e.pieces.take 1).map fun p => p.position)
    ++ match de.operation with
      | some (.decode d) =>
        if d.result.isNone ∧ d.linked ∧ d.entry.lane = n then (d.entry.pieces.take 1).map fun p => p.position else []
      | _ => []

/-- Of two positions, the one less far ahead of the consumed mark. -/
def earlier (base a b : Word) : Word := if ahead b base < ahead a base then b else a

/-- The Framer recomputes its consumed mark, and with it the accept limit (R102). -/
def recomputeConsumed (n : LaneId) (s : State) : State :=
  let f := s.framers[n]
  if f.phase = .unbound then s
  else
    let c := (f.assemblyPieces ++ s.de.piecesOf n).foldl (earlier f.consumed) f.retained
    (s.modFramer n fun f => { f with consumed := c }).setRingAperture n
      { s.wd.ringAperture[n] with limit := c + BitVec.ofNat 32 (s.returnRing n).size }

/-! ## Groups, segments -/

/-- A group in hand is settled unchecked (R109). -/
def settleUnchecked (n : LaneId) (s : State) : State :=
  match s.framers[n].groupInHand with
  | none => s
  | some g =>
    s.modFramer n fun f =>
      { f with groupInHand := none, lastSettled := some g.group, groupsUnchecked := satInc f.groupsUnchecked }

/-- The lane's Framer leaves the Decode Engine's holding list (R118). -/
def leaveHolding (n : LaneId) (s : State) : State :=
  { s with de.holding := s.de.holding.filter fun m => decide (m ≠ n) }

/-! ## Binding, stopping, unbinding -/

/-- A VERIFY or RESTORE job binds the lane's Framer and return ring (R101); the lane counters are kept. -/
def bindFramer (n : LaneId) (k : SlotId) (s : State) : State :=
  (s.modFramer n fun f =>
    { slot := some k, phase := .taking, locksLost := f.locksLost, groupsChecked := f.groupsChecked
      groupsUnchecked := f.groupsUnchecked, segmentFaults := f.segmentFaults }).setRingAperture n
    { expected := 0, limit := BitVec.ofNat 32 (s.returnRing n).size, held := false }

/-- The Framer leaves TAKING for STOPPED (R116). -/
def stopFramer (n : LaneId) (s : State) : State :=
  if s.framers[n].phase = .taking then
    let s := leaveHolding n (settleUnchecked n s)
    recomputeConsumed n (s.modFramer n fun f =>
      { f with phase := .stopped, assembler := .waitStart, frame := none, scan := s.wd.ringAperture[n].expected })
  else s

/-- The Framer is unbound (R101) and the return ring with it (R14); a decode of the lane in flight signals it no more (R120). -/
def unbindFramer (n : LaneId) (s : State) : State :=
  let s := leaveHolding n s
  let s := (s.modFramer n fun f =>
    { locksLost := f.locksLost, groupsChecked := f.groupsChecked, groupsUnchecked := f.groupsUnchecked
      segmentFaults := f.segmentFaults }).setRingAperture n {}
  match s.de.operation with
  | some (.decode d) =>
    if d.entry.lane = n then { s with de.operation := some (.decode { d with linked := false }) } else s
  | _ => s

/-- The Job Table unbinds a Framer, which takes the signal once it does not wait on a post (R103).
DESIGN CHOICE: meanwhile the lane is IDLE and a LAYOUT_SET is accepted with the Framer still STOPPED;
notes/assumptions/40.md. -/
def signalUnbind (n : LaneId) (s : State) : State :=
  if s.waiting (.framer n) then s.modFramer n fun f => { f with held := f.held ++ [.unbind] } else unbindFramer n s

/-! ## The due list (R127) -/

/-- A decode for the job is in flight; a decode marked for discard is for no live job (R124). -/
def State.decodingFor (s : State) (k : SlotId) : Bool :=
  match s.de.operation with
  | some (.decode d) => decide (d.entry.slot = k) && !d.discard
  | some (.evaluation j) => decide (j = k)
  | none => false

/-- The job's end evaluation becomes due when the job is in ENDING and has no entry queued and no decode in flight. -/
def dueCheck (k : SlotId) (s : State) : State :=
  if s.jt.jobs[k].live ∧ s.jt.jobs[k].record.state = .ending ∧ s.de.queue.all (fun e => decide (e.slot ≠ k))
      ∧ !s.decodingFor k ∧ !s.de.due.contains k then
    { s with de.due := s.de.due ++ [k] }
  else s

end Sys2Proof.Machine
end

