-- ==== Sys2Proof/Machine/JobTable.lean ====
section
/-! DEFINITION. The Job Table's side of a job's life: the signals it takes in order, FLUSHING and DRAINING, the cut-off at a
full cartridge, and the ends of jobs (03 sections 3.3, 3.5). -/

namespace Sys2Proof.Machine

open Sys2Proof

/-! ## Ending a job (R46) -/

/-- The slot becomes free and the job's bindings are released. -/
def freeSlot (k : SlotId) (s : State) : State :=
  let r := s.jt.jobs[k].record
  let s := { s with jt.jobs := s.jt.jobs.set k { live := false, record := { r with state := .free } } }
  match r.kind with
  | .write => laneSignal r.lane .idleTest (freeStream r.stream s)
  | .verify | .restore => signalUnbind r.lane (laneIdle r.lane s)

/-- The job ends: JOB_DONE is posted, and the slot is freed once the post has joined. -/
def endJob (k : SlotId) (outcome : JobOutcome) (s : State) : State :=
  let joins := s.re.hasRoom
  let s := post .jobTable (.jobDone k s.jt.jobs[k].record outcome) s
  if joins then freeSlot k s else { s with jt.ending := some k }

/-! ## FLUSHING and DRAINING (R40) -/

/-- The group has been released by the lane: the cartridge's written count has passed it. -/
def State.groupReleased (s : State) (r : JobRecord) (g : Word) : Bool :=
  match s.cd.records[r.cart] with
  | none => true
  | some c => decide (g.toNat < c.written.toNat)

/-- The test of R40 on a FLUSHING job; answers the ending it leads to, if any.
DESIGN CHOICE: the FLUSH test comes first, so its GROUP_READY joins before the job's JOB_DONE; notes/assumptions/42.md. -/
def takeFlushTest (k : SlotId) (s : State) : State × List JobSignal :=
  let r := s.jt.jobs[k].record
  if s.jt.jobs[k].live ∧ r.kind = .write ∧ r.state = .flushing
      ∧ !s.bufferBusy r.stream 0 ∧ !s.bufferBusy r.stream 1 then
    let s := laneSignal r.lane .flushTest (s.modJob k fun r => { r with state := .draining })
    let ended := match r.lastEnd with
      | none => true
      | some g => s.groupReleased r g
    (s, if ended then [.ending k r.pendingOutcome] else [])
  else (s, [])

/-- The DRAINING jobs that a release ends, in the order of their slots (R40). -/
def State.drainedBy (s : State) (n : LaneId) (g : Word) : List JobSignal :=
  (s.writeJobsOnLane n).filterMap fun k =>
    let r := s.jt.jobs[k].record
    match r.state, r.lastEnd with
    | .draining, some e => if e.toNat ≤ g.toNat then some (.ending k r.pendingOutcome) else none
    | _, _ => none

/-! ## The cut-off at a full cartridge (R48) -/

/-- The lowest of some sequences, compared as plain numbers. -/
def lowestWord : List Word → Option Word
  | [] => none
  | w :: ws => some (ws.foldl (fun a b => if b.toNat < a.toNat then b else a) w)

/-- The job is one that the FULL flag cuts off. -/
def JobRecord.cutOff (r : JobRecord) : Bool :=
  decide (r.state = .active) || (decide (r.state = .flushing) && decide (r.pendingOutcome = .complete))

/-- One job gives up its unpacked chunks and takes pending outcome CARTRIDGE_FULL. -/
def cutOffJob (s : State) (k : SlotId) : State :=
  let r := s.jt.jobs[k].record
  let lost := s.givenUp r.stream
  let s := streamClosing r.stream (giveUpStream r.stream false s)
  s.modJob k fun r =>
    { r with
      nextSeq := (lowestWord lost).getD r.nextSeq
      closedFinal := r.closedFinal && !lost.contains 0xFFFFFFFF
      pendingOutcome := .cartridgeFull
      state := .flushing }

/-- The jobs on a lane that its FULL flag cuts off, in slot order. -/
def State.cutOffJobs (s : State) (n : LaneId) : List SlotId :=
  (s.writeJobsOnLane n).filter fun k => s.jt.jobs[k].record.cutOff

/-! ## Signals (R46) -/

/-- Take one signal; answers the signals its own handling leads to, which come before any other held one.
DESIGN CHOICE: a FULL flag first cuts off every job of the lane, and only then come their tests of R40 and their endings, so a
JOB_DONE that waits on a full backlog leaves no later job to be cut off; notes/assumptions/46.md. -/
def takeJobSignal : JobSignal → State → State × List JobSignal
  | .flushTest k, s => takeFlushTest k s
  | .released n g, s => (s, s.drainedBy n g)
  | .fullSet n, s => ((s.cutOffJobs n).foldl cutOffJob s, (s.cutOffJobs n).map .flushTest)
  | .endCondition k, s =>
    if s.jt.jobs[k].live ∧ s.jt.jobs[k].record.state = .active then
      (dueCheck k (s.modJob k fun r => { r with state := .ending }), [])
    else (s, [])
  | .evaluationDone k, s => (s, [.ending k .complete])
  | .ending k outcome, s => (if s.jt.jobs[k].live then endJob k outcome s else s, [])

/-- Take held signals, oldest first, until the Job Table waits on a post or none is left. The first argument bounds their
number.
That signals which a signal leads to come first is DEDUCED; notes/assumptions/10.md. -/
def takeJobSignals : Nat → State → State
  | 0, s => s
  | n + 1, s =>
    if s.waiting .jobTable then s
    else match s.jt.held with
      | [] => s
      | x :: rest =>
        let r := takeJobSignal x { s with jt.held := rest }
        takeJobSignals n { r.1 with jt.held := r.2 ++ r.1.jt.held }

/-- Enough for every held signal and the up to eight tests and eight endings that each leads to. -/
def State.jobFuel (s : State) : Nat := 20 * s.jt.held.length

/-- Signals reach the Job Table: they are taken at once, or held while it waits on a post. -/
def jobSignals (xs : List JobSignal) (s : State) : State :=
  let s := { s with jt.held := s.jt.held ++ xs }
  takeJobSignals s.jobFuel s

/-- A buffer of a stream has changed state: the stream recomputes A (R44) and the test of R40 is applied (R45). -/
def bufferChanged (i : StreamId) (s : State) : State :=
  let s := recomputeLimit i s
  match s.streams[i].slot with
  | none => s
  | some k => jobSignals [.flushTest k] s

/-- The post of a JOB_DONE has joined: its slot is freed and the held signals are taken (R46). -/
def jobDoneJoined (s : State) : State :=
  let s := match s.jt.ending with
    | none => s
    | some k => freeSlot k { s with jt.ending := none }
  takeJobSignals s.jobFuel s

end Sys2Proof.Machine
end

