-- ==== Sys2Proof/Machine/Compressor.lean ====
section
/-! DEFINITION. The Compressor's commands COMPRESSOR_TAKE and COMPRESSION_COMPLETE (04 sections 4.1, 4.4, R53 to R55). -/

namespace Sys2Proof.Machine

open Sys2Proof

/-- COMPRESSOR_TAKE (R53): the idle Compressor takes the oldest entry.
DESIGN CHOICE: a step of its own; notes/assumptions/19.md. -/
def compressorTake (s : State) : State :=
  match s.ce.inFlight, s.ce.queue with
  | none, e :: queue =>
    bufferChanged e.stream ({ s with ce := { s.ce with
        queue := queue, inFlight := some { entry := e }, headTable := [], output := [] } }.modBuffer e.stream e.buffer
      fun b => { b with state := .compressing })
  | _, _ => s

/-- The segment header of a chunk (R63). -/
def ChunkEntry.header (e : ChunkEntry) (mode : Mode) (stored : Nat) : SegmentHeader :=
  { mode := mode, tag := e.tag, rawLength := e.rawLength, storedLength := stored, sequence := e.sequence
    rawCheck := e.rawCheck }

/-- The counters of a job after one of its chunks has become READY (R54). -/
def Counters.compressed (c : Counters) (h : SegmentHeader) : Counters :=
  { c with
    rawBytes := c.rawBytes + BitVec.ofNat 64 h.rawLength
    storedBytes := c.storedBytes + BitVec.ofNat 64 h.storedLength
    plainSegments := if h.mode = .plain then satInc c.plainSegments else c.plainSegments }

/-- The segment of a chunk: its header and its stored bytes (R62, R63). -/
def ChunkEntry.segment (e : ChunkEntry) (data : List Byte) : SegmentHeader × List Byte :=
  let g := guardExpansion data (tokenStream (encodeChunk data).1)
  (e.header g.1 g.2.length, g.2)

/-- COMPRESSION_COMPLETE (R54, R55): the segment is written into the buffer, which becomes READY, or the output of a marked
compression is given up and the buffer becomes FREE.
DESIGN CHOICE: the output buffer and the head table keep what the compression left in them until the next take, after a marked
completion too; notes/assumptions/47.md. -/
def compressionComplete (s : State) : State :=
  match s.ce.inFlight with
  | none => s
  | some c =>
    let e := c.entry
    let data := s.streams[e.stream].buffers[e.buffer].data
    let encoded := encodeChunk data
    let s := { s with ce := { s.ce with
      inFlight := none, headTable := encoded.2, output := tokenStream encoded.1 } }
    if c.discard then bufferChanged e.stream (freeBuffer e.stream e.buffer s)
    else
      let segment := e.segment data
      let s := s.modBuffer e.stream e.buffer fun b =>
        { b with state := .ready, data := segmentHeaderBytes segment.1 ++ segment.2, header := some segment.1 }
      bufferChanged e.stream (s.modCounters e.slot fun c => c.compressed segment.1)

def execCompressorTake (s : State) : Host.Outcome State Fault Refusal := runStep s compressorTake

def execCompressionComplete (s : State) : Host.Outcome State Fault Refusal := runStep s compressionComplete

end Sys2Proof.Machine
end

