-- ==== Sys2Proof/Machine/Packer.lean ====
section
/-! DEFINITION. The packer (05 section 5.4: PACKER_BEGIN_SEGMENT, FRAME_COMPLETE, SEGMENT_CONTINUES, SEGMENT_PACKED), the age
limit (AGE_EXPIRY), and the final-byte signals that a Lane Unit takes (R83 to R85). -/

namespace Sys2Proof.Machine

open Sys2Proof

/-! ## Choice, fit and room (R71 to R73) -/

/-- The candidates of a lane: READY buffers whose chunk is the lane's (R71). -/
def State.candidates (s : State) (n : LaneId) : List (ChunkEntry × SegmentHeader) :=
  (List.finRange 4).flatMap fun i => ([0, 1] : List (Fin 2)).filterMap fun b =>
    match s.streams[i].buffers[b].state, s.streams[i].buffers[b].entry, s.streams[i].buffers[b].header with
    | .ready, some e, some h => if e.lane = n then some (e, h) else none
    | _, _, _ => none

/-- The candidate with the oldest close order. -/
def oldest : List (ChunkEntry × SegmentHeader) → Option (ChunkEntry × SegmentHeader)
  | [] => none
  | c :: cs => some (cs.foldl (fun a b => if b.1.order < a.1.order then b else a) c)

/-- The group limit L and the label of the cartridge in the lane's drive. -/
def State.driveRecord (s : State) (n : LaneId) : Option CartRecord := (s.driveCart n).bind fun c => s.cd.records[c]

/-- The payload bytes a segment may still use before the group limit (R72). -/
def State.fitSpace (s : State) (n : LaneId) : Int :=
  let limit : Int := match s.driveRecord n with
    | none => 0
    | some c => c.limit.toNat
  match s.lanes[n].position with
  | none => 32608 * (limit - (s.lanes[n].nextGroup.toNat : Int))
  | some p =>
    let r : Int := 4076 - (p.offset : Int)
    (if 16 ≤ r then r else 0) + (7 - (p.frame : Int)) * 4076
      + (limit - 1 - ((s.lanes[n].slotGroup p.slot).toNat : Int)) * 32608

/-- The group, frame and offset at which the next segment's header begins (R74 steps 3 and 4), and whether in a new group. -/
def State.startAt (s : State) (n : LaneId) : Word × Nat × Nat × Bool :=
  match s.lanes[n].position with
  | none => (s.lanes[n].nextGroup, 0, 0, true)
  | some p =>
    let g := s.lanes[n].slotGroup p.slot
    if p.offset + 16 ≤ 4076 then (g, p.frame, p.offset, false)
    else if p.frame < 7 then (g, p.frame + 1, 0, false)
    else (s.lanes[n].nextGroup, 0, 0, true)

/-- How many groups beyond the start group a segment of `size` bytes at a frame and offset reaches (R74). -/
def groupsBeyond (frame offset size : Nat) : Nat := (4076 * frame + offset + size - 1) / 32608

/-! ## FULL (R76) -/

/-- The Lane Unit sets the lane's FULL flag: its wait list place and claim end (R93) and the Job Table cuts off its WRITE jobs
(R48).
DESIGN CHOICE: at once, even while the GROUP_READY of the close before it waits; notes/assumptions/41.md. -/
def setFull (n : LaneId) (s : State) : State :=
  jobSignals [.fullSet n] (leaveCatalog n (s.modLane n fun l => { l with full := true }))

/-- Frame 7 has completed: the group closes FULL, and at the cartridge's last group the FULL flag is set (R76). -/
def fullClose (n : LaneId) (s : State) : State :=
  let s := closeGroup n .full s
  match s.driveRecord n with
  | some c => if s.lanes[n].nextGroup = c.limit then setFull n s else s
  | none => s

/-! ## PACKER_BEGIN_SEGMENT (R74) -/

/-- R74 steps 4 and 5: the slot opens if none is, and copying begins at the position. -/
def startCopying (n : LaneId) (s : State) : State :=
  let s := if s.lanes[n].position.isNone then openSlot n s else s
  s.modLane n fun l =>
    { l with
      packing := l.packing.map fun p => { p with starting := false }
      position := l.position.map fun p =>
        { p with firstSegment := some (p.firstSegment.getD p.offset), starts := p.starts + 1 } }

/-- R74 step 3: fewer than 16 bytes left in the current frame become filler and the frame completes. -/
def headerNotSplit (n : LaneId) (s : State) : State :=
  match s.lanes[n].position with
  | none => s
  | some p =>
    if p.offset + 16 ≤ 4076 then s
    else
      let s := fillFrame n false s
      if p.frame = 7 then fullClose n s else s

/-- Begin a segment that fits and has room (R74). -/
def beginSegment (n : LaneId) (e : ChunkEntry) (h : SegmentHeader) (s : State) : State :=
  let size := 16 + h.storedLength
  let at' := s.startAt n
  let beyond := groupsBeyond at'.2.1 at'.2.2.1 size
  let label := (s.driveRecord n).bind fun c => c.label
  let s := catalogAppend n (catalogRecordBytes label n h at'.1 at'.2.1 at'.2.2.1 (beyond + 1)) s
  let data := s.streams[e.stream].buffers[e.buffer].data
  let s := s.modBuffer e.stream e.buffer fun b => { b with state := .packing }
  let s := s.modJob e.slot fun r =>
    { r with
      lastEnd := some (at'.1 + BitVec.ofNat 32 beyond)
      counters := { r.counters with segments := satInc r.counters.segments } }
  let s := s.modLane n fun l =>
    { l with packing := some { stream := e.stream, buffer := e.buffer, rest := data, starting := true }, chosen := none }
  let s := headerNotSplit n (bufferChanged e.stream s)
  if s.waiting (.laneUnit n) then s else startCopying n s

/-- The packer may choose (R71). -/
def State.packerFree (s : State) (n : LaneId) : Bool :=
  decide (s.lanes[n].role = .write) && !s.lanes[n].full && s.lanes[n].packing.isNone && !s.waiting (.laneUnit n)

/-- The chosen segment still waits, with its lane on the wait list, for catalog room: no fresh choice is made (R73, R93). -/
def State.choiceStands (s : State) (n : LaneId) : Bool :=
  s.sc.waitList.contains n && (s.candidates n).any fun c => decide (s.lanes[n].chosen = some c.1.order)

/-- The catalog lets the lane's packer begin now (R93). -/
def State.catalogAdmits (s : State) (n : LaneId) : Bool :=
  s.sc.claims.contains n || (s.sc.waitList.isEmpty && decide (1 ≤ s.catalogRoom))

/-- PACKER_BEGIN_SEGMENT: choose, test fit and room, and begin (R71 to R74).
DESIGN CHOICE: a segment that does not fit sets FULL at once, even while the LIMIT close's report waits;
notes/assumptions/41.md.
DESIGN CHOICE: a step of its own, which leaves the state where the packer cannot begin; notes/assumptions/3.md, 19.md. -/
def packerBeginSegment (n : LaneId) (now : Nat) (s : State) : State :=
  if s.packerFree n && !s.choiceStands n then
    match oldest (s.candidates n) with
    | none => endClaim n s
    | some (e, h) =>
      let s := s.observeTime now
      if s.fitSpace n < 16 + (h.storedLength : Int) then setFull n (padClose n .limit s)
      else if (s.startAt n).2.2.2 && !s.lanes[n].nextFree then s
      else if s.catalogAdmits n then beginSegment n e h s
      else
        let s := s.modLane n fun l => { l with chosen := some e.order }
        if s.sc.waitList.contains n then s else { s with sc.waitList := s.sc.waitList ++ [n] }
  else s

/-! ## Copying (R75) -/

/-- The packer copies: it is in the middle of a segment, with steps 4 and 5 of R74 done, and no post waits. -/
def State.copying (s : State) (n : LaneId) : Option Packing :=
  match s.lanes[n].packing with
  | none => none
  | some k => if k.starting || s.waiting (.laneUnit n) then none else some k

/-- The segment continues in the slot at the next slot index, once that is FREE (R75). -/
def continueSegment (n : LaneId) (s : State) : State :=
  match s.copying n with
  | none => s
  | some k => if !k.rest.isEmpty && s.lanes[n].position.isNone && s.lanes[n].nextFree then openSlot n s else s

/-- FRAME_COMPLETE: copying fills the current frame; frame 7 closes the group FULL and the segment goes on in a new group. -/
def frameComplete (n : LaneId) (now : Nat) (s : State) : State :=
  match s.copying n, s.lanes[n].position with
  | some k, some p =>
    let room := 4076 - p.offset
    if k.rest ≠ [] ∧ room ≤ k.rest.length then
      let s := writePayload n (k.rest.take room) (s.observeTime now)
      let s := s.modLane n fun l => { l with packing := some { k with rest := k.rest.drop room } }
      let s := completeFrame n false 0 s
      if p.frame = 7 then continueSegment n (fullClose n s) else s
    else s
  | _, _ => s

/-- SEGMENT_CONTINUES: a segment that waited for a FREE slot opens it. -/
def segmentContinues (n : LaneId) (now : Nat) (s : State) : State := continueSegment n (s.observeTime now)

/-- A close pending is applied to the slot it names, if that is still OPEN (R81). -/
def applyPending (n : LaneId) (s : State) : State :=
  match s.lanes[n].closePending with
  | none => s
  | some (reason, k) =>
    let s := s.modLane n fun l => { l with closePending := none }
    if s.lanes[n].position.any fun p => decide (p.slot = k) then padClose n reason s else s

/-- The segment's remaining bytes fit in the current frame without filling it. -/
def State.lastBytes (s : State) (n : LaneId) (rest : List Byte) : Bool :=
  rest.isEmpty || s.lanes[n].position.any fun p => decide (rest.length < 4076 - p.offset)

/-- SEGMENT_PACKED: the last byte is written, the buffer becomes FREE and a close pending is applied; the test of R40 follows
(notes/assumptions/11.md).
DESIGN CHOICE. -/
def segmentPacked (n : LaneId) (s : State) : State :=
  match s.copying n with
  | none => s
  | some k =>
    if s.lastBytes n k.rest then
      let s := writePayload n k.rest s
      let s := s.modLane n fun l => { l with packing := none }
      let s := recomputeLimit k.stream (freeBuffer k.stream k.buffer s)
      bufferChanged k.stream (applyPending n s)
    else s

/-- AGE_EXPIRY (R79). -/
def ageExpiry (n : LaneId) (now : Nat) (s : State) : State := ageClose n (s.observeTime now)

/-! ## Releases (R78, R83, R85) -/

/-- Drain timing at a release (R85). -/
def Lane.drainTiming (now : Nat) (l : Lane) : Lane :=
  match l.lastRelease with
  | none => { l with lastRelease := some now }
  | some t =>
    let i := min (now - t) 10000000
    { l with
      lastRelease := some now
      interval := some (match l.interval with
        | none => i
        | some x => (3 * x + i) / 4) }

/-- The STARVE test (R78). -/
def starveTest (n : LaneId) (s : State) : State :=
  let l := s.lanes[n]
  let limit := s.re.laneSettings[n].streamingLimit
  match l.interval with
  | none => s
  | some i =>
    if l.readyGroups = [] ∧ l.position.isSome ∧ limit ≠ 0 ∧ i ≤ limit * 1000 then closeOrPend n .starve s else s

/-- The written count of the cartridge in the lane's drive rises by 1 (R141).
The record at the drive place, DEDUCED; notes/assumptions/25.md. -/
def raiseWritten (n : LaneId) (s : State) : State :=
  match s.driveCart n with
  | none => s
  | some c => s.modCart c fun r =>
    { r with
      written := r.written + 1
      condition := if r.written = 0 ∧ r.condition = .blank then .written else r.condition }

/-- A release of the slot with group g (R83). -/
def releaseGroup (n : LaneId) (k : Nat) (g : Word) (s : State) : State :=
  let s := s.modLane n fun l => l.setSlot k (.drained g)
  let s := settleLane n g (raiseWritten n s)
  let s := enforceRetain n (jobSignals [.released n g] s)
  if s.lanes[n].role = .write then
    idleTest n (starveTest n (s.modLane n fun l => l.drainTiming s.timebase))
  else s

/-- The Lane Unit takes a final-byte signal (R83). -/
def takeFinalByte (n : LaneId) (k : Nat) (s : State) : State :=
  let misordered := s.modLane n fun l => { l with counters := { l.counters with misordered := satInc l.counters.misordered } }
  match s.lanes[n].slots[k]? with
  | some (.ready g) =>
    if s.lanes[n].role = .write ∧ lowestGroup s.lanes[n].readyGroups = some g then releaseGroup n k g s else misordered
  | some (.opened _) => misordered
  | _ => s

/-- A final-byte signal reaches the Lane Unit, which holds up to 64 of them while it waits on a post (R82). -/
def finalByteSignal (n : LaneId) (k : Nat) (s : State) : State :=
  if s.waiting (.laneUnit n) then
    s.modLane n fun l =>
      if l.heldReads.length < 64 then { l with heldReads := l.heldReads ++ [k] }
      else { l with counters := { l.counters with misordered := satInc l.counters.misordered } }
  else takeFinalByte n k s

/-! ## After a post has joined (R82) -/

/-- The held final-byte signals, oldest first, until the Lane Unit waits again. The first argument bounds their number. -/
def takeHeldReads (n : LaneId) : Nat → State → State
  | 0, s => s
  | m + 1, s =>
    if s.waiting (.laneUnit n) then s
    else match s.lanes[n].heldReads with
      | [] => s
      | k :: rest => takeHeldReads n m (takeFinalByte n k (s.modLane n fun l => { l with heldReads := rest }))

/-- The held Job Table signals, once no final-byte signal is held. -/
def takeHeldSignals (n : LaneId) : Nat → State → State
  | 0, s => s
  | m + 1, s =>
    if s.waiting (.laneUnit n) || !s.lanes[n].heldReads.isEmpty then s
    else match s.lanes[n].heldSignals with
      | [] => s
      | x :: rest => takeHeldSignals n m (takeLaneSignal n x (s.modLane n fun l => { l with heldSignals := rest }))

/-- The packer's suspended step goes on: the begin of a segment, or its continuation in a new group. -/
def resumePacker (n : LaneId) (s : State) : State :=
  match s.lanes[n].packing with
  | none => s
  | some k => if k.starting then startCopying n s else continueSegment n s

/-- The Lane Unit's GROUP_READY has joined.
DESIGN CHOICE: the packer's suspended step comes before the held signals; notes/assumptions/32.md. -/
def laneJoined (n : LaneId) (s : State) : State :=
  let s := resumePacker n s
  let s := takeHeldReads n s.lanes[n].heldReads.length s
  takeHeldSignals n s.lanes[n].heldSignals.length s

/-! ## The commands -/

def execPackerBeginSegment (n : LaneId) (now : Nat) (s : State) : Host.Outcome State Fault Refusal :=
  runStep s (packerBeginSegment n now)

def execFrameComplete (n : LaneId) (now : Nat) (s : State) : Host.Outcome State Fault Refusal :=
  runStep s (frameComplete n now)

def execSegmentContinues (n : LaneId) (now : Nat) (s : State) : Host.Outcome State Fault Refusal :=
  runStep s (segmentContinues n now)

def execSegmentPacked (n : LaneId) (s : State) : Host.Outcome State Fault Refusal := runStep s (segmentPacked n)

def execAgeExpiry (n : LaneId) (now : Nat) (s : State) : Host.Outcome State Fault Refusal := runStep s (ageExpiry n now)

end Sys2Proof.Machine
end

