-- ==== Sys2Proof/Machine/Framer.lean ====
section
/-! DEFINITION. The Return Framer: the synchronizer's commands SYNC_SEARCH_TEST, SYNC_CONFIRM and FRAME_TAKE, the group check,
the segment assembler and the end of taking (07 sections 7.2 to 7.7). -/

namespace Sys2Proof.Machine

open Sys2Proof

/-! ## Reading the return stream (07 section 7.1) -/

/-- `count` bytes of a lane's return stream from a position on. -/
def State.returned (s : State) (n : LaneId) (x : Word) (count : Nat) : List Byte := ringBytes s.mem (s.returnRing n) x count

/-- The arrived mark is at least `count` bytes beyond the scan mark. -/
def State.arrived (s : State) (n : LaneId) (count : Nat) : Bool :=
  decide (count ≤ ahead s.wd.ringAperture[n].expected s.framers[n].scan)

/-- The record of the job bound to a Framer. -/
def State.framerJob (s : State) (n : LaneId) : JobRecord :=
  match s.framers[n].slot with
  | none => {}
  | some k => s.jt.jobs[k].record

/-- A counter of the bound job rises, while the job is ACTIVE (R107). -/
def framerCount (n : LaneId) (f : Counters → Counters) (s : State) : State :=
  match s.framers[n].slot with
  | none => s
  | some k => if s.jt.jobs[k].record.state = .active then s.modCounters k f else s

/-- The synchronizer may act: TAKING, no post waits and no frame is unfinished (R103, R107). -/
def State.synchronizing (s : State) (n : LaneId) : Bool :=
  decide (s.framers[n].phase = .taking) && !s.waiting (.framer n) && s.framers[n].frame.isNone

/-- The Framer posts in the middle of an event. A report that must wait keeps the event from its end, where the marks are
recomputed, so they are recomputed first (R102, R103). -/
def framerPost (n : LaneId) (r : Report) (s : State) : State :=
  post (.framer n) r (if s.re.hasRoom then s else recomputeConsumed n s)

/-! ## Losing lock (R108, R110, R111) -/

/-- Lock is lost: the search resumes at a position and LOCK_LOST is posted.
With no frame accepted since lock was gained the group number is a free value; notes/assumptions/12.md. -/
def loseLock (n : LaneId) (reason : LostReason) (resume : Word) (s : State) : State :=
  let s := settleUnchecked n s
  let s := s.modFramer n fun f =>
    { f with
      sync := .search, scan := resume, missCount := 0, firstMissed := none, expected := none, frame := none,
      failures := if reason = .misses then f.failures else 0,
      assembler := match f.assembler with | .hold a => .hold a | _ => .waitStart,
      locksLost := satInc f.locksLost }
  let s := recomputeConsumed n s
  match s.framers[n].lastAccepted with
  | some x => post (.framer n) (.lockLost n (s.framerJob n).tag reason resume x.group (BitVec.ofNat 8 x.index.val)) s
  | none => post (.framer n) (.lockLost n (s.framerJob n).tag reason resume s.freeWord 0xFF) s.freeUsed

/-! ## The end of taking (R116) -/

/-- The end condition is met: the job moves to ENDING and the Framer to STOPPED. -/
def endTaking (n : LaneId) (s : State) : State :=
  match s.framers[n].slot with
  | none => s
  | some k => jobSignals [.endCondition k] (stopFramer n s)

/-- The assembler holds a segment, partial or complete. -/
def Framer.holds (f : Framer) : Bool :=
  match f.assembler with
  | .collect _ | .hold _ => true
  | _ => false

/-- A VERIFY job's end condition: a frame later than the last group has been accepted and no segment is held. -/
def State.verifyEnded (s : State) (n : LaneId) : Bool :=
  decide (s.framers[n].phase = .taking) && decide ((s.framerJob n).kind = .verify) && s.framers[n].pastLast
    && !s.framers[n].holds

/-- The end of a Framer's event, unless a post waits: the marks are recomputed (R102), the scan mark of a STOPPED Framer
follows the arrived mark, and a VERIFY job's end condition is tested.
DEDUCED; notes/assumptions/24.md. -/
def framerSettle (n : LaneId) (s : State) : State :=
  if s.waiting (.framer n) then s
  else
    let s := if s.framers[n].phase = .stopped then
      s.modFramer n fun f => { f with scan := s.wd.ringAperture[n].expected } else s
    let s := recomputeConsumed n s
    if s.verifyEnded n then endTaking n s else s

/-! ## Search and confirmation (R105, R106) -/

/-- SYNC_SEARCH_TEST: judge the header at the scan mark. -/
def syncSearchTest (n : LaneId) (s : State) : State :=
  if s.synchronizing n && decide (s.framers[n].sync = .search) && s.arrived n 20 then
    let h := s.returned n s.framers[n].scan 20
    if headerGood h then s.modFramer n fun f => { f with sync := .confirm1 (headerName h) }
    else framerSettle n (s.modFramer n fun f => { f with scan := f.scan + 1 })
  else s

/-- A failed confirm: SEARCH from the next position. -/
def confirmFailed (n : LaneId) (s : State) : State :=
  framerSettle n (s.modFramer n fun f => { f with sync := .search, scan := f.scan + 1 })

/-- Lock is gained at the candidate (R106). -/
def gainLock (n : LaneId) (candidate : FrameName) (s : State) : State :=
  let s := s.modFramer n fun f =>
    { f with
      sync := .locked, missCount := 0, firstMissed := none, expected := some candidate, failures := 0, lastAccepted := none,
      assembler := match f.assembler with | .hold a => .hold a | _ => .waitStart }
  framerSettle n (framerPost n (.lockGained n (s.framerJob n).tag s.framers[n].scan candidate) s)

/-- SYNC_CONFIRM: judge the header one or two frames beyond the candidate. -/
def syncConfirm (n : LaneId) (s : State) : State :=
  if s.synchronizing n then
    match s.framers[n].sync with
    | .confirm1 c =>
      if s.arrived n 4116 then
        let h := s.returned n (s.framers[n].scan + 4096) 20
        if headerGood h && decide (headerName h = c.next) then s.modFramer n fun f => { f with sync := .confirm2 c }
        else confirmFailed n s
      else s
    | .confirm2 c =>
      if s.arrived n 8212 then
        let h := s.returned n (s.framers[n].scan + 8192) 20
        if headerGood h && decide (headerName h = c.next.next) then gainLock n c s else confirmFailed n s
      else s
    | _ => s
  else s

/-! ## The group check (R109, R110) -/

/-- An accepted frame of a group takes its part in the group check, up to the settlement at frame 7.
DEDUCED: the payload is taken at acceptance; notes/assumptions/10.md. -/
def groupFrame (n : LaneId) (name : FrameName) (slip : Bool) (payload : List Byte) (s : State) : State :=
  let f := s.framers[n]
  if f.lastSettled.any fun g => !groupLater name.group g then s
  else if f.groupInHand.any fun g => decide (g.group = name.group) then
    s.modFramer n fun f =>
      { f with groupInHand := f.groupInHand.map fun g =>
          if g.accumulating then { g with check := crcUpdate g.check payload } else g }
  else
    let hand : GroupInHand :=
      if name.index = 0 ∧ !slip then
        { group := name.group, accumulating := true, check := crcUpdate crcStart payload }
      else { group := name.group, accumulating := false, check := crcStart }
    (settleUnchecked n s).modFramer n fun f => { f with groupInHand := some hand }

/-- A miss or a slip breaks the group in hand. -/
def Framer.breakGroup (f : Framer) : Framer :=
  { f with groupInHand := f.groupInHand.map fun g => { g with accumulating := false } }

/-- The settlement at frame 7 of the group in hand; the frame's stage becomes its finish, with whether lock is lost. -/
def settleGroup (n : LaneId) (w : FrameWork) (s : State) : State :=
  let finish (lost : Bool) (s : State) : State :=
    s.modFramer n fun f => { f with frame := some { w with stage := .finish lost } }
  match s.framers[n].groupInHand with
  | none => finish false s
  | some g =>
    if w.name.index = 7 ∧ g.group = w.name.group then
      if !g.accumulating then finish false (settleUnchecked n s)
      else
        let computed := ~~~ g.check
        let s := s.modFramer n fun f =>
          { f with
            groupInHand := none, lastSettled := some g.group, groupsChecked := satInc f.groupsChecked,
            failures := if computed = w.recorded then 0 else f.failures + 1 }
        if computed = w.recorded then finish false s
        else
          let s := framerCount n (fun c => { c with groupCheckFailures := satInc c.groupCheckFailures }) s
          let s := finish (decide (2 ≤ s.framers[n].failures)) s
          framerPost n (.groupCheckFail n (s.framerJob n).tag g.group computed w.recorded w.position) s
    else finish false s

/-- The frame is finished: the scan mark advances, or lock is lost by a second failed check (R107, R110). -/
def finishFrame (n : LaneId) (w : FrameWork) (lost : Bool) (s : State) : State :=
  if lost then loseLock n .checks (w.position + 1) s
  else s.modFramer n fun f => { f with frame := none, scan := w.position + 4096 }

/-! ## The assembler (R112 to R115) -/

/-- The assembler's state and the place it has reached in the frame. -/
def setAssembler (n : LaneId) (w : FrameWork) (a : Assembler) (s : State) : State :=
  s.modFramer n fun f => { f with assembler := a, frame := some w }

/-- The payload of the frame is used up. -/
def FrameWork.used (w : FrameWork) : FrameWork := { w with stage := .check }

/-- A segment fault: the assembler waits for the next frame's first segment (R112 to R114).
SHORT names the header's frame, DEDUCED; notes/assumptions/22.md.
DESIGN CHOICE: the counter and the assembler change before the report joins; notes/assumptions/38.md. -/
def segmentFault (n : LaneId) (w : FrameWork) (reason : SegmentFaultReason) (position : Word) (frame : FrameName)
    (s : State) : State :=
  let s := setAssembler n w.used .waitStart (s.modFramer n fun f => { f with segmentFaults := satInc f.segmentFaults })
  framerPost n (.segmentFault n (s.framerJob n).tag reason position frame) s

/-- The job wants the segment (R115). -/
def JobRecord.wants (r : JobRecord) (h : SegmentHeader) : Bool :=
  match r.kind with
  | .restore => decide (h.tag = r.sourceTag ∧ r.firstChunk.toNat ≤ h.sequence.toNat ∧ h.sequence.toNat ≤ r.lastChunk.toNat)
  | _ => true

/-- A header that ends a RESTORE job's taking (R116). -/
def JobRecord.headerEnds (r : JobRecord) (h : SegmentHeader) : Bool :=
  decide (r.kind = .restore ∧ h.tag = r.sourceTag ∧ r.lastChunk.toNat < h.sequence.toNat)

/-- A segment whose joining the decode queue ends a RESTORE job's taking (R116). -/
def JobRecord.joinEnds (r : JobRecord) (h : SegmentHeader) : Bool :=
  decide (r.kind = .restore ∧ h.tag = r.sourceTag ∧ r.lastChunk.toNat ≤ h.sequence.toNat)

/-- Read the segment header at offset x of the frame (R113). -/
def readHeader (n : LaneId) (w : FrameWork) (s : State) : State :=
  let position := w.position + 20 + BitVec.ofNat 32 w.cursor
  match readSegmentHeader (s.returned n position 16) with
  | .error reason => segmentFault n w reason position w.name s
  | .ok h =>
    if (s.framerJob n).headerEnds h then endTaking n s
    else
      setAssembler n { w with cursor := w.cursor + 16 }
        (.collect {
          wanted := (s.framerJob n).wants h, header := h, frame := w.name, offset := w.cursor, position := position,
          pieces := [], remaining := h.storedLength }) s

/-- The entry that a segment offers to the decode queue (R118). -/
def State.offered (s : State) (n : LaneId) (k : SlotId) (a : Assembly) : DecodeEntry :=
  let r := s.jt.jobs[k].record
  { slot := k, tag := r.tag, kind := r.kind, lane := n, header := a.header, frame := a.frame, offset := a.offset
    pieces := a.pieces }

/-- The segment joins the decode queue. -/
def joinQueue (n : LaneId) (a : Assembly) (s : State) : State :=
  match s.framers[n].slot with
  | none => s
  | some k => { s with de.queue := s.de.queue ++ [s.offered n k a] }

/-- A complete segment: a wanted one is offered (R115, R118); any other has been passed over. -/
def completeSegment (n : LaneId) (w : FrameWork) (a : Assembly) (s : State) : State :=
  if !a.wanted then setAssembler n w .atHeader s
  else if s.de.queue.length < 8 ∧ s.de.holding = [] then
    let s := setAssembler n w .atHeader (joinQueue n a s)
    if (s.framerJob n).joinEnds a.header then endTaking n s else s
  else { setAssembler n w (.hold a) s with de.holding := s.de.holding ++ [n] }

/-- Gather bytes of a segment from the frame (R114).
DESIGN CHOICE: a segment that is not wanted and runs into filler posts SHORT and is counted as R114 says, where R115 says that
nothing of it is reported; notes/assumptions/50.md. -/
def gather (n : LaneId) (w : FrameWork) (a : Assembly) (s : State) : State :=
  let take := min a.remaining (w.dataEnd - w.cursor)
  let piece : Piece := { position := w.position + 20 + BitVec.ofNat 32 w.cursor, length := take }
  let a := { a with
    pieces := if a.wanted ∧ 0 < take then a.pieces ++ [piece] else a.pieces
    remaining := a.remaining - take }
  let w := { w with cursor := w.cursor + take }
  if a.remaining = 0 then completeSegment n w a s
  else if w.dataEnd = 4076 then setAssembler n w.used (.collect a) s
  else segmentFault n w .short a.position a.frame s

/-- One step of the assembler in its frame (R112).
DEDUCED in AT_NEXT; notes/assumptions/24.md. -/
def assemblerStep (n : LaneId) (w : FrameWork) (s : State) : State :=
  match s.framers[n].assembler with
  | .waitStart =>
    if w.firstSegment = 0xFFFF then setAssembler n w.used .waitStart s
    else setAssembler n { w with cursor := w.firstSegment } .atHeader s
  | .atNext =>
    if w.dataEnd = 0 then setAssembler n w.used .atNext s
    else if w.firstSegment = 0 then setAssembler n { w with cursor := 0 } .atHeader s
    else setAssembler n w .waitStart s
  | .atHeader =>
    if w.cursor = w.dataEnd then setAssembler n w.used .atNext s
    else if w.cursor + 16 ≤ w.dataEnd then readHeader n w s
    else segmentFault n w .split (w.position + 20 + BitVec.ofNat 32 w.cursor) w.name s
  | .collect a => gather n w a s
  | .hold _ => s

/-! ## Frames (R107) -/

/-- The unfinished frame cannot go on now: none is unfinished, a post waits, or the assembler is in HOLD. -/
def State.frameRests (s : State) (n : LaneId) : Bool :=
  s.waiting (.framer n) || match s.framers[n].assembler with
    | .hold _ => true
    | _ => false

/-- Go on with the accepted frame: its payload through the assembler, the group check, the scan mark's advance. The first
argument bounds the number of steps. -/
def runFrame (n : LaneId) : Nat → State → State
  | 0, s => s
  | m + 1, s =>
    match s.framers[n].frame with
    | none => s
    | some w =>
      if s.frameRests n then s
      else if s.verifyEnded n then endTaking n s
      else match w.stage with
        | .assemble => runFrame n m (assemblerStep n w s)
        | .check => runFrame n m (settleGroup n w s)
        | .finish lost => finishFrame n w lost s

/-- Enough steps for one frame: at least 17 bytes for each two steps of the assembler. -/
def frameFuel : Nat := 600

/-- Go on with the unfinished frame and end the event. -/
def continueFrame (n : LaneId) (s : State) : State := framerSettle n (runFrame n frameFuel s)

/-- An accepted frame, with or without a slip of distance d (R107). -/
def acceptFrame (n : LaneId) (h : List Byte) (slip : Option Nat) (s : State) : State :=
  let q := s.framers[n].scan
  let name := headerName h
  let payload := s.returned n (q + 20) 4076
  let s := match slip with
    | none => s
    | some d =>
      (framerCount n (fun c => { c with slips := satAdd c.slips d }) s).modFramer n fun f =>
        { f.breakGroup with assembler := .waitStart }
  let past := decide ((s.framerJob n).kind = .verify) && groupLater name.group (s.framerJob n).lastGroup
  let s := s.modFramer n fun f =>
    { f with
      expected := some name.next, missCount := 0, firstMissed := none, lastAccepted := some name,
      pastLast := f.pastLast || past,
      frame := some {
        position := q, name := name, firstSegment := fieldNat h 12 2, dataEnd := 4076 - fieldNat h 17 2,
        recorded := leWord ((h.drop 8).take 4), slip := slip.isSome, cursor := 0, stage := .assemble } }
  continueFrame n (groupFrame n name slip.isSome payload s)

/-- A repeat: the frame is ignored (R107). -/
def repeatFrame (n : LaneId) (s : State) : State :=
  framerSettle n (s.modFramer n fun f => { f with missCount := 0, firstMissed := none, scan := f.scan + 4096 })

/-- A miss (R107), which may lose lock (R108). -/
def missFrame (n : LaneId) (s : State) : State :=
  let s := framerCount n (fun c => { c with framesMissed := satInc c.framesMissed }) s
  let s := s.modFramer n fun f =>
    { f.breakGroup with
      assembler := .waitStart
      expected := f.expected.map fun x => x.next
      firstMissed := some (if f.missCount = 0 then f.scan else f.firstMissed.getD f.scan)
      missCount := f.missCount + 1 }
  if s.re.laneSettings[n].lossThreshold ≤ s.framers[n].missCount then
    framerSettle n (loseLock n .misses (s.framers[n].firstMissed.getD s.framers[n].scan + 1) s)
  else framerSettle n (s.modFramer n fun f => { f with scan := f.scan + 4096 })

/-- FRAME_TAKE (R107). -/
def frameTake (n : LaneId) (s : State) : State :=
  if s.synchronizing n && decide (s.framers[n].sync = .locked) && !s.frameRests n && s.arrived n 4096 then
    match s.framers[n].expected with
    | none => s
    | some x =>
      let h := s.returned n s.framers[n].scan 20
      if !headerGood h then missFrame n s
      else if headerName h = x then acceptFrame n h none s
      else if x.later (headerName h) then acceptFrame n h (some (x.distance (headerName h)).toNat) s
      else repeatFrame n s
  else s

/-! ## Signals from other blocks -/

/-- LANE_RESYNC acts on a TAKING Framer (R111). -/
def resyncFramer (n : LaneId) (s : State) : State :=
  if s.framers[n].phase = .taking then
    if s.framers[n].sync = .locked then framerSettle n (loseLock n .resync s.framers[n].scan s)
    else
      framerSettle n ((settleUnchecked n s).modFramer n fun f =>
        { f with
          sync := .search, missCount := 0, firstMissed := none, failures := 0, frame := none,
          assembler := match f.assembler with | .hold a => .hold a | _ => .waitStart })
  else s

/-- The held segment has joined the decode queue: the assembler leaves HOLD and the Framer finishes its frame (R115, R118). -/
def takeAdmitted (n : LaneId) (s : State) : State :=
  match s.framers[n].assembler with
  | .hold a =>
    let s := s.modFramer n fun f => { f with assembler := if f.frame.isSome then .atHeader else .waitStart }
    if (s.framerJob n).joinEnds a.header then framerSettle n (endTaking n s) else continueFrame n s
  | _ => s

/-- The Framer takes a signal. -/
def takeFramerSignal (n : LaneId) : FramerSignal → State → State
  | .admitted, s => takeAdmitted n s
  | .unbind, s => unbindFramer n s

/-- A signal reaches the Framer, which holds it while it waits on a post (R103). -/
def framerSignal (n : LaneId) (x : FramerSignal) (s : State) : State :=
  if s.waiting (.framer n) then s.modFramer n fun f => { f with held := f.held ++ [x] } else takeFramerSignal n x s

/-- The held signals, oldest first, until the Framer waits again. -/
def takeFramerSignals (n : LaneId) : Nat → State → State
  | 0, s => s
  | m + 1, s =>
    if s.waiting (.framer n) then s
    else match s.framers[n].held with
      | [] => s
      | x :: rest => takeFramerSignals n m (takeFramerSignal n x (s.modFramer n fun f => { f with held := rest }))

/-- A Framer's post has joined: a pending OVERRUN is posted first, then its suspended step goes on (R103). -/
def framerJoined (n : LaneId) (s : State) : State :=
  let s := match s.framers[n].pendingOverrun with
    | some r => post (.framer n) r (s.modFramer n fun f => { f with pendingOverrun := none })
    | none => s
  if s.waiting (.framer n) then s
  else
    let s := continueFrame n s
    takeFramerSignals n s.framers[n].held.length s

/-- OVERRUN on a return ring (R103): posted, or kept pending while the Framer waits. -/
def ringOverrun (n : LaneId) (r : Report) (s : State) : State :=
  if s.waiting (.framer n) then s.modFramer n fun f => { f with pendingOverrun := some r } else post (.framer n) r s

/-! ## The commands -/

def execSyncSearchTest (n : LaneId) (s : State) : Host.Outcome State Fault Refusal := runStep s (syncSearchTest n)

def execSyncConfirm (n : LaneId) (s : State) : Host.Outcome State Fault Refusal := runStep s (syncConfirm n)

def execFrameTake (n : LaneId) (s : State) : Host.Outcome State Fault Refusal := runStep s (frameTake n)

end Sys2Proof.Machine
end

