-- ==== Sys2Proof/Machine/DecodeEngine.lean ====
section
/-! DEFINITION. The Decode Engine (08): DECODE_TAKE, EXPANSION_COMPLETE, SIGHTING, RESTORE_ENTRY_WRITE, END_EVALUATION and
RESTORE_CONSUMER_TAKE, and what an abort or a LANE_RESET removes (R124). -/

namespace Sys2Proof.Machine

open Sys2Proof

/-! ## The queue and the holding list (R118) -/

/-- Framers at the head of the holding list join the queue, one for each free place; answers their lanes. The first argument
bounds their number. -/
def admitHolding : Nat → State → State × List LaneId
  | 0, s => (s, [])
  | m + 1, s =>
    match s.de.holding with
    | [] => (s, [])
    | n :: rest =>
      if s.de.queue.length < 8 then
        let s := { s with de.holding := rest }
        let s := match s.framers[n].assembler with
          | .hold a => joinQueue n a s
          | _ => s
        let r := admitHolding m s
        (r.1, n :: r.2)
      else (s, [])

/-- Places of the queue have been freed: holding Framers are admitted, in list order, and finish their frames. -/
def freedPlaces (s : State) : State :=
  let r := admitHolding s.de.holding.length s
  r.2.foldl (fun s n => framerSignal n .admitted s) r.1

/-- The Decode Engine no longer needs a segment of a lane: its Framer recomputes the consumed mark (R102, R120). -/
def segmentRead (n : LaneId) (s : State) : State := framerSettle n s

/-- DECODE_TAKE (R119): the idle engine, with no end evaluation due, takes the oldest entry.
The expansion buffer and the output check start over here, whatever the last decode left in them.
DESIGN CHOICE: a step of its own, and what they hold before it; notes/assumptions/19.md, 48.md. -/
def decodeTake (s : State) : State :=
  match s.de.operation, s.de.due, s.de.queue with
  | none, [], e :: queue =>
    freedPlaces { s with de := { s.de with
      queue := queue, operation := some (.decode { entry := e, ring := s.returnRing e.lane }), buffer := [], outputCheck := crcStart } }
  | _, _, _ => s

/-! ## Expansion (R120 to R123) -/

/-- The input of a decode: the bytes of its pieces in the return ring of the layout it was taken under (R120, R125). -/
def State.decodeInput (s : State) (d : Decode) : List Byte :=
  d.entry.pieces.flatMap fun p => ringBytes s.mem d.ring p.position p.length

/-- The result of an expansion, from its fault and the running output check. -/
def expansionResult (e : DecodeEntry) (fault : Option DecodeFault) (check : Word) : DecodeResult :=
  match fault with
  | some r => .decodeFault r
  | none => if ~~~ check = e.header.rawCheck then .good else .checkFault

/-- The decode has ended: the engine is idle, and the job's end evaluation may be due (R127).
DESIGN CHOICE: the expansion buffer and the output check stay; notes/assumptions/48.md. -/
def finishDecode (k : SlotId) (s : State) : State := dueCheck k { s with de.operation := none }

/-- The counters and the last faulted decode of an unmarked decode (R123). -/
def countDecode (e : DecodeEntry) (r : DecodeResult) (s : State) : State :=
  let s := s.modCounters e.slot fun c =>
    { c with segments := satInc c.segments, faulted := if r = .good then c.faulted else satInc c.faulted }
  if r = .good then s else s.modRestore e.slot fun x => { x with lastFault := some (r, e.header.sequence) }

/-- EXPANSION_COMPLETE (R123, R124). A RESTORE decode below the expected sequence is settled at once (R130).
DESIGN CHOICE: the expansion buffer and the output check keep what the expansion produced, a partial output (R122) and the
output of a marked decode too, until the next take; notes/assumptions/48.md. -/
def expansionComplete (s : State) : State :=
  match s.de.operation with
  | some (.decode d) =>
    if d.result.isSome then s
    else
      let e := d.entry
      let x := expandSegment e.header.mode e.header.rawLength (s.decodeInput d)
      let out := x.output.toList
      let check := crcUpdate crcStart out
      let r := expansionResult e x.fault check
      let s := { s with de := { s.de with
        buffer := out, outputCheck := check
        operation := if d.discard then none else some (.decode { d with result := some r, check := check }) } }
      let s := if d.discard then s else countDecode e r s
      let s := if d.linked then segmentRead e.lane s else s
      if !d.discard && decide (e.kind = .restore ∧ e.header.sequence.toNat < s.de.slots[e.slot].expected) then
        finishDecode e.slot s
      else s
  | _ => s

/-! ## Verify (R126, R128) -/

/-- The counter that a sighting's result raises (R126). -/
def Counters.sighted (c : Counters) : SightingResult → Counters
  | .matchedGood => { c with verified := satInc c.verified }
  | .matchedBad => { c with failed := satInc c.failed }
  | .notFound => { c with uncatalogued := satInc c.uncatalogued }

/-- SIGHTING: a VERIFY decode in SETTLING asks the catalog for its sighting (R98, R126). -/
def sighting (s : State) : State :=
  match s.de.operation with
  | some (.decode d) =>
    match d.result with
    | none => s
    | some r =>
      if d.entry.kind = .verify ∧ s.sc.operation = none then
        let e := d.entry
        let x := catalogSighting (s.cartLabel s.jt.jobs[e.slot].record.cart) e.frame e.offset (decide (r = .good)) (~~~ d.check) s
        finishDecode e.slot (x.1.modCounters e.slot fun c => c.sighted x.2)
      else s
  | _ => s

/-- The request is a LANE_RESET of a lane that waits with its reservation held. -/
def InHand.resetsLane (h : InHand) (n : LaneId) : Bool :=
  h.reserved && decide (recordKind h.bytes = some .laneReset ∧ argByte h.bytes 4 = n.val)

/-- The record is that of a RESTORE job of the lane. -/
def JobRecord.restoresOn (r : JobRecord) (n : LaneId) : Bool := decide (r.kind = .restore ∧ r.lane = n)

/-- The end evaluation of a RESTORE job of the lane is done and the job has not ended: while the Job Table waits on a post it
holds the Decode Engine's signal, or the job's own JOB_DONE, of outcome COMPLETE, is what it waits on (R46, R132). -/
def State.restoreEvaluatedOn (s : State) (n : LaneId) : Bool :=
  s.waiting .jobTable &&
    ((s.jt.held.any fun x => match x with
        | .evaluationDone k => s.jt.jobs[k].record.restoresOn n
        | _ => false)
      || s.re.waiters.any fun w => match w.item with
        | .post (.jobDone _ r .complete) => r.restoresOn n
        | _ => false)

/-- The request obtains its reservation. A LANE_RESET that obtains it after the end evaluation of a RESTORE job of its lane is
done, while the job has not ended, waits for the job's end and has met the evaluation (R132). R127 speaks only of a VERIFY
evaluation in flight, so a LANE_RESET that obtains its reservation after one is done acts as R87 says.
DEDUCED where the RESTORE evaluation needed no trailing entry; notes/assumptions/43.md. -/
def InHand.reserve (h : InHand) (s : State) : InHand :=
  let held := { h with reserved := true }
  { held with metEvaluation := h.metEvaluation || (List.finRange 4).any fun n => held.resetsLane n && s.restoreEvaluatedOn n }

/-- A LANE_RESET that waits with its reservation held when an end evaluation of its lane is done has met the evaluation (R127,
R132); one that obtains its reservation later, before a RESTORE job has ended, has met it too (InHand.reserve).
DEDUCED: the evaluation is one step, so these are the requests that waited for it; notes/assumptions/43.md. -/
def meetEvaluation (n : LaneId) (s : State) : State :=
  { s with re.inHand := s.re.inHand.map fun h => if h.resetsLane n then { h with metEvaluation := true } else h }

/-- The evaluation is done: the Job Table ends the job (R127). -/
def evaluationDone (k : SlotId) (s : State) : State :=
  jobSignals [.evaluationDone k] { meetEvaluation s.jt.jobs[k].record.lane s with de.operation := none }

/-- The cartridge record after a verify's evaluation (R128 steps 3 and 4). -/
def CartRecord.judged (c : CartRecord) (r : JobRecord) : CartRecord :=
  if r.counters.failed = 0 ∧ r.counters.missing = 0 ∧ r.counters.groupCheckFailures = 0 then
    if r.firstGroup.toNat ≤ c.verified.toNat ∧ c.verified.toNat < r.lastGroup.toNat + 1 then
      { c with verified := r.lastGroup + 1 }
    else c
  else { c with condition := .suspect }

/-- A VERIFY end evaluation, whole (R128). -/
def verifyEvaluation (k : SlotId) (s : State) : State :=
  let r := s.jt.jobs[k].record
  let x := missingSweep (s.cartLabel r.cart) r.firstGroup r.lastGroup s
  let s := x.1.modCounters k fun c => { c with missing := satAdd c.missing x.2 }
  let r := s.jt.jobs[k].record
  evaluationDone k (s.modCart r.cart fun c => c.judged r)

/-! ## Restore (R129 to R132) -/

/-- A job's restore ring. -/
def JobRecord.ring (r : JobRecord) : Window := { base := r.ringBase.toNat, size := r.ringSize.toNat }

/-- Write an entry: its data, then its descriptor, then Pr advances (R131). -/
def writeEntry (k : SlotId) (descriptor data : List Byte) (s : State) : State :=
  let w := s.jt.jobs[k].record.ring
  let p := s.de.slots[k].producer
  let m := ringWrite s.mem w (p + 16) data
  { s with mem := ringWrite m w p descriptor }.modRestore k fun x =>
    { x with producer := x.producer + BitVec.ofNat 32 (16 + data.length) }

/-- Write a MISSING entry from the expected sequence up to, not including, a sequence; at most 0xFFFF_FFFF of them (R130). -/
def writeMissing (k : SlotId) (upTo : Nat) (s : State) : State :=
  let x := s.de.slots[k].expected
  let count := min (upTo - x) 4294967295
  let s := writeEntry k (descriptorBytes x count 0 .missing) [] s
  (s.modCounters k fun c => { c with missing := satAdd c.missing count }).modRestore k fun r => { r with expected := x + count }

/-- Write the segment's own entry: GOOD with its bytes padded to a multiple of 16, or FAULTED (R129, R130). -/
def writeOwn (e : DecodeEntry) (good : Bool) (s : State) : State :=
  let seq := e.header.sequence.toNat
  let n := e.header.rawLength
  let s :=
    if good then
      (writeEntry e.slot (descriptorBytes seq 1 n .good) (padded ((n + 15) / 16 * 16) s.de.buffer) s).modCounters e.slot
        fun c => { c with rawBytes := c.rawBytes + BitVec.ofNat 64 n }
    else writeEntry e.slot (descriptorBytes seq 1 0 .faulted) [] s
  s.modRestore e.slot fun r => { r with expected := seq + 1 }

/-- The next entry of a RESTORE decode in SETTLING, once the ring has room for it (R130, R131); a segment below the expected
sequence needs none. -/
def settleRestore (d : Decode) (r : DecodeResult) (s : State) : State :=
  let e := d.entry
  let x := s.de.slots[e.slot].expected
  let seq := e.header.sequence.toNat
  let last := s.jt.jobs[e.slot].record.lastChunk.toNat
  if seq < x then finishDecode e.slot s
  else if s.restoreRoom e.slot < { d with result := some r }.entrySize x then s
  else if x < seq then
    let s := writeMissing e.slot (min seq (last + 1)) s
    if last < s.de.slots[e.slot].expected then finishDecode e.slot s else s
  else if seq ≤ last then finishDecode e.slot (writeOwn e (decide (r = .good)) s)
  else finishDecode e.slot s

/-- The next trailing MISSING entry of a RESTORE end evaluation, or its end (R132). The first argument bounds the entries. -/
def trailingMissing (k : SlotId) : Nat → State → State
  | 0, s => s
  | m + 1, s =>
    let last := s.jt.jobs[k].record.lastChunk.toNat
    if last < s.de.slots[k].expected then evaluationDone k s
    else if s.restoreRoom k < 16 then s
    else
      let s := writeMissing k (last + 1) s
      if last < s.de.slots[k].expected then evaluationDone k s else trailingMissing k m s

/-- RESTORE_ENTRY_WRITE (R131): the entry that the operation in flight waits to write. -/
def restoreEntryWrite (s : State) : State :=
  match s.de.operation with
  | some (.decode d) =>
    match d.result with
    | none => s
    | some r => if d.entry.kind = .restore then settleRestore d r s else s
  | some (.evaluation k) => trailingMissing k 1 s
  | none => s

/-- END_EVALUATION (R119, R127): the idle engine takes the job at the head of the due list. -/
def endEvaluation (s : State) : State :=
  match s.de.operation, s.de.due with
  | none, k :: due =>
    let s := { s with de := { s.de with due := due, operation := some (.evaluation k) } }
    match s.jt.jobs[k].record.kind with
    | .verify => verifyEvaluation k s
    | _ => trailingMissing k 2 s
  | _, _ => s

/-- RESTORE_CONSUMER_TAKE (R133). -/
def restoreConsumerTake (k : SlotId) (s : State) : State :=
  let latch := s.wd.restoreConsumerLatch[k]
  if latch.pending ∧ s.jt.jobs[k].live ∧ s.jt.jobs[k].record.kind = .restore then
    let s := { s with wd.restoreConsumerLatch := s.wd.restoreConsumerLatch.set k { latch with pending := false } }
    let x := s.de.slots[k]
    if ahead latch.value x.consumer ≤ ahead x.producer x.consumer then s.modRestore k fun x => { x with consumer := latch.value }
    else s
  else s

/-! ## Aborts and lane resets (R124, R127, R132) -/

/-- Remove the queue entries that a test names, mark a decode in flight for discard or end it while it settles, end an
evaluation in flight, and take jobs off the due list.
DESIGN CHOICE: the expansion buffer and the output check stay; notes/assumptions/48.md. -/
def discardDecoding (entry : DecodeEntry → Bool) (job : SlotId → Bool) (s : State) : State :=
  let operation := match s.de.operation with
    | some (.decode d) =>
      if entry d.entry then (if d.result.isSome then none else some (.decode { d with discard := true }))
      else some (.decode d)
    | some (.evaluation k) => if job k then none else some (.evaluation k)
    | none => none
  { s with de := { s.de with
    queue := s.de.queue.filter fun e => !entry e, due := s.de.due.filter fun k => !job k, operation := operation } }

/-- A VERIFY or RESTORE job is aborted: the Framer is STOPPED and the Decode Engine gives up what it holds for it (R42).
DESIGN CHOICE: the Framers admitted to the freed places finish their frames here, so their reports come before the job's
JOB_DONE; notes/assumptions/51.md. -/
def abortReading (k : SlotId) (s : State) : State :=
  let n := s.jt.jobs[k].record.lane
  let s := stopFramer n s
  let s := discardDecoding (fun e => decide (e.slot = k)) (fun j => decide (j = k)) s
  freedPlaces (segmentRead n s)

/-- A LANE_RESET of a lane on the reading side: the Framer is unbound and the Decode Engine gives up the lane's work (R117).
DESIGN CHOICE: the Framers admitted to the freed places finish their frames here, so their reports come before the JOB_DONE of
the lane's job; notes/assumptions/51.md. -/
def resetReading (n : LaneId) (s : State) : State :=
  let s := unbindFramer n s
  freedPlaces (discardDecoding (fun e => decide (e.lane = n)) (fun j => decide (s.jt.jobs[j].record.lane = n)) s)

/-! ## The commands -/

def execDecodeTake (s : State) : Host.Outcome State Fault Refusal := runStep s decodeTake

def execExpansionComplete (s : State) : Host.Outcome State Fault Refusal := runStep s expansionComplete

def execSighting (s : State) : Host.Outcome State Fault Refusal := runStep s sighting

def execRestoreEntryWrite (s : State) : Host.Outcome State Fault Refusal := runStep s restoreEntryWrite

def execEndEvaluation (s : State) : Host.Outcome State Fault Refusal := runStep s endEvaluation

def execRestoreConsumerTake (k : SlotId) (s : State) : Host.Outcome State Fault Refusal := runStep s (restoreConsumerTake k)

end Sys2Proof.Machine
end

