-- ==== Sys2Proof/Machine/Directory.lean ====
section
/-! DEFINITION. The Cartridge Directory's own changes: the place map and its records kept together (R137, R143), the picker's
sensing, the comparison of labels (R142), doors (R144) and CARTRIDGE_SET (R140). -/

namespace Sys2Proof.Machine

open Sys2Proof

/-! ## Places and records (R137) -/

def State.placeState (s : State) (p : PlaceId) : PlaceState := s.cd.places[p].state

def setPlaceState (p : PlaceId) (x : PlaceState) (s : State) : State :=
  { s with cd.places := s.cd.places.set p { s.cd.places[p] with state := x } }

def setPending (p : PlaceId) (tag : Option Byte) (s : State) : State :=
  { s with cd.places := s.cd.places.set p { s.cd.places[p] with pending := tag } }

/-- The record of the cartridge at a place. -/
def State.placeRecord (s : State) (p : PlaceId) : Option CartRecord :=
  match s.placeState p with
  | .occupied c => s.cd.records[c]
  | _ => none

/-- A place becomes EMPTY or UNKNOWN; its record, if any, becomes free. -/
def vacate (p : PlaceId) (x : PlaceState) (s : State) : State :=
  match s.placeState p with
  | .occupied c => setPlaceState p x { s with cd.records := s.cd.records.set c none }
  | _ => setPlaceState p x s

/-- The lowest-numbered free record. -/
def State.freeRecord (s : State) : Option CartId := (finFilter 32 fun c => s.cd.records[c].isNone).head?

/-- A place becomes OCCUPIED by a new cartridge. -/
def newCartridge (p : PlaceId) (label : Option Label) (s : State) : State :=
  match s.freeRecord with
  | none => s
  | some c =>
    setPlaceState p (.occupied c) { s with cd.records := s.cd.records.set c (some { label := label, place := p }) }

/-- A cartridge moves from a place to another; its record may change with it. -/
def moveCartridge (source target : PlaceId) (f : CartRecord → CartRecord) (s : State) : State :=
  match s.placeState source with
  | .occupied c =>
    setPlaceState target (.occupied c) (setPlaceState source .empty (s.modCart c fun r => f { r with place := target }))
  | _ => s

/-- The PICKER is sensed from the picker's cartridge-present input (R143). -/
def sensePicker (s : State) : State :=
  match s.placeState pickerPlace with
  | .occupied _ => if s.lc.lines.cartridgePresent then s else vacate pickerPlace .empty s
  | _ => if s.lc.lines.cartridgePresent then newCartridge pickerPlace none s else s

/-! ## Doors (R144) -/

def Directory.door (cd : Directory) : Door → DoorState
  | .a => cd.doorA
  | .b => cd.doorB
  | .mail => cd.doorMail

def State.setDoor (s : State) (d : Door) (x : DoorState) : State :=
  match d with
  | .a => { s with cd.doorA := x }
  | .b => { s with cd.doorB := x }
  | .mail => { s with cd.doorMail := x }

/-- The places behind a door (R136). -/
def placesBehind (d : Door) : List PlaceId := (List.finRange 30).filter fun p => decide (doorOf p = some d)

/-- How many places of a list are OCCUPIED. -/
def State.occupiedCount (s : State) (ps : List PlaceId) : Nat := ps.countP fun p => (s.placeRecord p).isSome

/-- The directory's changes at an opening edge: the latch is set, and the places behind the door become UNKNOWN. -/
def openDoor (d : Door) (s : State) : State :=
  (placesBehind d).foldl (fun s p => vacate p .unknown s) (s.setDoor d { s.cd.door d with latch := true })

/-- A place lies behind a door whose latch is set. -/
def State.latched (s : State) (p : PlaceId) : Bool := (doorOf p).any fun d => (s.cd.door d).latch

/-! ## Labels (R142, R143) -/

/-- A record whose label differs takes the label read and starts over, its origin place kept. -/
def CartRecord.relabel (r : CartRecord) (label : Option Label) : CartRecord :=
  { r with label := label, written := 0, verified := 0, limit := 0, condition := .unset }

/-- The directory takes a label read of the cartridge at a place: a record is compared, and a place without one takes a new
record. -/
def takeLabel (p : PlaceId) (label : Option Label) (s : State) : State :=
  match s.placeState p with
  | .occupied c =>
    let old := s.cartLabel c
    if old = label then s
    else post .directory (.labelChanged p c old label) (s.modCart c fun r => r.relabel label)
  | _ => newCartridge p label s

/-! ## CARTRIDGE_SET (R140) -/

/-- The lowest-numbered record with a label. -/
def State.recordByLabel (s : State) (l : Label) : Option CartId :=
  (finFilter 32 fun c => s.cd.records[c].any fun r => decide (r.label = some l)).head?

/-- Checks 1 to 4: the record that the selector names. -/
def State.cartSelected (s : State) (r : List Byte) : Except Code CartId :=
  if argByte r 4 = 0 then
    match presentPlace s.driveCount (argByte r 5) with
    | none => .error .badArgument
    | some p =>
      match s.placeState p with
      | .unknown => .error .placeUnknown
      | .empty => .error .placeEmpty
      | .occupied c => .ok c
  else if argByte r 4 = 1 then
    if labelOk (argLabel r 8) then
      match s.recordByLabel (argLabel r 8) with
      | none => .error .placeUnknown
      | some c => .ok c
    else .error .badArgument
  else .error .badArgument

/-- The record's cartridge is in the drive of a lane whose role is not IDLE. -/
def State.cartBusy (s : State) (c : CartId) : Bool :=
  (List.finRange 4).any fun n => decide (s.driveCart n = some c) && decide (s.lanes[n].role ≠ .idle)

/-- The condition a CARTRIDGE_SET gives: 1 BLANK, 2 WRITTEN. -/
def recordCondition (r : List Byte) : Option Condition :=
  match argByte r 6 with
  | 1 => some .blank
  | 2 => some .written
  | _ => none

/-- The decision of CARTRIDGE_SET: the first refusal of R140, or the record and its values. -/
def State.cartridgeSetDecision (s : State) (r : List Byte) : Except Code (CartId × (CartRecord → CartRecord)) :=
  match s.cartSelected r with
  | .error c => .error c
  | .ok c =>
    if s.cartBusy c then .error .laneBusy
    else match recordCondition r with
      | none => .error .badArgument
      | some condition =>
        let g := argWord r 16
        let v := argWord r 20
        let l := argWord r 24
        if l = 0 ∨ g.toNat < v.toNat ∨ l.toNat < g.toNat ∨ (condition = .blank ∧ (g ≠ 0 ∨ v ≠ 0)) then .error .badArgument
        else .ok (c, fun x => { x with written := g, verified := v, limit := l, condition := condition })

end Sys2Proof.Machine
end

