-- ==== Sys2Proof/Machine/Loader.lean ====
section
/-! DEFINITION. The Loader Controller (10): orders, homing, travels, gripper steps, the label link, the survey, doors and
halts, and the commands of doors and of the loader. A station and the place it serves have the same number (R148). -/

namespace Sys2Proof.Machine

open Sys2Proof

/-! ## Outputs and timers (R149) -/

def modLoader (f : Loader → Loader) (s : State) : State := { s with lc := f s.lc }

/-- The safe levels: the motor stopped, the gripper driven toward retracted, the jaw as it is. -/
def Outputs.safe (o : Outputs) : Outputs := { o with motorRun := false, gripperExtend := false, gripperRetract := true }

/-- Every timer stopped, and a label read stopped: at once when no exchange is in progress, else after it (R160).
DESIGN CHOICE: an IDLE link shows attempt 0 and no bytes, and the exchange in progress keeps both; notes/assumptions/49.md. -/
def Loader.quiet (l : Loader) : Loader :=
  { l with
    markTimer := none, stepTimer := none, retryTimer := none
    exchange := l.exchange.map fun e => { e with stopped := true }
    exchanging := l.exchange.isSome
    attempt := if l.exchange.isSome then l.attempt else 0
    received := if l.exchange.isSome then l.received else [] }

/-- The station of a place. -/
def placeStation (p : PlaceId) : Int := p.val

/-! ## Posting ORDER_DONE (R153, R163) -/

/-- Post the ORDER_DONE reports still to be posted, one after another, until one waits. The first argument bounds their
number. -/
def drainPosts : Nat → State → State
  | 0, s => s
  | n + 1, s =>
    if s.waiting .loader then s
    else match s.lc.posts with
      | [] => s
      | r :: rest => drainPosts n (post .loader r { s with lc.posts := rest })

/-- The Loader Controller posts reports. -/
def loaderPost (rs : List Report) (s : State) : State :=
  let s := { s with lc.posts := s.lc.posts ++ rs }
  drainPosts s.lc.posts.length s

/-- The Loader Controller waits on a post.
DEDUCED: it waits on its own posts only; notes/assumptions/21.md. -/
def State.loaderWaits (s : State) : Bool := s.waiting .loader || !s.lc.posts.isEmpty

/-! ## Orders (R150) -/

/-- The places an order names and that carry its pending-order field. -/
def State.orderPlaces (s : State) (o : Order) : List PlaceId :=
  match o.scope with
  | some sc => scopePlaces s.driveCount sc
  | none => o.source.toList ++ o.target.toList

/-- The pending-order fields of an order's places become none. -/
def clearPending (o : Order) (s : State) : State := (s.orderPlaces o).foldl (fun s p => setPending p none s) s

/-- The active order: the head of the queue, once ACTIVE. -/
def State.activeOrder (s : State) : Option Order :=
  match s.lc.queue with
  | o :: _ => if o.active then some o else none
  | [] => none

/-- The ORDER_DONE of an order in the state it leaves, with the step at which it ended (R153).
DEDUCED where the spec is silent; notes/assumptions/15.md. -/
def State.orderDoneReport (s : State) (o : Order) (outcome : OrderOutcome) (step : Option ActiveStep) : Report :=
  .orderDone o.tag o.kind outcome (step.map fun x => x.kind) (step.map fun x => x.station) s.lc.state s.lc.station

/-- A label read that the directory has not taken is given up with its order (R160).
DEDUCED; notes/assumptions/17.md. -/
def dropLabel (s : State) : State :=
  { s with cd.held := s.cd.held.filter fun x => match x with | .label _ _ => false | .edge _ => true }

/-- The head order ends in one event (R153): its fields are cleared, the loader enters a state, the safe levels are set after
every outcome but DONE, and ORDER_DONE is posted. -/
def endOrder (outcome : OrderOutcome) (state : LoaderState) (station : Option Int) (s : State) : State :=
  match s.lc.queue with
  | [] => s
  | o :: rest =>
    let step := s.lc.step
    let s := dropLabel (clearPending o s)
    let s := modLoader (fun l => { l.quiet with
      state := state, station := station, queue := rest, step := none, travelCount := 0
      outputs := if outcome = .done then { l.outputs with motorRun := false } else l.outputs.safe }) s
    loaderPost [s.orderDoneReport o outcome step] s

/-- The order fails with a fault. -/
def failOrder (fault : LoaderFault) (state : LoaderState) (station : Option Int) (s : State) : State :=
  endOrder (.fault fault) state station s

/-- The order ends DONE. -/
def orderDone (s : State) : State := endOrder .done .idle s.lc.station s

/-! ## Gripper steps (R156) -/

def Outputs.extend (o : Outputs) : Outputs := { o with gripperExtend := true, gripperRetract := false }
def Outputs.retract (o : Outputs) : Outputs := { o with gripperExtend := false, gripperRetract := true }
def Outputs.openJaw (o : Outputs) : Outputs := { o with jawOpen := true, jawClose := false }
def Outputs.closeJaw (o : Outputs) : Outputs := { o with jawOpen := false, jawClose := true }

/-- The output a gripper step drives. -/
def Outputs.drive (o : Outputs) : StepPart → Outputs
  | .jawOpening => o.openJaw
  | .extending => o.extend
  | .jawClosing => o.closeJaw
  | .retracting | .retractFirst => o.retract
  | _ => o

/-- The input a gripper step waits for is asserted. -/
def stepInput (x : Lines) : StepPart → Bool
  | .jawOpening => x.jawOpen
  | .extending => x.extended
  | .jawClosing => x.gripped
  | .retracting | .retractFirst => x.retracted
  | _ => false

/-- A gripper step: its output is driven, and it completes at once when its input is asserted; else its timer starts. -/
def gripperStep (part : StepPart) (completed : State → State) (s : State) : State :=
  let s := modLoader (fun l => { l with
    outputs := l.outputs.drive part
    step := l.step.map fun x => { x with part := part } }) s
  if stepInput s.lc.lines part then completed s
  else { s with lc.stepTimer := some (s.startTimer s.re.loaderSettings.stepTimeout) }

/-! ## The rail (R149, R154, R155) -/

/-- The rail motor starts, toward a side, with the mark timer. -/
def startMotor (towardHome : Bool) (count : Nat) (s : State) : State :=
  modLoader (fun l => { l with
    step := l.step.map fun x => { x with part := .moving }
    travelCount := count
    outputs := { l.outputs with motorRun := true, towardHome := towardHome }
    markTimer := some (s.startTimer s.re.loaderSettings.markTimeout) }) s

/-- The travel's retract step is done: the motor starts with the distance as the travel count. -/
def startRail (target : Int) (s : State) : State :=
  let here := s.lc.station.getD (-1)
  startMotor (decide (target < here)) (target - here).natAbs s

/-- A travel to another station begins (R155). -/
def beginMotion (target : Int) (s : State) : State :=
  let s := { s with lc.step := some { kind := .travel, station := target, part := .moving } }
  if s.lc.lines.retracted then startRail target s else gripperStep .retractFirst (startRail target) s

/-! ## The label link (R160) -/

/-- The byte that asks the reader for its status. -/
def statusByte : Byte := 0x4C

/-- The byte sent in each exchange after READY. -/
def labelByte : Byte := 0x00

/-- An exchange begins: the Loader Controller sends a byte and waits up to 5 ms. -/
def startExchange (sent : Byte) (s : State) : State :=
  { s with lc.exchange := some { sent := sent, limit := s.startTimer 5 } }

/-- An attempt begins. -/
def startAttempt (s : State) : State :=
  startExchange statusByte (modLoader (fun l => { l with attempt := l.attempt + 1, received := [], retryTimer := none }) s)

/-- A label read begins, once the exchange of a stopped read, if one is in progress, is over.
DESIGN CHOICE: the new read waits for that exchange, and shows attempt 0 and no bytes meanwhile; notes/assumptions/36.md,
49.md. -/
def startRead (s : State) : State :=
  let s := modLoader (fun l => { l with
    step := l.step.map fun x => { x with part := .reading }
    exchanging := true, attempt := 0, received := [] }) s
  if s.lc.exchange.isSome then s else startAttempt s

/-- The exchange of a stopped read is over: the link is IDLE, or the read that waits for it begins (R160).
DESIGN CHOICE; notes/assumptions/36.md, 49.md. -/
def stoppedExchangeOver (s : State) : State :=
  if s.lc.step.any fun x => decide (x.part = .reading) then startAttempt s
  else modLoader (fun l => { l with exchange := none, exchanging := false, attempt := 0, received := [] }) s

/-! ## Survey (R161) -/

/-- The places of the active order's scope beyond its station, the next one first. -/
def State.scopeRest (s : State) : List PlaceId :=
  match s.activeOrder.bind fun o => o.scope with
  | none => []
  | some sc => (scopePlaces s.driveCount sc).filter fun p => decide (s.lc.station.getD (-1) < placeStation p)

/-- An INVENTORY ends DONE: the latch of its scope's door is cleared if the door is CLOSED. -/
def inventoryDone (s : State) : State :=
  match (s.activeOrder.bind fun o => o.scope).bind scopeDoor with
  | none => orderDone s
  | some d =>
    if (s.cd.door d).isOpen then orderDone s else orderDone (s.setDoor d { s.cd.door d with latch := false })

/-- The survey of a station has ended: the next station of the scope, or the end of the order. -/
def surveyNext (s : State) : State :=
  match s.scopeRest with
  | [] => inventoryDone s
  | p :: _ => beginMotion (placeStation p) s

/-- The place at the picker's station. -/
def State.stationPlace (s : State) : Option PlaceId :=
  match s.lc.station with
  | none => none
  | some i => if h : i.toNat < 30 then (if 0 ≤ i then some ⟨i.toNat, h⟩ else none) else none

/-- A survey begins: slot presence is sampled. -/
def startSurvey (s : State) : State :=
  match s.stationPlace with
  | none => s
  | some p =>
    let s := { s with lc.step := some { kind := .survey, station := placeStation p, part := .reading } }
    if s.lc.lines.slotPresence then startRead s else surveyNext (vacate p .empty s)

/-! ## GET (R157) -/

/-- The step of a GET or PUT at a station. -/
def setStep (kind : StepKind) (part : StepPart) (s : State) : State :=
  { s with lc.step := some { kind := kind, station := s.lc.station.getD (-1), part := part } }

/-- GET step 5: the cartridge has moved to the PICKER, and its label is read. -/
def getRetracted (s : State) : State :=
  match s.activeOrder.bind fun o => o.source with
  | none => s
  | some p =>
    let s := moveCartridge p pickerPlace (fun r => if isDrive p then { r with origin := none } else r) s
    startRead (setStep .labelRead .reading s)

/-- GET step 4, after cartridge-present has been sampled. -/
def getGripped (s : State) : State :=
  if s.lc.lines.cartridgePresent then gripperStep .retracting getRetracted s
  else match s.activeOrder.bind fun o => o.source with
    | none => s
    | some p => failOrder .sourceEmpty .idle s.lc.station (vacate p .empty s)

/-- GET step 3. -/
def getExtended (s : State) : State := gripperStep .jawClosing getGripped s

/-- GET step 2. -/
def getOpened (s : State) : State := gripperStep .extending getExtended s

/-- GET begins: an open step if the jaw is not open. -/
def startGet (s : State) : State :=
  let s := setStep .get .jawOpening s
  if s.lc.lines.jawOpen then getOpened s else gripperStep .jawOpening getOpened s

/-! ## PUT (R158) -/

/-- PUT step 4 is done: the cartridge is at the target, and the order ends DONE. -/
def putRetracted (s : State) : State :=
  match s.activeOrder with
  | none => s
  | some o =>
    match o.target with
    | none => s
    | some p =>
      orderDone (moveCartridge pickerPlace p (fun r => if o.kind = .mount then { r with origin := o.source } else r) s)

/-- PUT step 4. -/
def putOpened (s : State) : State := gripperStep .retracting putRetracted s

/-- PUT step 3. -/
def putExtended (s : State) : State := gripperStep .jawOpening putOpened s

/-- PUT begins: slot presence is sampled. -/
def startPut (s : State) : State :=
  let s := setStep .put .extending s
  if s.lc.lines.slotPresence then
    match s.activeOrder.bind fun o => o.target with
    | none => s
    | some p => failOrder .targetOccupied .idle s.lc.station (vacate p .unknown s)
  else gripperStep .extending putExtended s

/-! ## Travel's end -/

/-- The picker stands at a station that the order names: GET at the source, PUT at the target, SURVEY for an INVENTORY. -/
def arrive (station : Int) (s : State) : State :=
  let s := { s with lc.station := some station }
  match s.activeOrder with
  | none => s
  | some o =>
    if o.scope.isSome then startSurvey s
    else if o.source.map placeStation = some station then startGet s
    else startPut s

/-- A travel (R155): at once when the picker stands there. -/
def startTravel (target : Int) (s : State) : State :=
  if s.lc.station = some target then
    arrive target { s with lc.step := some { kind := .travel, station := target, part := .moving } }
  else beginMotion target s

/-- The station of the order's first travel. -/
def State.firstStation (s : State) (o : Order) : Int :=
  match o.scope with
  | some sc => match scopePlaces s.driveCount sc with
    | p :: _ => placeStation p
    | [] => 0
  | none => match o.source.or o.target with
    | some p => placeStation p
    | none => 0

/-- The order's steps begin. -/
def beginSteps (s : State) : State :=
  match s.activeOrder with
  | none => s
  | some o => startTravel (s.firstStation o) s

/-! ## Homing (R154) -/

/-- Homing ends at station -1 and the order goes on with its first travel. -/
def homingEnded (s : State) : State :=
  beginSteps (modLoader (fun l => { l with
    state := .busy, station := some (-1), markTimer := none, outputs := { l.outputs with motorRun := false } }) s)

/-- The retract step before homing is done. -/
def homingRetracted (s : State) : State :=
  if s.lc.lines.home then homingEnded s else startMotor true 0 s

/-- Homing begins. -/
def startHoming (s : State) : State :=
  let s := modLoader (fun l => { l with
    state := .homing, step := some { kind := .homing, station := -1, part := .moving } }) s
  if s.lc.lines.retracted then homingRetracted s else gripperStep .retractFirst homingRetracted s

/-! ## Acceptance and activation (R151 to R153) -/

/-- Check 1 for a MOUNT's source (R151): a place, or the place of the lowest record with a label.
The order of the tests inside the check is DEDUCED; notes/assumptions/29.md. -/
def State.mountSource (s : State) (r : List Byte) : Except Code (PlaceId × Option Label) :=
  if argByte r 4 = 0xFF then
    match (s.recordByLabel (argLabel r 8)).bind fun c => s.cd.records[c] with
    | none => .error .placeUnknown
    | some c => if isShelf c.place then .ok (c.place, some (argLabel r 8)) else .error .badArgument
  else match presentPlace s.driveCount (argByte r 4) with
    | none => .error .badArgument
    | some p => if isShelf p then .ok (p, none) else .error .badArgument

/-- A place argument of a class. -/
def State.placeArg (s : State) (r : List Byte) (offset : Nat) (ok : PlaceId → Bool) : Option PlaceId :=
  (presentPlace s.driveCount (argByte r offset)).filter ok

/-- Check 1 of R152: the order that a record's arguments describe (R151).
The order of the tests inside the check is DEDUCED; notes/assumptions/29.md. -/
def State.recordOrder (s : State) (kind : OrderKind) (r : List Byte) : Except Code Order :=
  let tag : Byte := BitVec.ofNat 8 (recordTag r)
  match kind with
  | .move =>
    match s.placeArg r 4 isShelf, s.placeArg r 5 isShelf with
    | some a, some b => if a = b then .error .badArgument else .ok { tag := tag, kind := kind, source := some a, target := some b }
    | _, _ => .error .badArgument
  | .mount =>
    match s.placeArg r 5 isDrive with
    | none => .error .badArgument
    | some b =>
      match s.mountSource r with
      | .error c => .error c
      | .ok (a, label) => .ok { tag := tag, kind := kind, source := some a, target := some b, label := label }
  | .dismount =>
    match s.placeArg r 4 isDrive with
    | none => .error .badArgument
    | some a =>
      if argByte r 5 = 0xFF then
        match s.placeRecord a with
        | none => .ok { tag := tag, kind := kind, source := some a }
        | some c =>
          if c.origin.isNone then .error .badArgument else .ok { tag := tag, kind := kind, source := some a, target := c.origin }
      else match s.placeArg r 5 isShelf with
        | none => .error .badArgument
        | some b => .ok { tag := tag, kind := kind, source := some a, target := some b }
  | .inventory =>
    match scopeOf (argByte r 4) with
    | none => .error .badArgument
    | some sc => .ok { tag := tag, kind := kind, scope := some sc }
  | .pickerPut =>
    match s.placeArg r 5 fun p => decide (p ≠ pickerPlace) with
    | none => .error .badArgument
    | some b => .ok { tag := tag, kind := kind, target := some b }

/-- The picker's load differs from the one an order needs (R151, check 10). -/
def State.loadRefusal (s : State) (o : Order) : Option Code :=
  let loaded := match s.placeState pickerPlace with | .occupied _ => true | _ => false
  match o.kind with
  | .inventory => none
  | .pickerPut => if loaded then none else some .pickerEmpty
  | _ => if loaded then some .pickerHolding else none

/-- Checks 4 to 9 of R152; a pending-order field that names `own` is passed over. -/
def State.orderRefusal (s : State) (o : Order) (own : Option Byte) : Option Code :=
  let places := s.orderPlaces o
  let named := o.source.toList ++ o.target.toList
  if places.any fun p => (s.cd.places[p].pending).any fun t => decide (own ≠ some t) then some .placePending
  else if (List.finRange 4).any fun n => places.contains (drivePlace n) && decide (s.lanes[n].role ≠ .idle) then some .laneBusy
  else if o.kind ≠ .inventory ∧ named.any fun p => decide (s.placeState p = .unknown) || s.latched p then some .placeUnknown
  else if o.source.any fun p => decide (s.placeState p = .empty) then some .placeEmpty
  else if o.target.any fun p => (s.placeRecord p).isSome then some .placeOccupied
  else if (o.scope.bind scopeDoor).any fun d => (s.cd.door d).isOpen then some .doorOpen
  else none

/-- The decision of an order request: the first refusal of R152, or the order. -/
def State.orderDecision (s : State) (kind : OrderKind) (r : List Byte) : Except Code Order :=
  match s.recordOrder kind r with
  | .error c => .error c
  | .ok o =>
    if s.lc.state = .halted then .error .loaderHalted
    else if 16 ≤ s.lc.queue.length then .error .queueFull
    else match s.orderRefusal o none with
      | some c => .error c
      | none =>
        if s.lc.queue.isEmpty then (match s.loadRefusal o with | some c => .error c | none => .ok o) else .ok o

/-- An accepted order joins the tail of the queue with its pending-order fields set (R152). -/
def queueOrder (o : Order) (s : State) : State :=
  let s := (s.orderPlaces o).foldl (fun s p => setPending p (some o.tag) s) s
  { s with lc.queue := s.lc.queue ++ [o] }

/-- The head order may become ACTIVE (R153). -/
def State.canActivate (s : State) : Bool :=
  decide (s.lc.state = .idle ∨ s.lc.state = .unhomed) && !s.loaderWaits && s.lc.queue.head?.any fun o => !o.active

/-- The head order becomes ACTIVE and is re-validated; it homes first, begins its steps, or ends at once (R153).
Called by an acceptance into an empty queue and by ORDER_ACTIVATE, DEDUCED; notes/assumptions/16.md. -/
def activateOrder (s : State) : State :=
  if s.canActivate then
    match s.lc.queue with
    | [] => s
    | o :: rest =>
      match (s.orderRefusal o (some o.tag)).or (s.loadRefusal o) with
      | some c => endOrder (.refused c) s.lc.state s.lc.station s
      | none =>
        let s := { s with lc.queue := { o with active := true } :: rest }
        if s.lc.state = .unhomed then startHoming s else beginSteps { s with lc.state := .busy }
  else s

/-! ## Label reads handed to the directory (R145, R157, R161) -/

/-- The directory has taken the label of the read under way: GET or the survey goes on.
DEDUCED; notes/assumptions/21.md. -/
def labelDone (s : State) : State :=
  match s.lc.step with
  | none => s
  | some x =>
    if x.part = .labelHanded then
      match x.kind with
      | .labelRead => match s.activeOrder.bind fun o => o.target with
        | none => s
        | some p => startTravel (placeStation p) s
      | .survey => surveyNext s
      | _ => s
    else s

/-- The directory takes a label, and the step goes on unless the directory's post waits. -/
def labelTaken (p : PlaceId) (label : Option Label) (s : State) : State :=
  let s := takeLabel p label s
  if s.waiting .directory then s else labelDone s

/-- The read has ended: its result goes to the directory, which holds it while its post waits.
DEDUCED; notes/assumptions/17.md. DESIGN CHOICE: the IDLE link shows attempt 0 and no bytes; notes/assumptions/49.md. -/
def readEnded (label : Option Label) (s : State) : State :=
  let place := match s.lc.step.map fun x => x.kind with
    | some .survey => s.stationPlace
    | _ => some pickerPlace
  let s := modLoader (fun l => { l with
    step := l.step.map (fun x => { x with part := .labelHanded })
    exchange := none, exchanging := false, attempt := 0, received := [], retryTimer := none }) s
  match place with
  | none => s
  | some p =>
    if s.waiting .directory then { s with cd.held := s.cd.held ++ [.label p label] } else labelTaken p label s

/-- An attempt has ended unsuccessful: the retry timer runs, or after the fifth the read ends with no label (R160).
DESIGN CHOICE: while the retry timer runs the link shows the number of the attempt that has ended and no bytes;
notes/assumptions/49.md. -/
def attemptFailed (s : State) : State :=
  if 5 ≤ s.lc.attempt then readEnded none s
  else modLoader (fun l => { l with received := [], exchange := none, retryTimer := some (s.startTimer 20) }) s

/-- A byte has been received in the exchange under way (R160).
DESIGN CHOICE: the byte that ends an attempt, a status other than READY or the check byte, is not kept;
notes/assumptions/49.md. -/
def receiveByte (b : Byte) (s : State) : State :=
  let received := s.lc.received ++ [b]
  if s.lc.received.isEmpty then
    if b = 1 then startExchange labelByte { s with lc.received := received }
    else if b = 2 then readEnded none s
    else attemptFailed s
  else if received.length < 10 then startExchange labelByte { s with lc.received := received }
  else
    let chars := (received.drop 1).take 8
    if byteSum chars = b then
      let label : Label := Vector.ofFn fun i : Fin 8 => chars.getD i.val 0
      readEnded (if labelOk label then some label else none) s
    else attemptFailed s

/-! ## Doors during an order (R162) -/

/-- The place of the gripper step in progress: the source of a GET, the target of a PUT. -/
def State.gripperPlace (s : State) : Option PlaceId :=
  match s.lc.step, s.activeOrder with
  | some x, some o =>
    match x.kind with
    | .get => o.source
    | .put => o.target
    | _ => none
  | _, _ => none

/-- The place under a gripper step becomes UNKNOWN, and the PICKER is sensed.
DEDUCED: sensed at every halt and door failure; notes/assumptions/28.md. -/
def interruptGripper (s : State) : State :=
  match s.gripperPlace with
  | none => sensePicker s
  | some p => sensePicker (if s.placeState p = .unknown then s else vacate p .unknown s)

/-- The Loader Controller takes a door's signal (R162).
DESIGN CHOICE: an order in the retract step before its travel is travelling; notes/assumptions/39.md. -/
def loaderDoor (d : Door) (s : State) : State :=
  match s.activeOrder with
  | none => s
  | some o =>
    if (s.orderPlaces o).any fun p => decide (doorOf p = some d) then
      let moving := match s.lc.step.map fun x => x.kind with
        | some .homing | some .travel => true
        | _ => false
      let s := interruptGripper s
      if moving then failOrder .doorOpened .unhomed none s else failOrder .doorOpened .idle s.lc.station s
    else s

/-- The directory signals a door, and the Loader Controller holds the signal while it waits on a post (R153). -/
def signalDoor (d : Door) (s : State) : State :=
  if s.loaderWaits then modLoader (fun l => { l with heldDoors := l.heldDoors ++ [d] }) s else loaderDoor d s

/-- The directory takes an opening edge: its changes, the signal to the loader, then DOOR_OPENED (R144).
DEDUCED: an ORDER_DONE comes before DOOR_OPENED; notes/assumptions/11.md. -/
def takeEdge (d : Door) (s : State) : State :=
  let freed := s.occupiedCount (placesBehind d)
  post .directory (.doorOpened d freed) (signalDoor d (openDoor d s))

/-- Held door signals of the loader, oldest first. -/
def takeHeldDoors : Nat → State → State
  | 0, s => s
  | n + 1, s =>
    if s.loaderWaits then s
    else match s.lc.heldDoors with
      | [] => s
      | d :: rest => takeHeldDoors n (loaderDoor d { s with lc.heldDoors := rest })

/-- The Loader Controller's post has joined (R153). -/
def loaderJoined (s : State) : State :=
  let s := drainPosts s.lc.posts.length s
  takeHeldDoors s.lc.heldDoors.length s

/-- What the directory holds, oldest first, until its post waits again. -/
def takeDirectoryHeld : Nat → State → State
  | 0, s => s
  | n + 1, s =>
    if s.waiting .directory then s
    else match s.cd.held with
      | [] => s
      | .edge d :: rest => takeDirectoryHeld n (takeEdge d { s with cd.held := rest })
      | .label p l :: rest => takeDirectoryHeld n (labelTaken p l { s with cd.held := rest })

/-- A label read that the directory has not taken is among what it holds. -/
def State.labelHeld (s : State) : Bool := s.cd.held.any fun x => match x with | .label _ _ => true | .edge _ => false

/-- The directory's post has joined: a step that waited on it goes on, and what is held is taken (R145).
DESIGN CHOICE: the step goes on before a held door edge is taken; notes/assumptions/33.md. -/
def directoryJoined (s : State) : State :=
  let n := s.cd.held.length
  takeDirectoryHeld n (if s.labelHeld then s else labelDone s)

/-! ## Halt and resume (R163, R164) -/

/-- LOADER_HALT: everything but its reports; answers the reports to post. -/
def haltLoader (s : State) : State × List Report :=
  if s.lc.state = .halted then (s, [])
  else
    let s := interruptGripper s
    let orders := s.lc.queue
    let step := s.lc.step
    let s := dropLabel (orders.foldl (fun s o => clearPending o s) s)
    let s := modLoader (fun l => { l.quiet with
      state := .halted, station := none, queue := [], step := none, travelCount := 0, outputs := l.outputs.safe }) s
    (s, orders.map fun o =>
      if o.active then s.orderDoneReport o (.fault .halted) step else s.orderDoneReport o (.fault .cancelled) none)

/-- LOADER_RESUME (R164). -/
def resumeLoader (s : State) : State :=
  if s.lc.state = .halted then
    modLoader (fun l => { l with state := .unhomed, station := none, outputs := l.outputs.safe }) s
  else s

/-! ## Events of the loader lines -/

/-- HOME_INPUT: homing ends (R154), or a travel fails OVERTRAVEL (R155).
DESIGN CHOICE: the row is the edge, with the level in its sample; notes/assumptions/5.md. -/
def homeInput (x : Sample) (s : State) : State :=
  let s := s.observe x
  if s.lc.outputs.motorRun ∧ x.lines.home then
    if s.lc.state = .homing then homingEnded s else failOrder .overtravel .unhomed none s
  else s

/-- STATION_MARK (R154, R155).
DESIGN CHOICE: the row is the edge, with the level in its sample; notes/assumptions/5.md. -/
def stationMark (x : Sample) (s : State) : State :=
  let s := s.observe x
  if s.lc.outputs.motorRun ∧ x.lines.stationMark then
    let s := { s with lc.markTimer := some (s.startTimer s.re.loaderSettings.markTimeout) }
    if s.lc.state = .homing then s
    else
      let s := { s with lc.travelCount := s.lc.travelCount - 1 }
      if s.lc.travelCount = 0 then
        match s.lc.step with
        | none => s
        | some step =>
          arrive step.station (modLoader (fun l => { l with
            markTimer := none, outputs := { l.outputs with motorRun := false } }) s)
      else s
  else s

/-- MARK_TIMEOUT: HOME_FAIL while homing (R154), STALL in a travel (R155). -/
def markTimeout (x : Sample) (s : State) : State :=
  let s := s.observe x
  if s.expired s.lc.markTimer then
    failOrder (if s.lc.state = .homing then .homeFail else .stall) .unhomed none s
  else s

/-- RETRACTED_DEASSERT: the retracted input deasserts while the motor runs (R149). -/
def retractedDeassert (x : Sample) (s : State) : State :=
  let s := s.observe x
  if s.lc.outputs.motorRun ∧ !x.lines.retracted then failOrder .stall .unhomed none s else s

/-- What follows a gripper step of a kind of step. -/
def gripperStepDone (x : ActiveStep) (s : State) : State :=
  match x.kind, x.part with
  | .homing, .retractFirst => homingRetracted s
  | .travel, .retractFirst => startRail x.station s
  | .get, .jawOpening => getOpened s
  | .get, .extending => getExtended s
  | .get, .jawClosing => getGripped s
  | .get, .retracting => getRetracted s
  | .put, .extending => putExtended s
  | .put, .jawOpening => putOpened s
  | .put, .retracting => putRetracted s
  | _, _ => s

/-- GRIPPER_STEP_END (R156): the input that the step waits for asserts. -/
def gripperStepEnd (x : Sample) (s : State) : State :=
  let s := s.observe x
  match s.lc.step with
  | none => s
  | some step =>
    if s.lc.stepTimer.isSome ∧ stepInput x.lines step.part then gripperStepDone step { s with lc.stepTimer := none } else s

/-- The output that a timed-out step drove is released (R159).
DEDUCED; notes/assumptions/28.md. -/
def Outputs.release (o : Outputs) : StepPart → Outputs
  | .jawOpening => { o with jawOpen := false }
  | .jawClosing => { o with jawClose := false }
  | _ => o

/-- STEP_TIMEOUT: GRIP_TIMEOUT (R159). -/
def stepTimeout (x : Sample) (s : State) : State :=
  let s := s.observe x
  match s.lc.step with
  | none => s
  | some step =>
    if s.expired s.lc.stepTimer then
      let s := interruptGripper (modLoader (fun l => { l with outputs := l.outputs.release step.part }) s)
      if step.kind = .homing then failOrder .gripTimeout .unhomed none s
      else failOrder .gripTimeout .idle s.lc.station s
    else s

/-- LABEL_EXCHANGE: a byte is received on the label link (R160).
DESIGN CHOICE: the byte that ends a stopped read's exchange is taken at once, even while the Loader Controller waits on an
ORDER_DONE; notes/assumptions/36.md. -/
def labelExchange (b : Byte) (x : Sample) (s : State) : State :=
  let s := s.observe x
  match s.lc.exchange with
  | none => s
  | some e => if e.stopped then stoppedExchangeOver s else receiveByte b s

/-- EXCHANGE_TIMEOUT: 5 ms have passed without the byte (R160).
DESIGN CHOICE: the limit of a stopped read's exchange is taken at once, even while the Loader Controller waits on an ORDER_DONE;
notes/assumptions/36.md. -/
def exchangeTimeout (x : Sample) (s : State) : State :=
  let s := s.observe x
  match s.lc.exchange with
  | none => s
  | some e =>
    if s.expired (some e.limit) then (if e.stopped then stoppedExchangeOver s else attemptFailed s) else s

/-- RETRY_TIMER: the next attempt begins (R160). -/
def retryTimer (x : Sample) (s : State) : State :=
  let s := s.observe x
  if s.expired s.lc.retryTimer then startAttempt s else s

/-- ORDER_ACTIVATE (R153). -/
def orderActivate (x : Sample) (s : State) : State := activateOrder (s.observe x)

/-! ## Events of the doors (R144, R145) -/

/-- DOOR_OPENING_EDGE: taken, or held while the directory's post waits, one edge for each door. -/
def doorOpeningEdge (d : Door) (x : Sample) (s : State) : State :=
  let s := s.observe x
  if (s.cd.door d).isOpen then s
  else
    let s := s.setDoor d { s.cd.door d with isOpen := true }
    if s.waiting .directory then
      if s.cd.held.contains (.edge d) then s else { s with cd.held := s.cd.held ++ [.edge d] }
    else takeEdge d s

/-- DOOR_CLOSING_EDGE: only the level changes. -/
def doorClosingEdge (d : Door) (s : State) : State := s.setDoor d { s.cd.door d with isOpen := false }

/-! ## The commands -/

def execDoorOpeningEdge (d : Door) (x : Sample) (s : State) : Host.Outcome State Fault Refusal :=
  runStep s (doorOpeningEdge d x)

def execDoorClosingEdge (d : Door) (s : State) : Host.Outcome State Fault Refusal := runStep s (doorClosingEdge d)

def execOrderActivate (x : Sample) (s : State) : Host.Outcome State Fault Refusal := runStep s (orderActivate x)

def execHomeInput (x : Sample) (s : State) : Host.Outcome State Fault Refusal := runStep s (homeInput x)

def execStationMark (x : Sample) (s : State) : Host.Outcome State Fault Refusal := runStep s (stationMark x)

def execMarkTimeout (x : Sample) (s : State) : Host.Outcome State Fault Refusal := runStep s (markTimeout x)

def execRetractedDeassert (x : Sample) (s : State) : Host.Outcome State Fault Refusal := runStep s (retractedDeassert x)

def execGripperStepEnd (x : Sample) (s : State) : Host.Outcome State Fault Refusal := runStep s (gripperStepEnd x)

def execStepTimeout (x : Sample) (s : State) : Host.Outcome State Fault Refusal := runStep s (stepTimeout x)

def execLabelExchange (b : Byte) (x : Sample) (s : State) : Host.Outcome State Fault Refusal := runStep s (labelExchange b x)

def execExchangeTimeout (x : Sample) (s : State) : Host.Outcome State Fault Refusal := runStep s (exchangeTimeout x)

def execRetryTimer (x : Sample) (s : State) : Host.Outcome State Fault Refusal := runStep s (retryTimer x)

end Sys2Proof.Machine
end

