-- ==== Sys2Proof/WellFormed.lean ====
section
/-! DEFINITION. Which commands are well formed: a controller transaction has 1 to 4,096 bytes and crosses no 4 KiB boundary
of the address space (01_memory_path_and_windows.md, 1.1). Every other operand is in range by its type. -/

namespace Sys2Proof

/-- A transaction of `length` bytes at `addr` as 01 section 1.1 describes one. -/
def transactionOk (addr : Word) (length : Nat) : Bool :=
  decide (1 ≤ length) && decide (addr.toNat % 4096 + length ≤ 4096)

/-- A command whose operands the spec admits. -/
def Instr.wellFormed : Instr → Bool
  | .controllerWrite addr data => transactionOk addr data.length
  | .indexWordWrite addr data => transactionOk addr data.length
  | .apertureWrite addr data => transactionOk addr data.length
  | .finalByteRead addr length _ => transactionOk addr length
  | _ => true

end Sys2Proof
end

