-- ==== Sys2Proof/Machine/Controller.lean ====
section
/-! DEFINITION. The Window Decoder and the controller port (01): CONTROLLER_WRITE, INDEX_WORD_WRITE, APERTURE_WRITE and
FINAL_BYTE_READ. The three write commands share the decoding of R2 by address; notes/assumptions/18.md. -/

namespace Sys2Proof.Machine

open Sys2Proof

/-! ## Classes (R2) -/

/-- The class of an address for a write. -/
inductive AddressClass where
  /-- Unwindowed memory and the request ring: passed. -/
  | memory
  /-- The page of the index words: passed, and each index word covered whole is latched (R4). -/
  | indexPage
  /-- Report ring, status image, block pools, catalog, restore area: dropped and counted (R7). -/
  | partOwned
  | streamAperture (stream : StreamId)
  | returnRing (lane : LaneId)
  deriving DecidableEq, Repr

/-- The address lies in the window. -/
def Window.holds (w : Window) (a : Nat) : Bool := decide (w.base ≤ a ∧ a < w.base + w.size)

/-- The class an address has under a window table. -/
def Layout.classOf (l : Layout) (drives : Nat) (a : Nat) : AddressClass :=
  match (List.finRange 4).find? fun i => l.apertures[i].holds a with
  | some i => .streamAperture i
  | none =>
    match (List.finRange 4).find? fun n => decide (n.val < drives) && l.rings[n].holds a with
    | some n => .returnRing n
    | none =>
      if (List.finRange 4).any (fun n => decide (n.val < drives) && l.pools[n].window.holds a) || l.catalog.holds a
          || l.restore.holds a then .partOwned
      else .memory

/-- The class of an address (R2). -/
def State.classOf (s : State) (a : Nat) : AddressClass :=
  if a < 0x4000 then .memory
  else if a < 0x8000 then .partOwned
  else if a < 0x9000 then .indexPage
  else if a < 0x10000 then .partOwned
  else match s.wd.layout with
    | none => .memory
    | some l => l.classOf s.driveCount a

/-! ## Refused writes and index words (R4, R7) -/

/-- A write is dropped whole and counted. -/
def refuseWrite (addr : Word) (s : State) : State :=
  { s with wd := { s.wd with refusedCount := satInc s.wd.refusedCount, lastRefused := addr } }

/-- The latch of an index word after a write: latched when all four bytes are covered. -/
def latchAfter (addr : Nat) (data : List Byte) (index : Nat) (l : Latch) : Latch :=
  if addr ≤ index ∧ index + 4 ≤ addr + data.length then
    { value := leWord ((data.drop (index - addr)).take 4), pending := true }
  else l

/-- Every index word that a write covers whole is latched. -/
def latchWords (addr : Nat) (data : List Byte) (s : State) : State :=
  { s with wd := { s.wd with
    requestProducerLatch := latchAfter addr data 0x8000 s.wd.requestProducerLatch
    reportConsumerLatch := latchAfter addr data 0x8004 s.wd.reportConsumerLatch
    catalogConsumerLatch := latchAfter addr data 0x8008 s.wd.catalogConsumerLatch
    restoreConsumerLatch := Vector.ofFn fun k : Fin 8 =>
      latchAfter addr data (0x8020 + 4 * k.val) s.wd.restoreConsumerLatch[k] } }

/-! ## Ordered apertures (R10 to R13) -/

/-- How far the first byte of a write lies from E: the displacement of least magnitude (R10). -/
def Aperture.displacement (a : Aperture) (w : Window) (addr : Nat) : Int :=
  let d := ((addr - w.base) + w.size - a.expected.toNat % w.size) % w.size
  if 2 * d < w.size then (d : Int) else (d : Int) - (w.size : Int)

/-- What the sorting of a write decides. -/
inductive Sorting where
  /-- A resend, or a write dropped while HELD. -/
  | dropped
  | gap
  /-- The bytes beyond `skip` are taken from E on, up to A; the hold is cleared first. -/
  | taken (skip : Nat)
  deriving DecidableEq, Repr

/-- Sort a write of `length` bytes at a displacement (R12, R13). -/
def Aperture.sort (a : Aperture) (displacement : Int) (length : Nat) : Sorting :=
  if displacement + (length : Int) ≤ 0 then .dropped
  else if a.held then
    if displacement = 0 ∧ 0 < ahead a.limit a.expected then .taken 0 else .dropped
  else if 0 < displacement then .gap
  else .taken (-displacement).toNat

/-- The offset of a write's first byte. -/
def Aperture.offset (a : Aperture) (displacement : Int) : Word := a.expected + BitVec.ofInt 32 displacement

/-! ## Stream apertures (R11, R43, R44) -/

/-- The stream's aperture holds, and its OVERRUN is posted; while the post waits its accept limit is E (R44). A stream that
already waits on a post makes no second one (R22): the write is dropped without a report (R44).
DESIGN CHOICE: the hold condition then stays as it is; notes/assumptions/44.md. -/
def streamOverrun (i : StreamId) (reason : OverrunReason) (offset : Word) (s : State) : State :=
  if s.waiting (.stream i) then s else
  let a := s.wd.streamAperture[i]
  let tag := match s.streams[i].slot with
    | none => 0
    | some k => s.jt.jobs[k].record.tag
  let s := s.setStreamAperture i { a with held := true }
  recomputeLimit i (post (.stream i) (.overrun (.stream i) tag reason a.expected a.limit offset) s)

/-- Bytes from E on reach the stream up to A; what lies beyond A overruns. -/
def streamAccept (i : StreamId) (bs : List Byte) (offset : Word) (s : State) : State :=
  let a := s.wd.streamAperture[i]
  let room := ahead a.limit a.expected
  let s := s.setStreamAperture i { a with held := false }
  let r := placeBytes i 3 (bs.take room) s
  let placed := min room bs.length - r.2.length
  let a := r.1.wd.streamAperture[i]
  let s := recomputeLimit i (r.1.setStreamAperture i { a with expected := a.expected + BitVec.ofNat 32 placed })
  if placed < bs.length then streamOverrun i .limit offset s else s

/-- A write to a bound stream aperture. -/
def streamWrite (i : StreamId) (w : Window) (addr : Word) (data : List Byte) (s : State) : State :=
  let a := s.wd.streamAperture[i]
  let d := a.displacement w addr.toNat
  match a.sort d data.length with
  | .dropped => s
  | .gap => streamOverrun i .gap (a.offset d) s
  | .taken skip => streamAccept i (data.drop skip) (a.offset d) s

/-! ## Return rings (R11, R14) -/

/-- The return ring holds, and its Framer posts OVERRUN. -/
def ringHold (n : LaneId) (reason : OverrunReason) (offset : Word) (s : State) : State :=
  let a := s.wd.ringAperture[n]
  ringOverrun n (.overrun (.ring n) (s.framerJob n).tag reason a.expected a.limit offset)
    (s.setRingAperture n { a with held := true })

/-- Bytes from E on reach memory at their own addresses up to A; what lies beyond A overruns. -/
def ringAccept (n : LaneId) (addr : Nat) (bs : List Byte) (offset : Word) (s : State) : State :=
  let a := s.wd.ringAperture[n]
  let room := ahead a.limit a.expected
  let s := s.store addr (bs.take room)
  let s := s.setRingAperture n { a with held := false, expected := a.expected + BitVec.ofNat 32 (min room bs.length) }
  let s := if s.framers[n].phase = .stopped then framerSettle n s else s
  if room < bs.length then ringHold n .limit offset s else s

/-- A write to a bound return ring. -/
def ringDataWrite (n : LaneId) (w : Window) (addr : Word) (data : List Byte) (s : State) : State :=
  let a := s.wd.ringAperture[n]
  let d := a.displacement w addr.toNat
  match a.sort d data.length with
  | .dropped => s
  | .gap => ringHold n .gap (a.offset d) s
  | .taken skip => ringAccept n (addr.toNat + skip) (data.drop skip) (a.offset d) s

/-! ## Writes and reads -/

/-- A controller write, by its class (R2, R8). -/
def controllerWrite (addr : Word) (data : List Byte) (s : State) : State :=
  let l := s.wd.layout.getD {}
  match s.classOf addr.toNat with
  | .memory => s.store addr.toNat data
  | .indexPage => latchWords addr.toNat data (s.store addr.toNat data)
  | .partOwned => refuseWrite addr s
  | .streamAperture i =>
    if s.streams[i].phase = .free then refuseWrite addr s else streamWrite i l.apertures[i] addr data s
  | .returnRing n =>
    if s.lanes[n].role = .read then ringDataWrite n l.rings[n] addr data s else refuseWrite addr s

/-- The lane and slot whose final byte is at an address (R15). -/
def State.finalByteOf (s : State) (a : Nat) : Option (LaneId × Nat) :=
  match s.wd.layout with
  | none => none
  | some l =>
    (((List.finRange 4).find? fun n => decide (n.val < s.driveCount) && l.pools[n].window.holds a).filter fun n =>
      decide ((a - l.pools[n].base) % 32768 = 32767)).map fun n => (n, (a - l.pools[n].base) / 32768)

/-- A controller read: the data that memory holds, then the final-byte signal (R15).
`readData` is the model's own field, DESIGN CHOICE; notes/assumptions/18.md. -/
def controllerRead (addr : Word) (length now : Nat) (s : State) : State :=
  let s := { s.observeTime now with readData := memBytes s.mem addr.toNat length }
  match s.finalByteOf (addr.toNat + length - 1) with
  | none => s
  | some (n, k) => finalByteSignal n k s

/-! ## The commands -/

def execControllerWrite (addr : Word) (data : List Byte) (s : State) : Host.Outcome State Fault Refusal :=
  if transactionOk addr data.length then runStep s (controllerWrite addr data) else .refused .notATransaction

def execIndexWordWrite (addr : Word) (data : List Byte) (s : State) : Host.Outcome State Fault Refusal :=
  if transactionOk addr data.length then runStep s (controllerWrite addr data) else .refused .notATransaction

def execApertureWrite (addr : Word) (data : List Byte) (s : State) : Host.Outcome State Fault Refusal :=
  if transactionOk addr data.length then runStep s (controllerWrite addr data) else .refused .notATransaction

def execFinalByteRead (addr : Word) (length now : Nat) (s : State) : Host.Outcome State Fault Refusal :=
  if transactionOk addr length then runStep s (controllerRead addr length now) else .refused .notATransaction

end Sys2Proof.Machine
end

