-- ==== Sys2Proof/Machine/Requests.lean ====
section
/-! DEFINITION. The Request Engine (02): taking latches, taking and deciding requests (R19 to R21) with every owner's decision
(R6, R26, R27, R35 to R42, R49, R87, R111, R117, R140, R151, R163, R164), the report backlog (BACKLOG_ADMIT, REPORT_WRITE) and
STATUS_REFRESH. -/

namespace Sys2Proof.Machine

open Sys2Proof

/-! ## Latches (R18, R24) -/

/-- REQUEST_PRODUCER_TAKE (R18). -/
def requestProducerTake (s : State) : State :=
  let latch := s.wd.requestProducerLatch
  if latch.pending ∧ !s.waiting .requestEngine then
    let s := { s with wd.requestProducerLatch := { latch with pending := false } }
    if ahead latch.value s.re.consumer ≤ 256 then { s with re.takenProducer := latch.value }
    else post .requestEngine (.ringFault false latch.value s.re.consumer) s
  else s

/-- REPORT_CONSUMER_TAKE (R24), even while the Request Engine waits. -/
def reportConsumerTake (s : State) : State :=
  let latch := s.wd.reportConsumerLatch
  if latch.pending then
    let s := { s with wd.reportConsumerLatch := { latch with pending := false } }
    if ahead latch.value s.re.takenConsumer ≤ ahead s.re.producer s.re.takenConsumer then
      { s with re.takenConsumer := latch.value }
    else
      let r : Report := .ringFault true latch.value s.re.takenConsumer
      if s.waiting .requestEngine then { s with re.pendingRingFault := some r } else post .requestEngine r s
  else s

/-! ## Job starts (R33, R35 to R38) -/

/-- The lane an argument names, once R20 has passed. -/
def laneOf (n : Nat) : LaneId := Fin.ofNat 4 n

/-- The lowest-numbered free job slot. -/
def State.freeJobSlot (s : State) : Option SlotId := (finFilter 8 fun k => !s.jt.jobs[k].live).head?

/-- A job start takes a slot (R33, R125). -/
def startJob (k : SlotId) (r : JobRecord) (s : State) : State :=
  { s with jt.jobs := s.jt.jobs.set k { live := true, record := r } }.modRestore k fun x => { x with lastFault := none }

/-- The drive checks that the three starts share: DRIVE_EMPTY, then PLACE_PENDING; else the cartridge.
DESIGN CHOICE: by the order of R35, R37 and R38 a drive that is not OCCUPIED answers DRIVE_EMPTY even while an order names it,
where R161 and the example of 10.10 speak of PLACE_PENDING; notes/assumptions/45.md. -/
def State.startCart (s : State) (n : LaneId) : Except Code CartId :=
  match s.driveCart n with
  | none => .error .driveEmpty
  | some c => if (s.cd.places[drivePlace n].pending).isSome then .error .placePending else .ok c

/-- A directory record by index; a free one reads as a new record. -/
def State.cart (s : State) (c : CartId) : CartRecord := (s.cd.records[c]).getD { place := 0 }

/-- The slot that a start may take, after the checks that every start begins with: NO_LAYOUT, TAG_IN_USE, BUSY. -/
def State.startSlot (s : State) (tag : Nat) : Except Code SlotId :=
  if s.wd.layout.isNone then .error .noLayout
  else if (s.jobByTag tag).isSome then .error .tagInUse
  else match s.freeJobSlot with
    | none => .error .busy
    | some k => .ok k

/-- The lane's role becomes WRITE; from IDLE it takes the cartridge's written count as its next group number, and a different
number frees its DRAINED slots (R36). -/
def laneToWrite (n : LaneId) (written : Word) (s : State) : State :=
  s.modLane n fun l =>
    if l.role = .write then l
    else
      { l with
        role := .write
        slots := if l.nextGroup = written then l.slots else l.slots.map fun x =>
          match x with
          | .drained _ => .free
          | x => x
        nextGroup := written }

/-- WRITE_START (R35, R36). -/
def writeStartDecision (r : List Byte) (s : State) : Except Code (State → State) :=
  let i : StreamId := Fin.ofNat 4 (argByte r 4)
  let n := laneOf (argByte r 5)
  match s.startSlot (recordTag r) with
  | .error c => .error c
  | .ok k =>
    if s.streams[i].phase ≠ .free then .error .streamInUse
    else if s.lanes[n].role = .read ∨ 4 ≤ (s.writeJobsOnLane n).length then .error .laneBusy
    else if s.lanes[n].full then .error .laneFull
    else match s.startCart n with
      | .error c => .error c
      | .ok c =>
        let cart := s.cart c
        if cart.label.isNone then .error .cartridgeUnlabelled
        else if cart.condition = .unset then .error .cartridgeUnset
        else if cart.condition = .suspect then .error .cartridgeSuspect
        else if cart.limit.toNat ≤ cart.written.toNat then .error .cartridgeLimit
        else .ok fun s =>
          let record : JobRecord :=
            { tag := BitVec.ofNat 8 (recordTag r), kind := .write, state := .active, lane := n, cart := c, stream := i
              firstSeq := argWord r 8, nextSeq := argWord r 8 }
          bindStream i k (laneToWrite n cart.written (startJob k record s))

/-- The lane becomes READ and its return ring is bound to the job (R37, R101). -/
def laneToRead (n : LaneId) (k : SlotId) (s : State) : State :=
  bindFramer n k (s.modLane n fun l => { l with role := .read })

/-- VERIFY_START (R37). -/
def verifyStartDecision (r : List Byte) (s : State) : Except Code (State → State) :=
  let n := laneOf (argByte r 4)
  let first := argWord r 8
  let last := argWord r 12
  match s.startSlot (recordTag r) with
  | .error c => .error c
  | .ok k =>
    if s.lanes[n].role ≠ .idle then .error .laneBusy
    else match s.startCart n with
      | .error c => .error c
      | .ok c =>
        let cart := s.cart c
        if cart.condition = .unset then .error .cartridgeUnset
        else if last.toNat < first.toNat ∨ cart.written.toNat ≤ last.toNat then .error .rangeInvalid
        else .ok fun s =>
          let record : JobRecord :=
            { tag := BitVec.ofNat 8 (recordTag r), kind := .verify, state := .active, lane := n, cart := c
              firstGroup := first, lastGroup := last }
          laneToRead n k (rangeReset cart.label first last (startJob k record s))

/-- A restore ring that cannot be placed (R38, checks 8 to 11). -/
def State.restoreRingRefusal (s : State) (base size : Nat) : Option Code :=
  let area := (s.wd.layout.getD {}).restore
  let ring : Window := { base := base, size := size }
  let overlaps (k : SlotId) : Bool :=
    s.jt.jobs[k].live && decide (s.jt.jobs[k].record.kind = .restore) && !ring.disjoint s.jt.jobs[k].record.ring
  if base % 4096 ≠ 0 then some .ringFault
  else if size % 4096 ≠ 0 ∨ size < 65536 ∨ 16777216 < size then some .ringInvalid
  else if base < area.base ∨ area.base + area.size < base + size then some .ringInvalid
  else if (List.finRange 8).any overlaps then some .ringInvalid
  else none

/-- RESTORE_START (R38). -/
def restoreStartDecision (r : List Byte) (s : State) : Except Code (State → State) :=
  let n := laneOf (argByte r 4)
  let first := argWord r 8
  let last := argWord r 12
  match s.startSlot (recordTag r) with
  | .error c => .error c
  | .ok k =>
    if s.lanes[n].role ≠ .idle then .error .laneBusy
    else match s.startCart n with
      | .error c => .error c
      | .ok c =>
        if argByte r 5 = 0 ∨ last.toNat < first.toNat then .error .badArgument
        else match s.restoreRingRefusal (argWord r 16).toNat (argWord r 20).toNat with
          | some e => .error e
          | none => .ok fun s =>
            let record : JobRecord :=
              { tag := BitVec.ofNat 8 (recordTag r), kind := .restore, state := .active, lane := n, cart := c
                sourceTag := BitVec.ofNat 8 (argByte r 5), firstChunk := first, lastChunk := last
                ringBase := argWord r 16, ringSize := argWord r 20 }
            let s := (startJob k record s).modRestore k fun x =>
              { x with producer := 0, consumer := 0, expected := first.toNat }
            laneToRead n k { s with wd.restoreConsumerLatch := s.wd.restoreConsumerLatch.set k {} }

/-! ## Requests that name a live job (R39, R41, R42) -/

/-- STREAM_CLOSE (R39). -/
def streamCloseDecision (r : List Byte) (s : State) : Except Code (State → State) :=
  match s.jobByTag (recordTag r) with
  | none => .error .noJob
  | some (k, job) =>
    if job.kind ≠ .write then .error .noJob
    else if job.state ≠ .active then .ok id
    else .ok fun s =>
      let i := job.stream
      let s := match s.streams[i].filling with
        | none => s
        | some b => closeChunk i b s
      let s := (streamClosing i s).modJob k fun r => { r with state := .flushing }
      jobSignals [.flushTest k] s

/-- JOB_END (R42): a VERIFY or RESTORE job in ACTIVE enters ENDING. -/
def jobEndDecision (r : List Byte) (s : State) : Except Code (State → State) :=
  match s.jobByTag (recordTag r) with
  | none => .error .noJob
  | some (k, job) =>
    if job.kind = .write then .error .noJob
    else if job.state ≠ .active then .ok id
    else .ok fun s => jobSignals [.endCondition k] (stopFramer job.lane s)

/-- A JOB_ABORT of a WRITE job (R41). -/
def abortWriting (k : SlotId) (job : JobRecord) (s : State) : State :=
  if job.cutOff then
    let s := streamClosing job.stream (giveUpStream job.stream false s)
    let s := s.modJob k fun r => { r with pendingOutcome := .aborted, state := .flushing }
    jobSignals [.flushTest k] s
  else s.modJob k fun r => { r with pendingOutcome := .aborted }

/-- JOB_ABORT (R41, R42).
DESIGN CHOICE: the reports of Framers that the abort lets into the decode queue come before the JOB_DONE;
notes/assumptions/51.md. -/
def jobAbortDecision (r : List Byte) (s : State) : Except Code (State → State) :=
  match s.jobByTag (recordTag r) with
  | none => .error .noJob
  | some (k, job) =>
    .ok fun s =>
      match job.kind with
      | .write => abortWriting k job s
      | _ => jobSignals [.ending k .aborted] (abortReading k s)

/-! ## LANE_RESET (R49, R87, R117) -/

/-- The streams of a lane's WRITE jobs give up every chunk, the one being packed too (R49).
DESIGN CHOICE: until its slot is freed such a stream stays as it is, OPEN with a limit above E if it was OPEN, and what it
takes meanwhile is given up when it becomes FREE; notes/assumptions/30.md. -/
def resetStreams (n : LaneId) (s : State) : State :=
  (s.writeJobsOnLane n).foldl
    (fun s k =>
      let i := s.jt.jobs[k].record.stream
      recomputeLimit i (giveUpStream i true s)) s

/-- The Lane Unit's side (R87). -/
def resetLane (n : LaneId) (s : State) : State :=
  let written := (s.driveRecord n).map fun c => c.written
  let s := s.modLane n fun l =>
    { l with
      slots := l.slots.map fun _ => .free
      nextSlot := 0, position := none, openedAt := none, packing := none, heldReads := [], heldSignals := []
      nextGroup := if l.role = .write then written.getD l.nextGroup else l.nextGroup }
  laneIdle n (discardLane n s)

/-- LANE_RESET, accepted for any role.
DESIGN CHOICE: the reports of Framers that the reset lets into the decode queue come before the JOB_DONE;
notes/assumptions/51.md. -/
def laneReset (n : LaneId) (s : State) : State :=
  let jobs := s.jobsOnLane n
  let s := resetReading n (resetLane n (resetStreams n s))
  jobSignals (jobs.map fun k => .ending k .laneReset) s

/-! ## Settings and the layout (R9, R26, R27) -/

/-- LAYOUT_SET accepted (R9). -/
def acceptLayout (l : Layout) (s : State) : State :=
  let slotsOf (n : Nat) : List SlotState := List.replicate (l.pools.toList.getD n {}).slots .free
  { s with
    wd := { s.wd with
      layout := some l, catalogConsumerLatch := {}, restoreConsumerLatch := Vector.replicate 8 {}
      streamAperture := Vector.replicate 4 {}, ringAperture := Vector.replicate 4 {} }
    lanes := Vector.ofFn fun n : Fin 4 =>
      { s.lanes[n] with slots := slotsOf n.val, nextSlot := 0, position := none, openedAt := none }
    sc := { s.sc with producer := 0, consumer := 0 } }

/-- LAYOUT_SET (R6). -/
def layoutSetDecision (r : List Byte) (s : State) : Except Code (State → State) :=
  let l := recordLayout s.driveCount r
  if (List.finRange 8).any (fun k => s.jt.jobs[k].live) || (List.finRange 4).any (fun n => decide (s.lanes[n].role ≠ .idle)) then
    .error .busy
  else if l.valid s.driveCount then .ok (acceptLayout l)
  else .error .layoutInvalid

/-- LANE_SET accepted (R26): the settings are stored, and a lower retain depth or age limit acts at once (R79, R84). -/
def setLane (n : LaneId) (x : LaneSettings) (s : State) : State :=
  ageClose n (enforceRetain n { s with re.laneSettings := s.re.laneSettings.set n x })

/-! ## Orders and the loader (R152, R163, R164) -/

/-- An order is accepted; into an empty queue of an IDLE or UNHOMED loader it becomes ACTIVE at once.
DEDUCED; notes/assumptions/16.md. -/
def acceptOrder (o : Order) (s : State) : State :=
  if s.lc.queue.isEmpty then activateOrder (queueOrder o s) else queueOrder o s

/-- LOADER_HALT (R163). -/
def loaderHalt (s : State) : State :=
  let r := haltLoader s
  loaderPost r.2 r.1

/-! ## The checks of the Request Engine and the owners (R20, R21) -/

/-- The kinds whose lane R20 checks. -/
def RequestKind.namesLane : RequestKind → Bool
  | .laneSet | .writeStart | .verifyStart | .restoreStart | .laneResync | .laneReset => true
  | _ => false

/-- The kinds whose tag R20 checks. -/
def RequestKind.namesTag : RequestKind → Bool
  | .writeStart | .verifyStart | .restoreStart | .move | .mount | .dismount | .inventory | .pickerPut => true
  | _ => false

/-- The checks of R20 after the kind. -/
def State.preCheck (s : State) (kind : RequestKind) (r : List Byte) : Bool :=
  (!kind.namesLane || decide (recordLane kind r < s.driveCount))
    && (decide (kind ≠ .writeStart) || decide (argByte r 4 < 4))
    && (!kind.namesTag || decide (1 ≤ recordTag r ∧ recordTag r ≤ 255))

/-- The Framer that a VERIFY or RESTORE job is bound to waits on a post (R103). -/
def State.jobFramerWaits (s : State) (tag : Nat) : Bool :=
  match s.jobByTag tag with
  | none => false
  | some (k, job) =>
    decide (job.kind ≠ .write) && decide (s.framers[job.lane].slot = some k) && s.waiting (.framer job.lane)

/-- The owner decides the request now: neither it nor a block it decides together with waits on a post (R46, R82, R103,
R153). -/
def State.ownerReady (s : State) (kind : RequestKind) (r : List Byte) : Bool :=
  match kind with
  | .writeStart | .streamClose => !s.waiting .jobTable
  | .verifyStart | .restoreStart => !s.waiting .jobTable && !s.waiting (.framer (laneOf (argByte r 4)))
  | .jobEnd | .jobAbort => !s.waiting .jobTable && !s.jobFramerWaits (recordTag r)
  | .laneResync => !s.waiting (.framer (laneOf (argByte r 4)))
  | .laneReset =>
    !s.waiting .jobTable && !s.waiting (.laneUnit (laneOf (argByte r 4))) && !s.waiting (.framer (laneOf (argByte r 4)))
  | .move | .mount | .dismount | .inventory | .pickerPut | .loaderHalt | .loaderResume => !s.loaderWaits
  | .layoutSet | .laneSet | .loaderSet | .partReset | .cartridgeSet => true

/-- The decision of an order request. -/
def orderRequest (kind : OrderKind) (r : List Byte) (s : State) : Except Code (State → State) :=
  match s.orderDecision kind r with
  | .error c => .error c
  | .ok o => .ok (acceptOrder o)

/-- The request in hand is a LANE_RESET that waited for an end evaluation of its lane, or, after that of a RESTORE job, for the
job's end: it is accepted and changes nothing on the lane (R127, R132). -/
def State.resetMetEvaluation (s : State) : Bool := s.re.inHand.any fun h => h.metEvaluation

/-- The owner's decision: a refusal, or the effects of the acceptance (R21). -/
def State.decision (s : State) (kind : RequestKind) (r : List Byte) : Except Code (State → State) :=
  match kind with
  | .layoutSet => layoutSetDecision r s
  | .laneSet => .ok (setLane (laneOf (argByte r 4)) (recordLaneSettings r))
  | .loaderSet => .ok fun s => { s with re.loaderSettings := recordLoaderSettings r }
  | .partReset => .ok id
  | .writeStart => writeStartDecision r s
  | .streamClose => streamCloseDecision r s
  | .verifyStart => verifyStartDecision r s
  | .restoreStart => restoreStartDecision r s
  | .jobEnd => jobEndDecision r s
  | .jobAbort => jobAbortDecision r s
  | .laneResync => .ok (resyncFramer (laneOf (argByte r 4)))
  | .laneReset => .ok (if s.resetMetEvaluation then id else laneReset (laneOf (argByte r 4)))
  | .cartridgeSet =>
    match s.cartridgeSetDecision r with
    | .error c => .error c
    | .ok (c, f) => .ok fun s => s.modCart c f
  | .move => orderRequest .move r s
  | .mount => orderRequest .mount r s
  | .dismount => orderRequest .dismount r s
  | .inventory => orderRequest .inventory r s
  | .pickerPut => orderRequest .pickerPut r s
  | .loaderHalt => .ok loaderHalt
  | .loaderResume => .ok resumeLoader

/-! ## Deciding (R19) -/

/-- REQUEST_DONE takes the reserved entry, the reservation is released and C advances. -/
def answer (code : Code) (r : List Byte) (s : State) : State :=
  { s with re := { s.re with
    reservation := false, inHand := none, consumer := s.re.consumer + 1
    backlog := s.re.backlog ++
      [.requestDone code (BitVec.ofNat 16 (recordTag r)) (BitVec.ofNat 16 (recordKindValue r)) s.re.consumer] } }

/-- Decide the request in hand, its reservation held: refuse it, or, once its owner is ready, answer it and apply its effects.
The reports that the effects cause join after the REQUEST_DONE (R21).
DEDUCED; notes/assumptions/11.md. -/
def decideRequest (r : List Byte) (s : State) : State :=
  match recordKind r with
  | none => answer .badKind r s
  | some kind =>
    if s.preCheck kind r then
      if s.ownerReady kind r then
        match s.decision kind r with
        | .error c => answer c r s
        | .ok f => f (answer .done r s)
      else s
    else answer .badArgument r s

/-- The 64 bytes of the request record at the request consumer count.
DESIGN CHOICE: request rows read it and take no argument operands; notes/assumptions/6.md. -/
def State.requestRecord (s : State) : List Byte := memBytes s.mem (64 * (s.re.consumer.toNat % 256)) 64

/-- The Request Engine takes the request at C if it is one of a kind: it obtains the reservation, or waits for it; a request
already in hand is decided once its owner is ready (R19).
DESIGN CHOICE where the ring holds no such request: the state stays; notes/assumptions/3.md, 6.md. -/
def requestCommand (kind : Option RequestKind) (s : State) : State :=
  if s.waiting .requestEngine then s
  else match s.re.inHand with
    | some h => if recordKind h.bytes = kind ∧ h.reserved then decideRequest h.bytes s else s
    | none =>
      let r := s.requestRecord
      if s.re.consumer ≠ s.re.takenProducer ∧ recordKind r = kind then
        if s.re.hasRoom then
          decideRequest r { s with re := { s.re with
            reservation := true, inHand := some (({ bytes := r, reserved := false } : InHand).reserve s) } }
        else
          { s with re := { s.re with
            inHand := some { bytes := r, reserved := false }
            waiters := s.re.waiters ++ [{ unit := .requestEngine, item := .reservation }] } }
      else s

/-! ## The backlog (R22, R23) -/

/-- The waiting item joins: a report at the tail, or the reservation. -/
def joinBacklog (item : WaitItem) (s : State) : State :=
  match item with
  | .post r => { s with re.backlog := s.re.backlog ++ [r] }
  | .reservation =>
    { s with re := { s.re with reservation := true, inHand := s.re.inHand.map fun h => h.reserve s } }

/-- The unit whose wait has ended goes on. -/
def unitJoined (unit : Poster) (s : State) : State :=
  match unit with
  | .requestEngine => s
  | .jobTable => jobDoneJoined s
  | .stream i => recomputeLimit i s
  | .laneUnit n => laneJoined n s
  | .framer n => framerJoined n s
  | .directory => directoryJoined s
  | .loader => loaderJoined s

/-- Once it does not wait, the Request Engine posts its pending RING_FAULT, then goes on with the request in hand (R24).
DESIGN CHOICE: a loader request that waited is decided here, before the next head order becomes ACTIVE;
notes/assumptions/34.md. -/
def requestAdvance (s : State) : State :=
  if s.waiting .requestEngine then s
  else
    let s := match s.re.pendingRingFault with
      | none => s
      | some r => post .requestEngine r { s with re.pendingRingFault := none }
    if s.waiting .requestEngine then s
    else match s.re.inHand with
      | some h => if h.reserved then decideRequest h.bytes s else s
      | none => s

/-- BACKLOG_ADMIT (R22): the waiter that began first joins a freed entry.
DESIGN CHOICE: the signals that the unit has held come before a request that waited for it; notes/assumptions/37.md. -/
def backlogAdmit (x : Sample) (s : State) : State :=
  match s.re.waiters with
  | [] => s
  | w :: rest =>
    if s.re.used < 64 then
      let s := joinBacklog w.item { s.observe x with re.waiters := rest }
      requestAdvance (unitJoined w.unit s)
    else s

/-- REPORT_WRITE (R23): the oldest entry is written into the report ring. -/
def reportWrite (s : State) : State :=
  match s.re.backlog with
  | [] => s
  | r :: rest =>
    if ahead s.re.producer s.re.takenConsumer < 512 then
      let s := s.store (0x4000 + 32 * (s.re.producer.toNat % 512)) (reportBytes r)
      { s with re := { s.re with producer := s.re.producer + 1, backlog := rest } }
    else s

/-- STATUS_REFRESH (R29). -/
def statusRefresh (s : State) : State := if s.re.stale then refresh s else s

/-! ## The commands -/

def execRequestProducerTake (s : State) : Host.Outcome State Fault Refusal := runStep s requestProducerTake

def execReportConsumerTake (s : State) : Host.Outcome State Fault Refusal := runStep s reportConsumerTake

/-- UNKNOWN_KIND_REQUEST (R20). -/
def execUnknownKindRequest (s : State) : Host.Outcome State Fault Refusal := runStep s (requestCommand none)

/-- LAYOUT_SET (R6). -/
def execLayoutSet (s : State) : Host.Outcome State Fault Refusal := runStep s (requestCommand (some .layoutSet))

/-- LANE_SET (R26). -/
def execLaneSet (now : Nat) (s : State) : Host.Outcome State Fault Refusal :=
  runStep s fun s => requestCommand (some .laneSet) (s.observeTime now)

/-- LOADER_SET (R27). -/
def execLoaderSet (s : State) : Host.Outcome State Fault Refusal := runStep s (requestCommand (some .loaderSet))

/-- WRITE_START (R35). -/
def execWriteStart (s : State) : Host.Outcome State Fault Refusal := runStep s (requestCommand (some .writeStart))

/-- STREAM_CLOSE (R39). -/
def execStreamClose (s : State) : Host.Outcome State Fault Refusal := runStep s (requestCommand (some .streamClose))

/-- VERIFY_START (R37). -/
def execVerifyStart (s : State) : Host.Outcome State Fault Refusal := runStep s (requestCommand (some .verifyStart))

/-- RESTORE_START (R38). -/
def execRestoreStart (s : State) : Host.Outcome State Fault Refusal := runStep s (requestCommand (some .restoreStart))

/-- JOB_END (R42). -/
def execJobEnd (s : State) : Host.Outcome State Fault Refusal := runStep s (requestCommand (some .jobEnd))

/-- JOB_ABORT (R41). -/
def execJobAbort (s : State) : Host.Outcome State Fault Refusal := runStep s (requestCommand (some .jobAbort))

/-- LANE_RESYNC (R111). -/
def execLaneResync (s : State) : Host.Outcome State Fault Refusal := runStep s (requestCommand (some .laneResync))

/-- LANE_RESET (R87). -/
def execLaneReset (s : State) : Host.Outcome State Fault Refusal := runStep s (requestCommand (some .laneReset))

/-- CARTRIDGE_SET (R140). -/
def execCartridgeSet (s : State) : Host.Outcome State Fault Refusal := runStep s (requestCommand (some .cartridgeSet))

/-- MOVE (R151). -/
def execMove (x : Sample) (s : State) : Host.Outcome State Fault Refusal :=
  runStep s fun s => requestCommand (some .move) (s.observe x)

/-- MOUNT (R151). -/
def execMount (x : Sample) (s : State) : Host.Outcome State Fault Refusal :=
  runStep s fun s => requestCommand (some .mount) (s.observe x)

/-- DISMOUNT (R151). -/
def execDismount (x : Sample) (s : State) : Host.Outcome State Fault Refusal :=
  runStep s fun s => requestCommand (some .dismount) (s.observe x)

/-- INVENTORY (R151, R161). -/
def execInventory (x : Sample) (s : State) : Host.Outcome State Fault Refusal :=
  runStep s fun s => requestCommand (some .inventory) (s.observe x)

/-- PICKER_PUT (R151). -/
def execPickerPut (x : Sample) (s : State) : Host.Outcome State Fault Refusal :=
  runStep s fun s => requestCommand (some .pickerPut) (s.observe x)

/-- LOADER_HALT (R163). -/
def execLoaderHalt (x : Sample) (s : State) : Host.Outcome State Fault Refusal :=
  runStep s fun s => requestCommand (some .loaderHalt) (s.observe x)

/-- LOADER_RESUME (R164). -/
def execLoaderResume (s : State) : Host.Outcome State Fault Refusal := runStep s (requestCommand (some .loaderResume))

def execBacklogAdmit (x : Sample) (s : State) : Host.Outcome State Fault Refusal := runStep s (backlogAdmit x)

def execReportWrite (s : State) : Host.Outcome State Fault Refusal := runStep s reportWrite

def execStatusRefresh (s : State) : Host.Outcome State Fault Refusal := runStep s statusRefresh

end Sys2Proof.Machine
end

