-- ==== Sys2Proof/Machine/Resets.lean ====
section
/-! DEFINITION. The resets: POWER_ON_RESET (R30), PART_RESET (R31) and RESET_N_ASSERTED (R1, R25). -/

namespace Sys2Proof.Machine

open Sys2Proof

/-- RESET_DONE is written into report slot 0, the report producer count becomes 1, and the status image is written whole (R30,
R31). -/
def resetDone (cause : ResetCause) (tag : Half) (s : State) : State :=
  let s := s.store 0x4000 (reportBytes (.resetDone cause tag s.driveCount))
  wholeRefresh { s with re.producer := 1 }

/-! ## Power-on reset -/

/-- A door's state at power-on reset: its sampled level, its latch set (R146). -/
def doorAtReset (isOpen : Bool) : DoorState := { isOpen := isOpen, latch := true }

/-- Every block in its initial state, with what the part samples as RESET_N is released; staging memory is not touched.
The safe levels leave the jaw output last driven as it is (R149), and the rail direction with it.
The timebase and the read data start over and the direction is kept, DESIGN CHOICE; notes/assumptions/14.md, 29.md. -/
def initialState (drives : Fin 4) (doors : DoorLevels) (lines : Lines) (s : State) : State :=
  sensePicker
    { pending := s.pending, mem := s.mem, freeCount := s.freeCount, resetAsserted := false, driveCount := drives.val + 1
      cd := {
        places := initialPlaces (drives.val + 1)
        doorA := doorAtReset doors.a
        doorB := doorAtReset doors.b
        doorMail := doorAtReset doors.mail }
      lc := { lines := lines, outputs := s.lc.outputs.safe } }

/-- POWER_ON_RESET (R30). -/
def powerOnReset (drives : Fin 4) (doors : DoorLevels) (lines : Lines) (s : State) : State :=
  resetDone .powerOn 0 (initialState drives doors lines s)

/-- RESET_N is asserted: every block is held in its initial state with the safe levels set (R149), and ATTN is deasserted
(R25). -/
def resetNAsserted (s : State) : State :=
  { State.reset with
    pending := s.pending, mem := s.mem, freeCount := s.freeCount, lc := { outputs := s.lc.outputs.safe } }

/-! ## PART_RESET (R31) -/

/-- The directory at PART_RESET (R147): pending-order fields none, the place under an interrupted gripper step UNKNOWN, the
PICKER sensed, and held door edges taken without their reports. -/
def directoryPartReset (s : State) : State :=
  let s := interruptGripper s
  let s := s.cd.held.foldl (fun s x => match x with | .edge d => openDoor d s | .label _ _ => s) s
  { s with cd := { s.cd with places := s.cd.places.map fun p => { p with pending := none }, held := [] } }

/-- The loader at PART_RESET (R165): an exchange in progress on the label link is still finished (R160). -/
def loaderPartReset (s : State) : State :=
  let idle := decide (s.lc.state = .idle)
  { s with lc := { s.lc.quiet with
    state := if idle then .idle else .unhomed
    station := if idle then s.lc.station else none
    queue := [], step := none, travelCount := 0, posts := [], heldDoors := []
    outputs := s.lc.outputs.safe } }

/-- Every other block returns to its initial state; the refresh count goes on. -/
def blocksPartReset (s : State) : State :=
  { s with
    wd := {}, jt := {}, streams := Vector.replicate 4 {}, ce := {}, lanes := Vector.replicate 4 {}, sc := {}
    framers := Vector.replicate 4 {}, de := {}
    re := { refreshCount := s.re.refreshCount, resetCause := .request } }

/-- The effects of PART_RESET, with the tag of its request. -/
def partResetEffect (tag : Half) (s : State) : State :=
  resetDone .request tag (blocksPartReset (loaderPartReset (directoryPartReset s)))

/-- PART_RESET: taken when the Request Engine reaches it in ring order; it needs no reservation (R31).
DEDUCED: not while the Request Engine waits on its own post; notes/assumptions/29.md. -/
def partReset (x : Sample) (s : State) : State :=
  if !s.waiting .requestEngine && s.re.inHand.isNone && decide (s.re.consumer ≠ s.re.takenProducer)
      && decide (recordKind s.requestRecord = some .partReset) then
    partResetEffect (BitVec.ofNat 16 (recordTag s.requestRecord)) (s.observe x)
  else s

/-! ## The commands -/

/-- POWER_ON_RESET takes effect in any state. -/
def execPowerOnReset (drives : Fin 4) (doors : DoorLevels) (lines : Lines) (s : State) :
    Host.Outcome State Fault Refusal := .next (powerOnReset drives doors lines s)

/-- PART_RESET ends with the whole status image written, so it leaves no stale mark of its own (R29, R31). -/
def execPartReset (x : Sample) (s : State) : Host.Outcome State Fault Refusal :=
  .next (if s.resetAsserted then s else partReset x s)

/-- RESET_N_ASSERTED takes effect in any state. -/
def execResetNAsserted (s : State) : Host.Outcome State Fault Refusal := .next (resetNAsserted s)

end Sys2Proof.Machine
end

