-- ==== Sys2Proof/Machine/Dispatch.lean ====
section
/-! DEFINITION. The meaning of every command, one arm for each row of spec/opcode_table.json. -/

namespace Sys2Proof.Machine

open Sys2Proof

def exec (i : Instr) (s : State) : Host.Outcome State Fault Refusal :=
  match i with
  | .powerOnReset drives doors lines => Sys2Proof.Machine.execPowerOnReset drives doors lines s
  | .controllerWrite addr data => Sys2Proof.Machine.execControllerWrite addr data s
  | .indexWordWrite addr data => Sys2Proof.Machine.execIndexWordWrite addr data s
  | .apertureWrite addr data => Sys2Proof.Machine.execApertureWrite addr data s
  | .finalByteRead addr length now => Sys2Proof.Machine.execFinalByteRead addr length now s
  | .requestProducerTake => Sys2Proof.Machine.execRequestProducerTake s
  | .reportConsumerTake => Sys2Proof.Machine.execReportConsumerTake s
  | .catalogConsumerTake => Sys2Proof.Machine.execCatalogConsumerTake s
  | .restoreConsumerTake slot => Sys2Proof.Machine.execRestoreConsumerTake slot s
  | .unknownKindRequest => Sys2Proof.Machine.execUnknownKindRequest s
  | .layoutSet => Sys2Proof.Machine.execLayoutSet s
  | .laneSet now => Sys2Proof.Machine.execLaneSet now s
  | .loaderSet => Sys2Proof.Machine.execLoaderSet s
  | .partReset sample => Sys2Proof.Machine.execPartReset sample s
  | .writeStart => Sys2Proof.Machine.execWriteStart s
  | .streamClose => Sys2Proof.Machine.execStreamClose s
  | .verifyStart => Sys2Proof.Machine.execVerifyStart s
  | .restoreStart => Sys2Proof.Machine.execRestoreStart s
  | .jobEnd => Sys2Proof.Machine.execJobEnd s
  | .jobAbort => Sys2Proof.Machine.execJobAbort s
  | .laneResync => Sys2Proof.Machine.execLaneResync s
  | .laneReset => Sys2Proof.Machine.execLaneReset s
  | .cartridgeSet => Sys2Proof.Machine.execCartridgeSet s
  | .move sample => Sys2Proof.Machine.execMove sample s
  | .mount sample => Sys2Proof.Machine.execMount sample s
  | .dismount sample => Sys2Proof.Machine.execDismount sample s
  | .inventory sample => Sys2Proof.Machine.execInventory sample s
  | .pickerPut sample => Sys2Proof.Machine.execPickerPut sample s
  | .loaderHalt sample => Sys2Proof.Machine.execLoaderHalt sample s
  | .loaderResume => Sys2Proof.Machine.execLoaderResume s
  | .backlogAdmit sample => Sys2Proof.Machine.execBacklogAdmit sample s
  | .reportWrite => Sys2Proof.Machine.execReportWrite s
  | .statusRefresh => Sys2Proof.Machine.execStatusRefresh s
  | .compressorTake => Sys2Proof.Machine.execCompressorTake s
  | .compressionComplete => Sys2Proof.Machine.execCompressionComplete s
  | .packerBeginSegment lane now => Sys2Proof.Machine.execPackerBeginSegment lane now s
  | .frameComplete lane now => Sys2Proof.Machine.execFrameComplete lane now s
  | .segmentContinues lane now => Sys2Proof.Machine.execSegmentContinues lane now s
  | .segmentPacked lane => Sys2Proof.Machine.execSegmentPacked lane s
  | .ageExpiry lane now => Sys2Proof.Machine.execAgeExpiry lane now s
  | .syncSearchTest lane => Sys2Proof.Machine.execSyncSearchTest lane s
  | .syncConfirm lane => Sys2Proof.Machine.execSyncConfirm lane s
  | .frameTake lane => Sys2Proof.Machine.execFrameTake lane s
  | .decodeTake => Sys2Proof.Machine.execDecodeTake s
  | .expansionComplete => Sys2Proof.Machine.execExpansionComplete s
  | .sighting => Sys2Proof.Machine.execSighting s
  | .restoreEntryWrite => Sys2Proof.Machine.execRestoreEntryWrite s
  | .endEvaluation => Sys2Proof.Machine.execEndEvaluation s
  | .doorOpeningEdge door sample => Sys2Proof.Machine.execDoorOpeningEdge door sample s
  | .doorClosingEdge door => Sys2Proof.Machine.execDoorClosingEdge door s
  | .orderActivate sample => Sys2Proof.Machine.execOrderActivate sample s
  | .homeInput sample => Sys2Proof.Machine.execHomeInput sample s
  | .stationMark sample => Sys2Proof.Machine.execStationMark sample s
  | .markTimeout sample => Sys2Proof.Machine.execMarkTimeout sample s
  | .retractedDeassert sample => Sys2Proof.Machine.execRetractedDeassert sample s
  | .gripperStepEnd sample => Sys2Proof.Machine.execGripperStepEnd sample s
  | .stepTimeout sample => Sys2Proof.Machine.execStepTimeout sample s
  | .labelExchange byte sample => Sys2Proof.Machine.execLabelExchange byte sample s
  | .exchangeTimeout sample => Sys2Proof.Machine.execExchangeTimeout sample s
  | .retryTimer sample => Sys2Proof.Machine.execRetryTimer sample s
  | .resetNAsserted => Sys2Proof.Machine.execResetNAsserted s

end Sys2Proof.Machine
end

