-- ==== Sys2Proof/Safety.lean ====
section
/-! DEFINITION. The words in which statements about the part are made: what is left unchanged, what a write covers, when a
request is next, and what its answer does. -/

namespace Sys2Proof.Safety

open Sys2Proof Sys2Proof.Machine

/-- Staging memory is in its canonical form. -/
def memoryCanonical (s : State) : Prop := Memory.wf s.mem = true

/-- The part is out of reset. -/
def running (s : State) : Prop := s.resetAsserted = false

/-- The same state with the stale mark of the status image as given. -/
def withStale (b : Bool) (s : State) : State := { s with re := { s.re with stale := b } }

/-- Memory `m'` holds the bytes `bs` from address `a` on, and every other byte reads as in `m`. -/
def written (m m' : List Host.Cell) (a : Nat) (bs : List Byte) : Prop :=
  (∀ (i : Nat) (h : i < bs.length), memRead m' (a + i) = bs[i])
    ∧ ∀ x : Nat, x < a ∨ a + bs.length ≤ x → memRead m' x = memRead m x

/-- Every byte of memory reads as before. -/
def memoryKept (s t : State) : Prop := ∀ x : Nat, memRead t.mem x = memRead s.mem x

/-- The entry of a list of conditions and codes whose condition is the first to hold (R35, R37, R113, R140, R152). -/
def firstHolds {α : Type} (code : α) : List (Prop × α) → Prop
  | [] => False
  | (p, c) :: rest => (p ∧ c = code) ∨ (¬ p ∧ firstHolds code rest)

/-- No condition of the list holds. -/
def noneHolds {α : Type} : List (Prop × α) → Prop
  | [] => True
  | (p, _) :: rest => ¬ p ∧ noneHolds rest

/-! ## The status image (R29, R170) -/

/-- Memory `m` holds every record of the state's status image. -/
def imageShown (s : State) (m : List Host.Cell) : Prop :=
  ∀ r ∈ imageRecords s, ∀ (i : Nat) (h : i < r.2.length), memRead m (r.1 + i) = r.2[i]

/-- An address belongs to no record of the status image. -/
def outsideRecords (s : State) (a : Nat) : Prop := ∀ r ∈ imageRecords s, a < r.1 ∨ r.1 + r.2.length ≤ a

/-- An address begins an index word (01 section 1.2). -/
def indexWord (a : Nat) : Prop := a = 0x8000 ∨ a = 0x8004 ∨ a = 0x8008 ∨ ∃ k : SlotId, a = 0x8020 + 4 * k.val

/-! ## The window table (R5, R6, R167) -/

/-- The windows that R6 compares, numbered: apertures 0 to 3, pools 4 to 7, rings 8 to 11, catalog 12, restore area 13. -/
def windowNumbered (l : Layout) (drives : Nat) (k : Nat) (w : Window) : Prop :=
  (∃ i : StreamId, k = i.val ∧ w = l.apertures[i])
    ∨ (∃ n : LaneId, k = 4 + n.val ∧ n.val < drives ∧ w = { base := l.pools[n].base, size := 32768 * l.pools[n].slots })
    ∨ (∃ n : LaneId, k = 8 + n.val ∧ n.val < drives ∧ w = l.rings[n])
    ∨ (k = 12 ∧ w = l.catalog) ∨ (k = 13 ∧ w = l.restore)

/-- A window's base and size are multiples of a unit and its size lies in a range. -/
def windowFits (unit low high : Nat) (w : Window) : Prop :=
  w.base % unit = 0 ∧ w.size % unit = 0 ∧ low ≤ w.size ∧ w.size ≤ high

/-- A table passes every check of R6. -/
def tableAccepted (l : Layout) (drives : Nat) : Prop :=
  (∃ k, 28 ≤ k ∧ k ≤ 32 ∧ l.memorySize = 2 ^ k)
    ∧ (∀ i : StreamId, (∃ k, 16 ≤ k ∧ k ≤ 20 ∧ l.apertures[i].size = 2 ^ k)
        ∧ l.apertures[i].base % l.apertures[i].size = 0)
    ∧ (∀ n : LaneId, n.val < drives →
        l.pools[n].base % 32768 = 0 ∧ 4 ≤ l.pools[n].slots ∧ l.pools[n].slots ≤ 64
          ∧ windowFits 32768 65536 4194304 l.rings[n])
    ∧ windowFits 32768 32768 33554432 l.catalog ∧ windowFits 65536 65536 268435456 l.restore
    ∧ (∀ k w, windowNumbered l drives k w → 0x10000 ≤ w.base ∧ w.base + w.size ≤ l.memorySize)
    ∧ ∀ j k v w, j < k → windowNumbered l drives j v → windowNumbered l drives k w →
        v.base + v.size ≤ w.base ∨ w.base + w.size ≤ v.base

/-- A table is the one that a LAYOUT_SET record gives (R167); the entries of lanes numbered N and above are ignored (R5). -/
def tableOf (drives : Nat) (r : List Byte) (l : Layout) : Prop :=
  l.memorySize = 2 ^ argByte r 4
    ∧ (∀ i : StreamId, l.apertures[i] = { base := 4096 * fieldNat r (5 + 4 * i.val) 3, size := 2 ^ argByte r (8 + 4 * i.val) })
    ∧ (∀ n : LaneId, n.val < drives →
        l.pools[n] = { base := 4096 * fieldNat r (21 + 4 * n.val) 3, slots := argByte r (24 + 4 * n.val) }
          ∧ l.rings[n] = { base := 4096 * fieldNat r (37 + 4 * n.val) 3, size := 32768 * argByte r (40 + 4 * n.val) })
    ∧ (∀ n : LaneId, drives ≤ n.val → l.pools[n] = {} ∧ l.rings[n] = {})
    ∧ l.catalog = { base := 4096 * fieldNat r 53 3, size := 32768 * fieldNat r 56 2 }
    ∧ l.restore = { base := 4096 * fieldNat r 58 3, size := 65536 * fieldNat r 61 2 }

/-! ## Requests (R19 to R21) -/

/-- The request with record `r` is the next to be decided, it is of the kind given (none: unknown), and its REQUEST_DONE finds
room in the backlog. -/
structure RequestNext (s : State) (kind : Option RequestKind) (r : List Byte) : Prop where
  outOfReset : s.resetAsserted = false
  engineFree : s.waiting .requestEngine = false
  nothingInHand : s.re.inHand = none
  untaken : s.re.consumer ≠ s.re.takenProducer
  isRecord : s.requestRecord = r
  isKind : recordKind r = kind
  room : s.re.hasRoom = true

/-- The state in which a request has been answered with a code: REQUEST_DONE has joined the backlog with the code, the tag, the
kind and the count at which the request was taken, the reservation is released and C has advanced by 1 (R19, R21). -/
def answered (code : Code) (r : List Byte) (s : State) : State :=
  { s with re := { s.re with
    backlog := s.re.backlog ++
      [.requestDone code (BitVec.ofNat 16 (recordTag r)) (BitVec.ofNat 16 (recordKindValue r)) s.re.consumer]
    consumer := s.re.consumer + 1, reservation := false, inHand := none } }

/-- The request kind of a request row; the row of unknown kinds, PART_RESET and the other rows have none here. -/
def requestRow : Instr → Option RequestKind
  | .layoutSet => some .layoutSet
  | .laneSet _ => some .laneSet
  | .loaderSet => some .loaderSet
  | .writeStart => some .writeStart
  | .streamClose => some .streamClose
  | .verifyStart => some .verifyStart
  | .restoreStart => some .restoreStart
  | .jobEnd => some .jobEnd
  | .jobAbort => some .jobAbort
  | .laneResync => some .laneResync
  | .laneReset => some .laneReset
  | .cartridgeSet => some .cartridgeSet
  | .move _ => some .move
  | .mount _ => some .mount
  | .dismount _ => some .dismount
  | .inventory _ => some .inventory
  | .pickerPut _ => some .pickerPut
  | .loaderHalt _ => some .loaderHalt
  | .loaderResume => some .loaderResume
  | _ => none

/-- The state with what a request row samples from outside the part. -/
def sampled : Instr → State → State
  | .laneSet now, s => s.observeTime now
  | .move x, s => s.observe x
  | .mount x, s => s.observe x
  | .dismount x, s => s.observe x
  | .inventory x, s => s.observe x
  | .pickerPut x, s => s.observe x
  | .loaderHalt x, s => s.observe x
  | _, s => s

/-- A lane of the part that a byte names. -/
def laneNamed (s : State) (byte : Nat) (n : LaneId) : Prop := byte = n.val ∧ n.val < s.driveCount

/-- The slot is the lowest-numbered free job slot (R33). -/
def lowestFree (s : State) (k : SlotId) : Prop :=
  s.jt.jobs[k].live = false ∧ ∀ j : SlotId, j.val < k.val → s.jt.jobs[j].live = true

/-- A live job of the slot, the only live one with its tag. -/
def liveOnly (s : State) (k : SlotId) (tag : Nat) : Prop :=
  s.jt.jobs[k].live = true ∧ s.jt.jobs[k].record.tag.toNat = tag
    ∧ ∀ j : SlotId, s.jt.jobs[j].live = true → s.jt.jobs[j].record.tag.toNat = tag → j = k

/-- The Job Table takes signals at once and holds none. -/
def jobTableFree (s : State) : Prop := s.waiting .jobTable = false ∧ s.jt.held = []

/-! ## Jobs and streams (03) -/

/-- A live WRITE job of the lane. -/
def writeJob (s : State) (n : LaneId) (k : SlotId) : Prop :=
  s.jt.jobs[k].live = true ∧ s.jt.jobs[k].record.lane = n ∧ s.jt.jobs[k].record.kind = .write

/-- The Job Table takes signals at once, and a FLUSHING job that the stream is bound to names the stream: while a buffer of
the stream is CLOSED, COMPRESSING for a live chunk, READY or PACKING, a change of buffer does not end FLUSHING (R40, R45). -/
def streamBound (s : State) (i : StreamId) : Prop :=
  jobTableFree s ∧ ∀ k, s.streams[i].slot = some k → s.jt.jobs[k].record.state = .flushing → s.jt.jobs[k].record.stream = i

/-- The stream's other buffer than `b` holds a chunk that keeps a FLUSHING job from DRAINING (R40). -/
def otherBusy (s : State) (i : StreamId) (b : Fin 2) : Prop :=
  let x := s.streams[i].buffers[1 - b].state
  x = .closed ∨ x = .ready ∨ x = .packing ∨ (x = .compressing ∧ ∀ c, s.ce.inFlight = some c → c.discard = false)

/-- Buffer `b` of the stream becomes FREE and leads to nothing but a new accept limit: the stream's job, if any, is not in
FLUSHING, or its other buffer keeps it there (R40, R45). -/
def staysFlushing (s : State) (i : StreamId) (b : Fin 2) : Prop :=
  streamBound s i ∧ ∀ k, s.streams[i].slot = some k → s.jt.jobs[k].record.state = .flushing → otherBusy s i b

/-- Job `j` is the FLUSHING WRITE job of the stream, and nothing of it is left to pack once buffer `b` is FREE (R40). -/
def lastToPack (s : State) (i : StreamId) (b : Fin 2) (j : SlotId) : Prop :=
  let x := s.streams[i].buffers[1 - b].state
  jobTableFree s ∧ s.streams[i].slot = some j ∧ s.jt.jobs[j].record.stream = i ∧ s.jt.jobs[j].record.state = .flushing
    ∧ (x = .free ∨ (x = .compressing ∧ ∃ c, s.ce.inFlight = some c ∧ c.discard = true ∧ c.entry.stream = i
        ∧ c.entry.buffer = 1 - b))

/-- A WRITE job that its lane's FULL flag cuts off (R48). -/
def stillPacks (job : JobRecord) : Prop :=
  job.state = .active ∨ (job.state = .flushing ∧ job.pendingOutcome = .complete)

/-- The stream's accept limit is the one R44 gives. -/
def limitCurrent (s : State) (i : StreamId) : Prop := s.wd.streamAperture[i].limit = s.streamLimit i

/-- The stream's accept limit after one of its buffers has become FREE (R44, R45). -/
def limitRaised (s : State) (i : StreamId) : Word :=
  if s.streams[i].phase = .opened ∧ s.waiting (.stream i) = false then s.wd.streamAperture[i].limit + 16384
  else s.wd.streamAperture[i].limit

/-- The backlog takes at least this many more reports at once. -/
def roomFor (s : State) (n : Nat) : Prop := s.re.waiters = [] ∧ s.re.backlog.length + n < 64

/-- The cartridge in the lane's drive satisfies a condition. -/
def inDrive (s : State) (n : LaneId) (p : CartRecord → Prop) : Prop :=
  ∃ c x, s.cd.places[drivePlace n].state = .occupied c ∧ s.cd.records[c] = some x ∧ p x

/-- The conditions that the three job starts check first (R35, R37, R38). -/
def startRefusals (s : State) (r : List Byte) : List (Prop × Code) :=
  [(s.wd.layout = none, .noLayout),
   (∃ k : SlotId, s.jt.jobs[k].live = true ∧ s.jt.jobs[k].record.tag.toNat = recordTag r, .tagInUse),
   (∀ k : SlotId, s.jt.jobs[k].live = true, .busy)]

/-- The drive conditions that the three job starts share. -/
def driveRefusals (s : State) (n : LaneId) : List (Prop × Code) :=
  [(∀ c, s.cd.places[drivePlace n].state ≠ .occupied c, .driveEmpty),
   (s.cd.places[drivePlace n].pending ≠ none, .placePending)]

/-- The table of R35. -/
def writeStartRefusals (s : State) (r : List Byte) (i : StreamId) (n : LaneId) : List (Prop × Code) :=
  startRefusals s r
    ++ [(s.streams[i].phase ≠ .free, .streamInUse),
        (s.lanes[n].role = .read ∨ 4 ≤ ((List.finRange 8).filter fun k => s.jt.jobs[k].live
          && decide (s.jt.jobs[k].record.lane = n) && decide (s.jt.jobs[k].record.kind = .write)).length, .laneBusy),
        (s.lanes[n].full = true, .laneFull)]
    ++ driveRefusals s n
    ++ [(inDrive s n fun x => x.label = none, .cartridgeUnlabelled),
        (inDrive s n fun x => x.condition = .unset, .cartridgeUnset),
        (inDrive s n fun x => x.condition = .suspect, .cartridgeSuspect),
        (inDrive s n fun x => x.limit.toNat ≤ x.written.toNat, .cartridgeLimit)]

/-- The table of R37. -/
def verifyStartRefusals (s : State) (r : List Byte) (n : LaneId) : List (Prop × Code) :=
  startRefusals s r ++ [(s.lanes[n].role ≠ .idle, .laneBusy)] ++ driveRefusals s n
    ++ [(inDrive s n fun x => x.condition = .unset, .cartridgeUnset),
        (inDrive s n fun x => fieldNat r 12 4 < fieldNat r 8 4 ∨ x.written.toNat ≤ fieldNat r 12 4, .rangeInvalid)]

/-- The table of R38. -/
def restoreStartRefusals (s : State) (r : List Byte) (n : LaneId) (area : Window) : List (Prop × Code) :=
  let base := fieldNat r 16 4
  let size := fieldNat r 20 4
  startRefusals s r ++ [(s.lanes[n].role ≠ .idle, .laneBusy)] ++ driveRefusals s n
    ++ [(argByte r 5 = 0 ∨ fieldNat r 12 4 < fieldNat r 8 4, .badArgument),
        (base % 4096 ≠ 0, .ringFault),
        (size % 4096 ≠ 0 ∨ size < 65536 ∨ 16777216 < size, .ringInvalid),
        (base < area.base ∨ area.base + area.size < base + size, .ringInvalid),
        (∃ k : SlotId, s.jt.jobs[k].live = true ∧ s.jt.jobs[k].record.kind = .restore
          ∧ base < s.jt.jobs[k].record.ringBase.toNat + s.jt.jobs[k].record.ringSize.toNat
          ∧ s.jt.jobs[k].record.ringBase.toNat < base + size, .ringInvalid)]

/-- The lane and the Framer of a lane that a VERIFY_START or RESTORE_START has taken (R37, R101), in a state with its answer
and its job record in place. -/
def boundToRead (n : LaneId) (k : SlotId) (l : Layout) (s : State) : State :=
  { s with
    lanes := s.lanes.set n { s.lanes[n] with role := .read }
    framers := s.framers.set n {
      slot := some k, phase := .taking, locksLost := s.framers[n].locksLost, groupsChecked := s.framers[n].groupsChecked
      groupsUnchecked := s.framers[n].groupsUnchecked, segmentFaults := s.framers[n].segmentFaults }
    wd := { s.wd with ringAperture := s.wd.ringAperture.set n {
      expected := 0, limit := BitVec.ofNat 32 l.rings[n].size, held := false } } }

/-- A buffer's chunk is one that the FULL flag gives up (R48). -/
def chunkLost (s : State) (i : StreamId) (b : Fin 2) : Prop :=
  s.streams[i].buffers[b].state = .closed ∨ s.streams[i].buffers[b].state = .ready
    ∨ (s.streams[i].buffers[b].state = .compressing
        ∧ ∀ c, s.ce.inFlight = some c → c.entry.stream = i → c.entry.buffer = b → c.discard = false)

/-- Job `k` of state `s` has been cut off in `t` by its lane's FULL flag (R48), and is in the state given. -/
def cutOff (s t : State) (k : SlotId) (state : JobState) : Prop :=
  let job := s.jt.jobs[k].record
  let i := job.stream
  let lost (q : Word) : Prop := ∃ b e, chunkLost s i b ∧ s.streams[i].buffers[b].entry = some e ∧ e.sequence = q
  (∃ (next : Word) (final : Bool),
      t.jt.jobs[k] = { s.jt.jobs[k] with record := { job with
        state := state, pendingOutcome := .cartridgeFull, nextSeq := next, closedFinal := final } }
      ∧ ((∀ q, ¬ lost q) → next = job.nextSeq)
      ∧ ((∃ q, lost q) → lost next ∧ ∀ q, lost q → next.toNat ≤ q.toNat)
      ∧ (final = true ↔ job.closedFinal = true ∧ ¬ lost 0xFFFFFFFF))
    ∧ t.streams[i].phase = .closing ∧ t.streams[i].slot = s.streams[i].slot
    ∧ (∀ b : Fin 2, t.streams[i].buffers[b] =
        if s.streams[i].buffers[b].state ∈ [.filling, .closed, .ready] then {} else s.streams[i].buffers[b])
    ∧ t.wd.streamAperture[i] = { s.wd.streamAperture[i] with limit := s.wd.streamAperture[i].expected }
    ∧ (∀ e, e ∈ t.ce.queue ↔ e ∈ s.ce.queue ∧ ¬ (e.stream = i ∧ s.streams[i].buffers[e.buffer].state = .closed))
    ∧ (t.ce.inFlight = s.ce.inFlight.map fun c =>
        if c.entry.stream = i ∧ s.streams[i].buffers[c.entry.buffer].state = .compressing then { c with discard := true } else c)
    ∧ (∀ j, j ≠ k → t.jt.jobs[j] = s.jt.jobs[j]) ∧ t.jt = { s.jt with jobs := t.jt.jobs }
    ∧ (∀ j, j ≠ i → t.streams[j] = s.streams[j] ∧ t.wd.streamAperture[j] = s.wd.streamAperture[j])
    ∧ t.wd = { s.wd with streamAperture := t.wd.streamAperture }
    ∧ t.ce = { s.ce with queue := t.ce.queue, inFlight := t.ce.inFlight }

/-- A buffer keeps a FLUSHING job of its stream from DRAINING (R40): its chunk is PACKING, or CLOSED, READY or COMPRESSING and
not given up. -/
def keepsFlushing (s : State) (i : StreamId) (b : Fin 2) : Prop :=
  s.streams[i].buffers[b].state = .packing ∨ chunkLost s i b

/-- No buffer of the stream is being packed, and a COMPRESSING one is the compression in flight. -/
def nothingPacked (s : State) (i : StreamId) : Prop :=
  ∀ b : Fin 2, s.streams[i].buffers[b].state ≠ .packing
    ∧ (s.streams[i].buffers[b].state = .compressing →
        ∃ c, s.ce.inFlight = some c ∧ c.entry.stream = i ∧ c.entry.buffer = b)

/-- The WRITE job of a lane is the only live WRITE job there. -/
def soleWriteJob (s : State) (n : LaneId) (k : SlotId) : Prop := writeJob s n k ∧ ∀ j, writeJob s n j → j = k

/-- The buffer that takes a stream's next byte: the FILLING one, else the lowest-numbered FREE one (R43). -/
def takesNext (st : Stream) (f : Fin 2) : Prop :=
  if st.buffers[0].state = .filling then f = 0
  else if st.buffers[1].state = .filling then f = 1
  else if st.buffers[0].state = .free then f = 0
  else st.buffers[1].state = .free ∧ f = 1

/-- The chunk that the next byte joins in the buffer that takes it: the FILLING one's, or an empty one whose running raw check
has just started (R43). -/
def chunkInto (st : Stream) (f : Fin 2) : Buffer :=
  if st.buffers[f].state = .filling then st.buffers[f] else { state := .filling, data := [], check := 0xFFFFFFFF }

/-- The buffers of a stream once its chunks have been given up (R41, R48, R49); a COMPRESSING one is left to the Compressor, a
PACKING one to the packer. -/
def buffersLeft (st : Stream) : Vector Buffer 2 :=
  st.buffers.map fun b => if b.state ∈ [.filling, .closed, .ready] then {} else b

/-- The Compressor once chunks of some streams have been given up: the CLOSED ones have left the queue, and one in flight is
marked for discard (R41, R48, R49). -/
def compressorLeft (s : State) (lost : StreamId → Bool) : Compressor :=
  let at' (e : ChunkEntry) (x : BufferState) : Bool := lost e.stream && decide (s.streams[e.stream].buffers[e.buffer].state = x)
  { s.ce with
    queue := s.ce.queue.filter fun e => !at' e .closed
    inFlight := s.ce.inFlight.map fun c => if at' c.entry .compressing then { c with discard := true } else c }

/-- The state `u` with a stream of state `s` FREE, as when the slot of its job is freed (R46); nothing of its chunks is left but
one being compressed for discard (R54). -/
def streamFreed (s u : State) (i : StreamId) : State :=
  { u with
    streams := s.streams.set i { phase := .free, slot := none, buffers := buffersLeft s.streams[i] }
    ce := compressorLeft s fun j => decide (j = i)
    wd := { u.wd with streamAperture := s.wd.streamAperture.set i {} } }

/-! ## The catalog (06) -/

/-- The bytes of the live record with a count. -/
def recordAt (s : State) (l : Layout) (q : Word) : List Byte := memBytes s.mem (recordAddress l q) 32

/-- The live records are at most the catalog's K, so that no two of them share a position (R89). -/
def catalogBounded (s : State) (l : Layout) : Prop :=
  0 < l.catalog.size / 32 ∧ (s.sc.producer - s.sc.consumer).toNat ≤ l.catalog.size / 32
    ∧ s.sc.consumer.toNat + (s.sc.producer - s.sc.consumer).toNat < 4294967296

/-- Memory `m'` differs from the state's in the state bytes of the live records that `f` names, and nowhere else. -/
def recordsSet (s : State) (l : Layout) (f : List Byte → Option Nat) (m' : List Host.Cell) : Prop :=
  (∀ q ∈ s.sc.live, ∀ v, f (recordAt s l q) = some v → memRead m' (recordAddress l q + 11) = BitVec.ofNat 8 v)
    ∧ ∀ a, (∀ q ∈ s.sc.live, f (recordAt s l q) ≠ none → a ≠ recordAddress l q + 11) → memRead m' a = memRead s.mem a

/-- A live record lies on the labelled cartridge and begins in the range of groups (R97). -/
def inRange (label : Option Label) (first last : Word) (r : List Byte) : Prop :=
  ∃ x, label = some x ∧ r.take 8 = x.toList ∧ first.toNat ≤ fieldNat r 16 4 ∧ fieldNat r 16 4 ≤ last.toNat

/-- A live record is the one a sighting names (R98). -/
def sightedBy (label : Option Label) (frame : FrameName) (offset : Nat) (r : List Byte) : Prop :=
  ∃ x, label = some x ∧ r.take 8 = x.toList ∧ fieldNat r 16 4 = frame.group.toNat ∧ fieldNat r 20 1 = frame.index.val
    ∧ fieldNat r 22 2 = offset ∧ fieldNat r 11 1 ≠ 6

/-! ## Lanes and Framers (05, 07) -/

/-- A READY segment of the lane: its buffer, its queue entry and its header (R54, R71). -/
def readyFor (s : State) (n : LaneId) (i : StreamId) (b : Fin 2) (e : ChunkEntry) (h : SegmentHeader) : Prop :=
  s.streams[i].buffers[b].state = .ready ∧ s.streams[i].buffers[b].entry = some e ∧ s.streams[i].buffers[b].header = some h
    ∧ e.lane = n

/-- The group in the open slot of a lane is pad-closed in memory `m'`, which is `m` elsewhere (R77): the rest of its payload is
filler, and every frame from the position's on has flag bit 0 and its fill count, frame 7 with the group check. -/
def padClosed (m m' : List Host.Cell) (slotAt : Nat) (g : Word) (p : Position) : Prop :=
  (∀ f : Nat, p.frame ≤ f → f ≤ 7 →
      memBytes m' (slotAt + 4096 * f) 20 =
        frameHeader g (if f = 7 then ~~~ crcUpdate p.check (zeroBytes (4076 - p.offset + (7 - p.frame) * 4076)) else 0)
          (if f = p.frame then p.firstSegment else none) f true (if f = p.frame then 4076 - p.offset else 4076)
      ∧ ∀ o : Nat, (if f = p.frame then p.offset else 0) ≤ o → o < 4076 → memRead m' (slotAt + 4096 * f + 20 + o) = 0)
    ∧ ∀ a : Nat, a < slotAt + 4096 * p.frame ∨ slotAt + 32768 ≤ a ∨
        (slotAt + 4096 * p.frame + 20 ≤ a ∧ a < slotAt + 4096 * p.frame + 20 + p.offset) → memRead m' a = memRead m a

/-- The current frame, at position `p` of the slot of group `g`, is completed with filler in memory `m'`, which is `m` elsewhere
(R74 step 3, R75): the rest of its payload is 0 and its header has flags 0 and the fill count, in frame 7 with the group check. -/
def frameFilled (m m' : List Host.Cell) (slotAt : Nat) (g : Word) (p : Position) : Prop :=
  let base := slotAt + 4096 * p.frame
  let pad := 4076 - p.offset
  memBytes m' base 20 = frameHeader g (if p.frame = 7 then ~~~ crcUpdate p.check (zeroBytes pad) else 0) p.firstSegment p.frame
      false pad
    ∧ (∀ o : Nat, p.offset ≤ o → o < 4076 → memRead m' (base + 20 + o) = 0)
    ∧ ∀ a : Nat, a < base ∨ base + 4096 ≤ a ∨ (base + 20 ≤ a ∧ a < base + 20 + p.offset) → memRead m' a = memRead m a

/-- The lane after its open slot, at position `p` with group `g`, has been pad-closed (R77). -/
def closedLane (lane : Lane) (p : Position) (g : Word) (reason : CloseReason) : Lane :=
  let pad := 4076 - p.offset + (7 - p.frame) * 4076
  let raised (w : Word) : Word := if w = 0xFFFFFFFF then 0xFFFFFFFF else w + 1
  let c := lane.counters
  { lane with
    slots := lane.slots.set p.slot (.ready g), position := none, openedAt := none, closePending := none
    counters := { c with
      padBytes := if c.padBytes.toNat + pad < 4294967295 then c.padBytes + BitVec.ofNat 32 pad else 0xFFFFFFFF
      closedStarve := if reason = .starve then raised c.closedStarve else c.closedStarve
      closedAge := if reason = .age then raised c.closedAge else c.closedAge
      closedFlush := if reason = .flush then raised c.closedFlush else c.closedFlush
      closedLimit := if reason = .limit then raised c.closedLimit else c.closedLimit
      closedFull := if reason = .full then raised c.closedFull else c.closedFull } }

/-- The slots of a lane once no more than `keep` DRAINED ones remain, those with the highest group numbers (R84). -/
def retained (keep : Nat) (slots : List SlotState) : List SlotState :=
  slots.map fun x => match x with
    | .drained g =>
      if keep ≤ slots.countP (fun y => match y with | .drained h => decide (g.toNat < h.toNat) | _ => false) then .free else x
    | _ => x

/-- No two DRAINED slots of a lane have one group number (R69). -/
def drainedDistinct (slots : List SlotState) : Prop :=
  ∀ (j k : Nat) (g : Word), slots[j]? = some (.drained g) → slots[k]? = some (.drained g) → j = k

/-- The Framer of a lane may act: it is TAKING, waits on no post and has no frame unfinished, and a VERIFY job's stream has
not passed the last group. -/
structure FramerFree (s : State) (n : LaneId) : Prop where
  taking : s.framers[n].phase = .taking
  noPost : s.waiting (.framer n) = false
  noFrame : s.framers[n].frame = none
  notPast : s.framers[n].pastLast = false

/-- The lane's Framer as given, with the consumed mark it has in `t` and the accept limit a ring size beyond it (R102). -/
def withFramer (s t : State) (l : Layout) (n : LaneId) (f : Framer) : State :=
  { s with
    framers := s.framers.set n { f with consumed := t.framers[n].consumed }
    wd := { s.wd with ringAperture := s.wd.ringAperture.set n { s.wd.ringAperture[n] with
      limit := t.framers[n].consumed + BitVec.ofNat 32 l.rings[n].size } } }

/-- A stream position that the lane still needs (R102): the retained position, or the first piece position of a segment that
the assembler holds or that the Decode Engine holds queued or is expanding for a lane still bound. -/
def needed (t : State) (n : LaneId) (x : Word) : Prop :=
  let f := t.framers[n]
  let first (pieces : List Piece) : Prop := ∃ p rest, pieces = p :: rest ∧ p.position = x
  x = (if f.phase = .taking ∧ f.sync = .locked ∧ 0 < f.missCount then f.firstMissed.getD f.scan else f.scan)
    ∨ (∃ a, (f.assembler = .collect a ∨ f.assembler = .hold a) ∧ first a.pieces)
    ∨ (∃ e ∈ t.de.queue, e.lane = n ∧ first e.pieces)
    ∨ ∃ d, t.de.operation = some (.decode d) ∧ d.result = none ∧ d.linked = true ∧ d.entry.lane = n ∧ first d.entry.pieces

/-- The lane's consumed mark in `t` is the needed position least far ahead of its consumed mark in `s` (R102). -/
def consumedRight (s t : State) (n : LaneId) : Prop :=
  needed t n t.framers[n].consumed
    ∧ ∀ x, needed t n x → ahead t.framers[n].consumed s.framers[n].consumed ≤ ahead x s.framers[n].consumed

/-- The state `u` with the lane's Framer as given and its marks recomputed is `t` (R102). -/
def framerMoves (s u t : State) (l : Layout) (n : LaneId) (f : Framer) : Prop :=
  t = withStale t.re.stale (withFramer u t l n f) ∧ consumedRight s t n

/-- The Framer once the payload of an accepted frame has entered the group check (R109). A frame whose group is not later than
the last settled one takes no part; one of the group in hand goes on with the running check while that is ACCUMULATING; any
other settles a group in hand unchecked and takes its own in hand, ACCUMULATING from a frame 0 accepted without a slip. -/
def grouped (f : Framer) (x : FrameName) (slip : Bool) (payload : List Byte) : Framer :=
  let hand : GroupInHand :=
    if x.index = 0 ∧ slip = false then { group := x.group, accumulating := true, check := crcUpdate 0xFFFFFFFF payload }
    else { group := x.group, accumulating := false, check := 0xFFFFFFFF }
  match f.lastSettled.any fun z => decide ((x.group - z).toInt ≤ 0), f.groupInHand with
  | true, _ => f
  | false, none => { f with groupInHand := some hand }
  | false, some g =>
    if g.group = x.group then
      { f with groupInHand := some (if g.accumulating then { g with check := crcUpdate g.check payload } else g) }
    else { f with
      groupInHand := some hand, lastSettled := some g.group
      groupsUnchecked := if f.groupsUnchecked = 0xFFFFFFFF then 0xFFFFFFFF else f.groupsUnchecked + 1 }

/-- The Framer once its group in hand, if any, has been settled unchecked (R109). -/
def unchecked (f : Framer) : Framer :=
  match f.groupInHand with
  | none => f
  | some g => { f with
    groupInHand := none, lastSettled := some g.group
    groupsUnchecked := if f.groupsUnchecked = 0xFFFFFFFF then 0xFFFFFFFF else f.groupsUnchecked + 1 }

/-- The due list once job `k` has met its end condition: its end evaluation joins unless an entry of it is queued, a decode for
it is in flight or it is due already (R127). -/
def evaluationDue (de : DecodeEngine) (k : SlotId) : List SlotId :=
  let busy : Bool := match de.operation with
    | some (.decode d) => decide (d.entry.slot = k) && !d.discard
    | some (.evaluation j) => decide (j = k)
    | none => false
  if (∀ e ∈ de.queue, e.slot ≠ k) ∧ busy = false ∧ k ∉ de.due then de.due ++ [k] else de.due

/-- The operation of the Decode Engine once the work of some entries and some jobs has been given up and lane `n` unbound: a
decode of such an entry is marked for discard while it is EXPANDING and has ended while it was SETTLING, an end evaluation of
such a job has ended, and a decode of the lane signals its Framer no more (R120, R124, R127, R132). -/
def operationLeft (de : DecodeEngine) (n : LaneId) (entries : DecodeEntry → Bool) (jobs : SlotId → Bool) : Option DecodeOperation :=
  match de.operation with
  | some (.decode d) =>
    let linked := d.linked && decide (d.entry.lane ≠ n)
    if entries d.entry = false then some (.decode { d with linked := linked })
    else if d.result = none then some (.decode { d with linked := linked, discard := true })
    else none
  | some (.evaluation k) => if jobs k then none else some (.evaluation k)
  | none => none

/-- The Decode Engine once the decode in flight for job `k` has ended: idle, and the end evaluation of a live job in ENDING that
has no entry left is due (R123, R127). -/
def decodeEnded (s : State) (k : SlotId) : DecodeEngine :=
  let idle : DecodeEngine := { s.de with operation := none }
  if s.jt.jobs[k].live = true ∧ s.jt.jobs[k].record.state = .ending then { idle with due := evaluationDue idle k } else idle

/-- What is said of a header at a place of a payload, where `step` says it by what `next` says of the header after it: unrolled
over a number of headers (R114). -/
def unrolled (step : (State → Nat → Prop) → State → Nat → Prop) : Nat → State → Nat → Prop
  | 0 => fun _ _ => True
  | d + 1 => step (unrolled step d)

/-- What is wrong with a segment header, the first check of R113 that fails. -/
def headerFaults (h : List Byte) : List (Prop × SegmentFaultReason) :=
  [(h.take 2 ≠ [0xA7, 0x5E], .mark), (fieldNat h 2 1 ≠ 1 ∧ fieldNat h 2 1 ≠ 2, .mode),
   (fieldNat h 4 2 < 1 ∨ 16384 < fieldNat h 4 2, .length), (fieldNat h 6 2 < 1 ∨ fieldNat h 4 2 < fieldNat h 6 2, .length),
   (fieldNat h 2 1 = 2 ∧ fieldNat h 6 2 ≠ fieldNat h 4 2, .length)]

/-- The fields of a segment header's sixteen bytes (R63, R169). -/
def headerFields (h : List Byte) : SegmentHeader :=
  { mode := if fieldNat h 2 1 = 1 then .packed else .plain, tag := BitVec.ofNat 8 (fieldNat h 3 1), rawLength := fieldNat h 4 2
    storedLength := fieldNat h 6 2, sequence := BitVec.ofNat 32 (fieldNat h 8 4), rawCheck := BitVec.ofNat 32 (fieldNat h 12 4) }

/-- A job wants a segment (R115). -/
def wantedBy (job : JobRecord) (h : SegmentHeader) : Prop :=
  job.kind = .restore → h.tag = job.sourceTag ∧ job.firstChunk.toNat ≤ h.sequence.toNat ∧ h.sequence.toNat ≤ job.lastChunk.toNat

/-- A restore job's missing counter raised by `count` (R34, R130). -/
def countedMissing (job : JobRecord) (count : Nat) : Word :=
  if job.counters.missing.toNat + count < 4294967295 then job.counters.missing + BitVec.ofNat 32 count else 0xFFFFFFFF

/-- The MISSING entry of `count` chunks from the expected sequence on has been written into the slot's restore ring at Pr, no
other byte of memory changed, and Pr and the expected sequence have advanced past it (R130 to R132). -/
def missingWritten (s t : State) (k : SlotId) (count : Nat) : Prop :=
  let job := s.jt.jobs[k].record
  let x := s.de.slots[k]
  let bytes := descriptorBytes x.expected count 0 .missing
  let at' (i : Nat) : Nat := job.ringBase.toNat + (x.producer.toNat + i) % job.ringSize.toNat
  (∀ (i : Nat) (h : i < bytes.length), memRead t.mem (at' i) = bytes[i])
    ∧ (∀ a, (∀ i, i < bytes.length → a ≠ at' i) → memRead t.mem a = memRead s.mem a)
    ∧ t.de.slots = s.de.slots.set k { x with producer := x.producer + 16, expected := x.expected + count }

/-- The RESTORE job of slot `k` has ended COMPLETE with the record given: its JOB_DONE is posted, its slot is free, its lane is
IDLE, its Framer UNBOUND and the Decode Engine idle (R46, R132). -/
def restoreEnded (s t : State) (k : SlotId) (record : JobRecord) : Prop :=
  t.jt.jobs = s.jt.jobs.set k { live := false, record := { record with state := .free } }
    ∧ t.re.backlog = s.re.backlog ++ [.jobDone k record .complete]
    ∧ t.de.operation = none ∧ t.de.due = s.de.due ∧ t.de.queue = s.de.queue
    ∧ t.lanes[record.lane].role = .idle ∧ t.framers[record.lane].phase = .unbound
    ∧ t.lc = s.lc ∧ t.cd = s.cd ∧ t.streams = s.streams

/-! ## The loader (10) -/

/-- A place lies behind a door (R136). -/
def behind : Door → PlaceId → Prop
  | .a, p => 5 ≤ p.val ∧ p.val ≤ 16
  | .b, p => 17 ≤ p.val ∧ p.val ≤ 28
  | .mail, p => p.val = 4

/-- The places named are UNKNOWN in `t`, the records of those that were OCCUPIED are free and no others; the pending-order
fields are left to what else is said of them (R144, R159, R162). -/
def placesLost (s t : State) (lost : PlaceId → Prop) : Prop :=
  (∀ p : PlaceId, (lost p → t.cd.places[p].state = .unknown) ∧ (¬ lost p → t.cd.places[p].state = s.cd.places[p].state))
    ∧ ∀ c : CartId, ((∃ p, lost p ∧ s.cd.places[p].state = .occupied c) → t.cd.records[c] = none)
      ∧ ((∀ p, lost p → s.cd.places[p].state ≠ .occupied c) → t.cd.records[c] = s.cd.records[c])

/-- The number of places behind a door that are OCCUPIED (R144). -/
def occupiedBehind (s : State) (d : Door) (freed : Nat) : Prop :=
  ∃ ps : List PlaceId, ps.Nodup ∧ freed = ps.length ∧ ∀ p, p ∈ ps ↔
    behind d p ∧ ∃ c y, s.cd.places[p].state = .occupied c ∧ s.cd.records[c] = some y

/-- A gripper step of an order works at a place: a GET at its source, a PUT at its target (R157, R158). -/
def worksAt (step : ActiveStep) (o : Order) (p : PlaceId) : Prop :=
  (step.kind = .get ∧ o.source = some p) ∨ (step.kind = .put ∧ o.target = some p)

/-- The lowest-numbered free record of the directory. -/
def recordFree (cd : Directory) (d : CartId) : Prop :=
  cd.records[d] = none ∧ ∀ e : CartId, e.val < d.val → cd.records[e] ≠ none

/-- The directory once the PICKER has been sensed from the cartridge-present input (R143): EMPTY, its record free, when it was
OCCUPIED and nothing is present; OCCUPIED by a new record when it was not and something is; else as it was. -/
def pickerSensed (present : Bool) (cd after : Directory) : Prop :=
  (∀ c, cd.places[pickerPlace].state = .occupied c → after = if present then cd else { cd with
      places := cd.places.set pickerPlace { cd.places[pickerPlace] with state := .empty }
      records := cd.records.set c none })
    ∧ ((∀ c, cd.places[pickerPlace].state ≠ .occupied c) → (present = false → after = cd)
      ∧ (present = true → ∀ d, recordFree cd d → after = { cd with
          places := cd.places.set pickerPlace { cd.places[pickerPlace] with state := .occupied d }
          records := cd.records.set d (some { place := pickerPlace }) }))

/-- What the directory makes of a label read of the cartridge at a place, and the reports it posts: a record with another label
takes it and starts over, and LABEL_CHANGED is posted; one with the same label is left; a place without a record takes a new
one with the label (R142, R143). -/
def labelTakenBy (cd : Directory) (p : PlaceId) (label : Option Label) (after : Directory) (reports : List Report) : Prop :=
  (∃ c y, cd.places[p].state = .occupied c ∧ cd.records[c] = some y
    ∧ ((y.label = label ∧ after = cd ∧ reports = [])
      ∨ (y.label ≠ label ∧ reports = [.labelChanged p c y.label label]
        ∧ after = { cd with records := cd.records.set c (some { y with
            label := label, written := 0, verified := 0, limit := 0, condition := .unset }) })))
    ∨ ((∀ c, cd.places[p].state ≠ .occupied c) ∧ reports = [] ∧ ∃ d, recordFree cd d ∧ after = { cd with
        places := cd.places.set p { cd.places[p] with state := .occupied d }
        records := cd.records.set d (some { label := label, place := p }) })

/-- The loader of a state once a travel from station `i` to the station of place `p` has begun: at once with the gripper
retracted, else with a retract step (R149, R155, R159). -/
def travelBegun (s : State) (i : Int) (p : PlaceId) : Loader :=
  let settings := s.re.loaderSettings
  if s.lc.lines.retracted then { s.lc with
    step := some { kind := .travel, station := p.val, part := .moving }
    travelCount := ((p.val : Int) - i).natAbs
    outputs := { s.lc.outputs with motorRun := true, towardHome := decide ((p.val : Int) < i) }
    markTimer := some { started := s.timebase, length := settings.markTimeout * 1000 } }
  else { s.lc with
    step := some { kind := .travel, station := p.val, part := .retractFirst }
    outputs := { s.lc.outputs with gripperExtend := false, gripperRetract := true }
    stepTimer := some { started := s.timebase, length := settings.stepTimeout * 1000 } }

/-- A place number names MAIL or a magazine slot. -/
def shelf (p : PlaceId) : Prop := 4 ≤ p.val ∧ p.val ≤ 28

/-- The lowest-numbered record with a label. -/
def labelled (s : State) (label : Label) (c : CartId) (x : CartRecord) : Prop :=
  s.cd.records[c] = some x ∧ x.label = some label
    ∧ ∀ d : CartId, d.val < c.val → ∀ y, s.cd.records[d] = some y → y.label ≠ some label

/-- The order that a record's arguments describe (R151). -/
def describes (s : State) (r : List Byte) (o : Order) : Prop :=
  match o with
  | { tag, kind := .move, source := some a, target := some b, scope := none, label := none, active := false } =>
    tag.toNat = recordTag r ∧ argByte r 4 = a.val ∧ argByte r 5 = b.val ∧ shelf a ∧ shelf b ∧ a ≠ b
  | { tag, kind := .mount, source := some a, target := some b, scope := none, label := none, active := false } =>
    tag.toNat = recordTag r ∧ argByte r 4 = a.val ∧ argByte r 5 = b.val ∧ shelf a ∧ b.val < s.driveCount ∧ b.val < 4
  | { tag, kind := .mount, source := some a, target := some b, scope := none, label := some x, active := false } =>
    tag.toNat = recordTag r ∧ argByte r 4 = 0xFF ∧ argByte r 5 = b.val ∧ b.val < s.driveCount ∧ b.val < 4
      ∧ x = argLabel r 8 ∧ shelf a ∧ ∃ c y, labelled s x c y ∧ y.place = a
  | { tag, kind := .dismount, source := some a, target := some b, scope := none, label := none, active := false } =>
    tag.toNat = recordTag r ∧ argByte r 4 = a.val ∧ a.val < s.driveCount ∧ a.val < 4
      ∧ ((argByte r 5 = b.val ∧ shelf b)
        ∨ (argByte r 5 = 0xFF ∧ ∃ c y, s.cd.places[a].state = .occupied c ∧ s.cd.records[c] = some y ∧ y.origin = some b))
  | { tag, kind := .inventory, source := none, target := none, scope := some x, label := none, active := false } =>
    tag.toNat = recordTag r
      ∧ argByte r 4 = (match x with | .a => 0 | .b => 1 | .mail => 2 | .drives => 3)
  | { tag, kind := .pickerPut, source := none, target := some b, scope := none, label := none, active := false } =>
    tag.toNat = recordTag r ∧ argByte r 5 = b.val ∧ b.val < 29 ∧ (b.val < s.driveCount ∨ 4 ≤ b.val)
  | _ => False

/-- A place byte names MAIL or a magazine slot. -/
def shelfByte (x : Nat) : Prop := 4 ≤ x ∧ x ≤ 28

/-- A place byte names a present drive. -/
def driveByte (s : State) (x : Nat) : Prop := x < s.driveCount ∧ x < 4

/-- An argument of an order request fails R151 with BAD_ARGUMENT. -/
def orderArgumentBad (s : State) (kind : RequestKind) (r : List Byte) : Prop :=
  match kind with
  | .move => ¬ shelfByte (argByte r 4) ∨ ¬ shelfByte (argByte r 5) ∨ argByte r 4 = argByte r 5
  | .mount => ¬ driveByte s (argByte r 5) ∨ (argByte r 4 ≠ 0xFF ∧ ¬ shelfByte (argByte r 4))
      ∨ (argByte r 4 = 0xFF ∧ ∃ c y, labelled s (argLabel r 8) c y ∧ ¬ shelf y.place)
  | .dismount => ¬ driveByte s (argByte r 4) ∨ (argByte r 5 ≠ 0xFF ∧ ¬ shelfByte (argByte r 5))
      ∨ (argByte r 5 = 0xFF ∧ ∃ (a : PlaceId) (c : CartId) (y : CartRecord), a.val = argByte r 4
          ∧ s.cd.places[a].state = .occupied c ∧ s.cd.records[c] = some y ∧ y.origin = none)
  | .inventory => 3 < argByte r 4
  | .pickerPut => 28 < argByte r 5 ∨ (s.driveCount ≤ argByte r 5 ∧ argByte r 5 < 4)
  | _ => False

/-- The order kind of a request kind. -/
def orderRow : OrderKind → RequestKind
  | .move => .move
  | .mount => .mount
  | .dismount => .dismount
  | .inventory => .inventory
  | .pickerPut => .pickerPut

/-- An order names a scope exactly when it is an INVENTORY, which names no source or target (R150). -/
def orderFormed (o : Order) : Prop :=
  (o.kind = .inventory ↔ o.scope ≠ none) ∧ (o.kind = .inventory → o.source = none ∧ o.target = none)

/-- The places that carry an order's pending-order field (R150). -/
def orderNames (s : State) (o : Order) (p : PlaceId) : Prop :=
  o.source = some p ∨ o.target = some p ∨ match o.scope with
    | none => False
    | some .a => 5 ≤ p.val ∧ p.val ≤ 16
    | some .b => 17 ≤ p.val ∧ p.val ≤ 28
    | some .mail => p.val = 4
    | some .drives => p.val < s.driveCount ∧ p.val < 4

/-- The place of an order's first travel: the first of its scope, else its source, else its target (R153, R161). -/
def firstPlace (s : State) (o : Order) (p : PlaceId) : Prop :=
  match o.scope with
  | some _ => orderNames s o p ∧ ∀ q, orderNames s o q → p.val ≤ q.val
  | none => o.source = some p ∨ (o.source = none ∧ o.target = some p)

/-- The door that a place lies behind has its latch set (R136, R144). -/
def latchSet (s : State) (p : PlaceId) : Prop :=
  (p.val = 4 ∧ s.cd.doorMail.latch = true) ∨ (5 ≤ p.val ∧ p.val ≤ 16 ∧ s.cd.doorA.latch = true)
    ∨ (17 ≤ p.val ∧ p.val ≤ 28 ∧ s.cd.doorB.latch = true)

/-- The PICKER is OCCUPIED. -/
def pickerLoaded (s : State) : Prop := ∃ c, s.cd.places[pickerPlace].state = .occupied c

/-- Checks 4 to 9 of R152; a pending-order field that names `own` is passed over. -/
def placeRefusals (s : State) (o : Order) (own : Option Byte) : List (Prop × Code) :=
  [(∃ p t, orderNames s o p ∧ s.cd.places[p].pending = some t ∧ own ≠ some t, .placePending),
   (∃ n : LaneId, orderNames s o (drivePlace n) ∧ s.lanes[n].role ≠ .idle, .laneBusy),
   (o.kind ≠ .inventory ∧ ∃ p, orderNames s o p ∧ (s.cd.places[p].state = .unknown ∨ latchSet s p), .placeUnknown),
   (∃ p, o.source = some p ∧ s.cd.places[p].state = .empty, .placeEmpty),
   (∃ p c x, o.target = some p ∧ s.cd.places[p].state = .occupied c ∧ s.cd.records[c] = some x, .placeOccupied),
   ((o.scope = some .a ∧ s.cd.doorA.isOpen = true) ∨ (o.scope = some .b ∧ s.cd.doorB.isOpen = true)
      ∨ (o.scope = some .mail ∧ s.cd.doorMail.isOpen = true), .doorOpen)]

/-- Check 10 of R152. -/
def loadRefusals (s : State) (o : Order) : List (Prop × Code) :=
  [(o.kind ≠ .inventory ∧ o.kind ≠ .pickerPut ∧ pickerLoaded s, .pickerHolding),
   (o.kind = .pickerPut ∧ ¬ pickerLoaded s, .pickerEmpty)]

/-- Checks 2 to 10 of R152. -/
def orderRefusals (s : State) (o : Order) : List (Prop × Code) :=
  [(s.lc.state = .halted, .loaderHalted), (16 ≤ s.lc.queue.length, .queueFull)] ++ placeRefusals s o none
    ++ (loadRefusals s o).map fun x => (s.lc.queue = [] ∧ x.1, x.2)

/-- The state's places with a pending-order field on the places of an order. -/
def pendingSet (s : State) (o : Order) (tag : Option Byte) (places : Vector PlaceRecord 30) : Prop :=
  ∀ p : PlaceId, (orderNames s o p → places[p] = { s.cd.places[p] with pending := tag })
    ∧ (¬ orderNames s o p → places[p] = s.cd.places[p])

/-- The Loader Controller waits on no post. -/
def loaderFree (s : State) : Prop := s.waiting .loader = false ∧ s.lc.posts = []

/-- Every timer is stopped, the travel count is 0 and the label read has stopped: the link is IDLE, or, when an exchange was in
progress, still EXCHANGING for that exchange alone (R160). That an IDLE link shows attempt 0 and no bytes is the model's choice,
notes/assumptions/49.md. -/
def loaderQuiet (before after : Loader) : Prop :=
  after.markTimer = none ∧ after.stepTimer = none ∧ after.retryTimer = none ∧ after.travelCount = 0
    ∧ match before.exchange with
      | none => after.exchange = none ∧ after.exchanging = false ∧ after.attempt = 0 ∧ after.received = []
      | some e => after.exchange = some { e with stopped := true } ∧ after.exchanging = true

/-- The head order `o` has ended (R153): its pending-order fields are none, it has left the queue, the loader is in a state
with its station, every timer is stopped, ORDER_DONE has joined the backlog, and after every outcome but DONE the safe levels
are set. The places' states and the records are as in `s`. -/
def orderEnded (s t : State) (o : Order) (rest : List Order) (outcome : OrderOutcome) (state : LoaderState)
    (station : Option Int) : Prop :=
  pendingSet s o none t.cd.places ∧ t.cd.records = s.cd.records
    ∧ t.lc.queue = rest ∧ t.lc.state = state ∧ t.lc.station = station ∧ t.lc.step = none ∧ loaderQuiet s.lc t.lc
    ∧ t.lc.outputs.motorRun = false
    ∧ (outcome ≠ .done → t.lc.outputs = { s.lc.outputs with motorRun := false, gripperExtend := false, gripperRetract := true })
    ∧ t.re.backlog = s.re.backlog ++ [.orderDone o.tag o.kind outcome (s.lc.step.map fun x => x.kind)
        (s.lc.step.map fun x => x.station) state station]
    ∧ t.mem = s.mem ∧ t.jt = s.jt ∧ t.streams = s.streams ∧ t.ce = s.ce ∧ t.lanes = s.lanes ∧ t.sc = s.sc
    ∧ t.framers = s.framers ∧ t.de = s.de ∧ t.wd = s.wd

end Sys2Proof.Safety
end

