-- ==== Sys2Proof/Certificates/Slice0/Obligations.lean ====
section
/-! DEFINITION. The statements about the part. -/

open Sys2Proof Sys2Proof.Machine Sys2Proof.Safety

/-! ## The machine -/

/-- A step runs the command at the front of the queue on the state with the queue's rest; on an empty queue the part idles (the
model's choice, notes/assumptions/2.md). -/
def Obligations.StepRunsFrontCommand : Prop :=
  (∀ (s : State) (c : Instr) (rest : List Instr), s.pending = c :: rest → step s = exec c { s with pending := rest })
    ∧ ∀ s : State, s.pending = [] → step s = .next s

/-- Every step keeps staging memory in its canonical form (the model's representation, notes/assumptions/4.md). -/
def Obligations.StepKeepsMemoryCanonical : Prop :=
  ∀ s t : State, memoryCanonical s → step s = .next t → memoryCanonical t

/-- Staging memory is canonical in power-on reset: the base of the step lemma StepKeepsMemoryCanonical. The canonical form,
and what an unlisted byte reads as, are the model's choice (notes/assumptions/4.md). -/
def Obligations.ResetMemoryCanonical : Prop := memoryCanonical State.reset

/-- The status image is marked stale by every command that changes a value it shows and is not itself a whole write of the
image (part of R29): every command but the two resets, PART_RESET and STATUS_REFRESH. -/
def Obligations.ChangesMarkImageStale : Prop :=
  ∀ (c : Instr) (s t : State), (∀ d l i, c ≠ .powerOnReset d l i) → c ≠ .resetNAsserted → (∀ x, c ≠ .partReset x) →
    c ≠ .statusRefresh → exec c s = .next t → imageRecords t ≠ imageRecords s → t.re.stale = true

/-! ## Windows (01) -/

/-- CONTROLLER_WRITE into unwindowed memory, the request ring or the words of the control region beside the index words (it
may cover an index word in part) is passed: its bytes are in memory and nothing else changes (part of R2, R3 and R4). -/
def Obligations.ControllerWritePasses : Prop :=
  ∀ (s : State) (addr : Word) (data : List Byte), running s → transactionOk addr data.length = true →
    s.classOf addr.toNat = .memory
      ∨ (s.classOf addr.toNat = .indexPage
        ∧ ∀ index : Nat, indexWord index → ¬ (addr.toNat ≤ index ∧ index + 4 ≤ addr.toNat + data.length)) →
    ∃ t, exec (.controllerWrite addr data) s = .next t ∧ written s.mem t.mem addr.toNat data
      ∧ t = withStale t.re.stale { s with mem := t.mem }

/-- Each of the three write commands into a part-owned region, a stream aperture whose stream is FREE or a return ring whose
lane is not READ is dropped whole: only the refused-write count, saturating, and the last refused address change (part of R7
and R8). -/
def Obligations.OwnerlessWriteDropped : Prop :=
  ∀ (s : State) (addr : Word) (data : List Byte) (c : Instr), running s → transactionOk addr data.length = true →
    s.classOf addr.toNat = .partOwned
      ∨ (∃ i, s.classOf addr.toNat = .streamAperture i ∧ s.streams[i].phase = .free)
      ∨ (∃ n, s.classOf addr.toNat = .returnRing n ∧ s.lanes[n].role ≠ .read) →
    c ∈ [Instr.controllerWrite addr data, .indexWordWrite addr data, .apertureWrite addr data] →
    ∃ b, exec c s = .next (withStale b { s with
      wd := { s.wd with
        refusedCount := if s.wd.refusedCount = 0xFFFFFFFF then 0xFFFFFFFF else s.wd.refusedCount + 1
        lastRefused := addr } })

/-- INDEX_WORD_WRITE: a write that covers the request producer word's four bytes reaches memory and latches the little-endian
value; every index word it does not cover whole keeps its latch (part of R4). -/
def Obligations.IndexWordLatched : Prop :=
  ∀ (s : State) (addr : Word) (data : List Byte), running s → transactionOk addr data.length = true →
    s.classOf addr.toNat = .indexPage →
    ∃ t, exec (.indexWordWrite addr data) s = .next t ∧ written s.mem t.mem addr.toNat data
      ∧ t = withStale t.re.stale { s with
          mem := t.mem
          wd := { s.wd with
            requestProducerLatch := t.wd.requestProducerLatch, reportConsumerLatch := t.wd.reportConsumerLatch
            catalogConsumerLatch := t.wd.catalogConsumerLatch, restoreConsumerLatch := t.wd.restoreConsumerLatch } }
      ∧ (∀ (index : Nat) (before after : Latch),
          (index, before, after) ∈
            [(0x8000, s.wd.requestProducerLatch, t.wd.requestProducerLatch),
             (0x8004, s.wd.reportConsumerLatch, t.wd.reportConsumerLatch),
             (0x8008, s.wd.catalogConsumerLatch, t.wd.catalogConsumerLatch)]
            ++ (List.finRange 8).map (fun k =>
              (0x8020 + 4 * k.val, s.wd.restoreConsumerLatch[k], t.wd.restoreConsumerLatch[k])) →
          (addr.toNat ≤ index ∧ index + 4 ≤ addr.toNat + data.length →
            after = { value := memWord t.mem index, pending := true })
          ∧ (¬ (addr.toNat ≤ index ∧ index + 4 ≤ addr.toNat + data.length) → after = before))

/-- A write's offset is the one congruent to its position that lies nearest E, from E - size/2 to below E + size/2 (part of
R10). -/
def Obligations.ApertureOffsetNearest : Prop :=
  ∀ (a : Aperture) (w : Window) (addr : Nat), 0 < w.size → w.size % 2 = 0 → w.base ≤ addr →
    -((w.size : Int) / 2) ≤ a.displacement w addr ∧ a.displacement w addr < (w.size : Int) / 2
      ∧ ((a.expected.toNat : Int) + a.displacement w addr - ((addr : Int) - (w.base : Int))) % (w.size : Int) = 0

/-- APERTURE_WRITE at E of a bound stream, within its limit: the bytes join the chunk of the FILLING buffer and its running raw
check, or, with none FILLING, open the lowest-numbered FREE buffer; E advances by the length, the hold is clear, A follows the
free space, and memory keeps every byte. A write that brings the chunk to 16,384 bytes closes it: it takes the job's next
sequence and its raw check, joins the compression queue, and the write's remaining bytes open the other buffer. A chunk that
takes the sequence 0xFFFF_FFFF makes the stream CLOSING and the job FLUSHING in the event of its close; that it does so even
while the Job Table waits on a post is the model's choice, notes/assumptions/31.md. Of a straddle of E, the bytes from E on are
treated as a write of their own. A write at E of a HELD aperture with room is treated as if the aperture were ACCEPTING (part
of R11, R12, R13, R43 and R44). -/
def Obligations.StreamWriteAccepted : Prop :=
  ∀ (s : State) (l : Layout) (i : StreamId) (addr : Word) (data : List Byte), running s →
    transactionOk addr data.length = true → s.wd.layout = some l → s.classOf addr.toNat = .streamAperture i →
    s.streams[i].phase = .opened → s.waiting (.stream i) = false →
    let a := s.wd.streamAperture[i]
    let d := a.displacement l.apertures[i] addr.toNat
    let advanced : Word := a.expected + BitVec.ofNat 32 data.length
    (∀ f : Fin 2, a.held = false → d = 0 → data.length ≤ ahead a.limit a.expected → takesNext s.streams[i] f →
      let chunk := chunkInto s.streams[i] f
      let other := s.streams[i].buffers[1 - f]
      (chunk.data.length + data.length < 16384 →
        ∃ b, exec (.apertureWrite addr data) s = .next (withStale b { s with
          streams := s.streams.set i { s.streams[i] with
            buffers := s.streams[i].buffers.set f { chunk with
              data := chunk.data ++ data, check := crcUpdate chunk.check data } }
          wd := { s.wd with streamAperture := s.wd.streamAperture.set i {
            expected := advanced
            limit := advanced + BitVec.ofNat 32 (16384 - (chunk.data.length + data.length) + other.space)
            held := false } } }))
      ∧ ∀ k : SlotId, chunk.data.length < 16384 → 16384 ≤ chunk.data.length + data.length → s.streams[i].slot = some k →
        let job := s.jt.jobs[k].record
        let first := data.take (16384 - chunk.data.length)
        let rest := data.drop (16384 - chunk.data.length)
        let entry : ChunkEntry := {
          stream := i, buffer := f, slot := k, tag := job.tag, lane := job.lane, sequence := job.nextSeq, rawLength := 16384
          rawCheck := ~~~ crcUpdate chunk.check first, order := s.ce.nextOrder }
        let closed : Buffer := { chunk with
          state := .closed, data := chunk.data ++ first, check := crcUpdate chunk.check first, entry := some entry }
        let queued : Compressor := { s.ce with queue := s.ce.queue ++ [entry], nextOrder := s.ce.nextOrder + 1 }
        (job.nextSeq ≠ 0xFFFFFFFF → other.state = .free ∨ (rest = [] ∧ other.state ≠ .filling) →
          ∃ b, exec (.apertureWrite addr data) s = .next (withStale b { s with
            streams := s.streams.set i { s.streams[i] with
              buffers := (s.streams[i].buffers.set f closed).set (1 - f) (if rest = [] then other
                else { state := .filling, data := rest, check := crcUpdate 0xFFFFFFFF rest }) }
            jt := { s.jt with jobs := s.jt.jobs.set k { s.jt.jobs[k] with record := { job with nextSeq := job.nextSeq + 1 } } }
            ce := queued
            wd := { s.wd with streamAperture := s.wd.streamAperture.set i {
              expected := advanced
              limit := advanced + BitVec.ofNat 32 (if rest = [] then other.space else 16384 - rest.length)
              held := false } } }))
        ∧ (job.nextSeq = 0xFFFFFFFF → rest = [] → job.state = .active →
          ∃ b, exec (.apertureWrite addr data) s = .next (withStale b { s with
            streams := s.streams.set i { s.streams[i] with
              phase := .closing, buffers := s.streams[i].buffers.set f closed }
            jt := { s.jt with jobs := s.jt.jobs.set k { s.jt.jobs[k] with
              record := { job with state := .flushing, closedFinal := true } } }
            ce := queued
            wd := { s.wd with streamAperture := s.wd.streamAperture.set i {
              expected := advanced, limit := advanced, held := false } } })))
    ∧ (∀ k : SlotId, a.held = false → d < 0 → 0 < d + (data.length : Int) → limitCurrent s i → s.streams[i].slot = some k →
      s.jt.jobs[k].record.nextSeq ≠ 0xFFFFFFFF →
      let onward : Word := addr + BitVec.ofInt 32 (-d)
      s.classOf onward.toNat = .streamAperture i → a.displacement l.apertures[i] onward.toNat = 0 →
      d + (data.length : Int) ≤ ahead a.limit a.expected →
      exec (.apertureWrite addr data) s = exec (.apertureWrite onward (data.drop (-d).toNat)) s)
    ∧ (a.held = true → d = 0 → 0 < ahead a.limit a.expected →
      ∃ u b, exec (.apertureWrite addr data) { s with wd := { s.wd with
          streamAperture := s.wd.streamAperture.set i { a with held := false } } } = .next u
        ∧ exec (.apertureWrite addr data) s = .next (withStale b u))

/-- APERTURE_WRITE into a bound return ring. From E on and within the limit, ACCEPTING: the bytes from E on are in memory at
their own addresses, E, the arrived mark, advances past them, and nothing else changes while the Framer is TAKING; once it is
STOPPED the scan mark follows the arrived mark and the consumed mark and the accept limit with it, at once or, while the Framer
waits on a post, not yet. Bytes beyond the limit are dropped, and a write beyond E whole: the aperture is HELD and OVERRUN, with
reason LIMIT or GAP, names E, A and the offset of the write; it is posted by the Framer, or kept as its pending OVERRUN while
the Framer waits on a post. Below E, or while HELD anywhere but at E with room, a write changes nothing; at E with room the
hold is cleared first (part of R11, R12, R13, R14, R102, R103, R116). That only segments queued or in flight hold a STOPPED
Framer's consumed mark back is deduced, notes/assumptions/24.md. -/
def Obligations.RingWriteAccepted : Prop :=
  ∀ (s : State) (l : Layout) (n : LaneId) (addr : Word) (data : List Byte), running s →
    transactionOk addr data.length = true → s.wd.layout = some l → s.classOf addr.toNat = .returnRing n →
    s.lanes[n].role = .read →
    let a := s.wd.ringAperture[n]
    let d := a.displacement l.rings[n] addr.toNat
    let room := ahead a.limit a.expected
    let bytes := data.drop (-d).toNat
    let aperture (t : State) (x : Aperture) : State :=
      { s with mem := t.mem, wd := { s.wd with ringAperture := s.wd.ringAperture.set n x } }
    let tag : Byte := match s.framers[n].slot with | none => 0 | some k => s.jt.jobs[k].record.tag
    let overrun (t u : State) (r : Report) : Prop :=
      (s.waiting (.framer n) = false → s.re.hasRoom = true →
        t = withStale t.re.stale { u with re := { s.re with backlog := s.re.backlog ++ [r] } })
      ∧ (s.waiting (.framer n) = true →
        t = withStale t.re.stale { u with framers := s.framers.set n { s.framers[n] with pendingOverrun := some r } })
    (a.held = false → d ≤ 0 → 0 < d + (data.length : Int) → bytes.length ≤ room →
      let arrived : Word := a.expected + BitVec.ofNat 32 bytes.length
      ∃ t, exec (.apertureWrite addr data) s = .next t ∧ written s.mem t.mem (addr.toNat + (-d).toNat) bytes
        ∧ (s.framers[n].phase = .taking ∨ s.waiting (.framer n) = true →
          t = withStale t.re.stale (aperture t { a with expected := arrived }))
        ∧ (s.framers[n].phase = .stopped → s.waiting (.framer n) = false →
          framerMoves s (aperture t { a with expected := arrived }) t l n { s.framers[n] with scan := arrived }))
    ∧ (a.held = false → d ≤ 0 → room < bytes.length → s.framers[n].phase = .taking →
      ∃ t, exec (.apertureWrite addr data) s = .next t
        ∧ written s.mem t.mem (addr.toNat + (-d).toNat) (bytes.take room)
        ∧ overrun t (aperture t { a with expected := a.expected + BitVec.ofNat 32 room, held := true })
          (.overrun (.ring n) tag .limit (a.expected + BitVec.ofNat 32 room) a.limit (a.expected + BitVec.ofInt 32 d)))
    ∧ (a.held = false → 0 < d →
      ∃ t, exec (.apertureWrite addr data) s = .next t ∧ t.mem = s.mem
        ∧ overrun t (aperture s { a with held := true })
          (.overrun (.ring n) tag .gap a.expected a.limit (a.expected + BitVec.ofInt 32 d)))
    ∧ (d + (data.length : Int) ≤ 0 ∨ (a.held = true ∧ (d ≠ 0 ∨ room = 0)) →
      ∃ b, exec (.apertureWrite addr data) s = .next (withStale b s))
    ∧ (a.held = true → d = 0 → 0 < room →
      ∃ u b, exec (.apertureWrite addr data) { s with wd := { s.wd with
          ringAperture := s.wd.ringAperture.set n { a with held := false } } } = .next u
        ∧ exec (.apertureWrite addr data) s = .next (withStale b u))

/-- A write beyond E of a bound stream whose aperture is ACCEPTING is dropped whole: the aperture is HELD and OVERRUN with
reason GAP names E, A and the write's offset. A write at E that reaches A is taken up to A, and nothing of it where A is E;
then the aperture is HELD and OVERRUN with reason LIMIT names E and A after the bytes taken and the write's offset. A write
whose bytes all lie below E changes nothing, and neither does, while the aperture is HELD, any write but one at E with room
(part of R12 and R13). -/
def Obligations.StreamGapHolds : Prop :=
  ∀ (s : State) (l : Layout) (i : StreamId) (k : SlotId) (addr : Word) (data : List Byte), running s →
    transactionOk addr data.length = true → s.wd.layout = some l → s.classOf addr.toNat = .streamAperture i →
    s.streams[i].phase = .opened → s.streams[i].slot = some k → s.re.hasRoom = true → s.waiting (.stream i) = false →
    let a := s.wd.streamAperture[i]
    let d := a.displacement l.apertures[i] addr.toNat
    let tag := s.jt.jobs[k].record.tag
    let offset : Word := a.expected + BitVec.ofInt 32 d
    let holding (reason : OverrunReason) (limit : Word) : State := { s with
      wd := { s.wd with streamAperture := s.wd.streamAperture.set i {
        expected := a.expected, limit := a.expected + BitVec.ofNat 32 s.streams[i].space, held := true } }
      re := { s.re with backlog := s.re.backlog ++ [.overrun (.stream i) tag reason a.expected limit offset] } }
    (a.held = true → d ≠ 0 ∨ a.limit = a.expected → ∃ b, exec (.apertureWrite addr data) s = .next (withStale b s))
    ∧ (d + (data.length : Int) ≤ 0 → ∃ b, exec (.apertureWrite addr data) s = .next (withStale b s))
    ∧ (a.held = false → 0 < d → ∃ b, exec (.apertureWrite addr data) s = .next (withStale b (holding .gap a.limit)))
    ∧ (a.held = false → d = 0 → a.limit = a.expected → limitCurrent s i →
      ∃ b, exec (.apertureWrite addr data) s = .next (withStale b (holding .limit a.limit)))
    ∧ (a.held = false → d = 0 → a.limit ≠ a.expected → ahead a.limit a.expected < data.length → limitCurrent s i →
      s.jt.jobs[k].record.nextSeq ≠ 0xFFFFFFFF →
      ∃ u b, exec (.apertureWrite addr (data.take (ahead a.limit a.expected))) s = .next u
        ∧ exec (.apertureWrite addr data) s = .next (withStale b { u with
          wd := { u.wd with streamAperture := u.wd.streamAperture.set i { u.wd.streamAperture[i] with held := true } }
          re := { u.re with backlog := u.re.backlog ++ [.overrun (.stream i) tag .limit u.wd.streamAperture[i].expected
            u.wd.streamAperture[i].limit offset] } }))

/-- FINAL_BYTE_READ returns the bytes that memory holds; a read that includes no slot's final byte changes nothing else (part of
R1 and R15). -/
def Obligations.ReadReturnsMemory : Prop :=
  ∀ (s : State) (addr : Word) (length now : Nat), running s → transactionOk addr length = true →
    ∃ t, exec (.finalByteRead addr length now) s = .next t ∧ t.readData.length = length
      ∧ (∀ (i : Nat) (h : i < t.readData.length), t.readData[i] = memRead s.mem (addr.toNat + i))
      ∧ (s.finalByteOf (addr.toNat + length - 1) = none →
          t = withStale t.re.stale { s with readData := t.readData, timebase := max s.timebase now })

/-- A transaction of no bytes, of more than 4,096, or across a 4 KiB boundary is refused by name by the four controller
commands: chapter 1.1 says that none occurs (the model's stop, notes/assumptions/18.md). -/
def Obligations.MalformedTransactionRefused : Prop :=
  ∀ (s : State) (addr : Word) (data : List Byte) (length now : Nat),
    (data.length = 0 ∨ 4096 < addr.toNat % 4096 + data.length →
      exec (.controllerWrite addr data) s = .refused .notATransaction
      ∧ exec (.indexWordWrite addr data) s = .refused .notATransaction
      ∧ exec (.apertureWrite addr data) s = .refused .notATransaction)
    ∧ (length = 0 ∨ 4096 < addr.toNat % 4096 + length →
      exec (.finalByteRead addr length now) s = .refused .notATransaction)

/-! ## Requests, reports, consumer counts (02, 06, 08) -/

/-- REQUEST_PRODUCER_TAKE: a pending value 0 to 256 ahead of C becomes the taken producer count; any other is not taken and
RING_FAULT is posted with the value and C. REPORT_CONSUMER_TAKE: a pending value ahead of Cr by no more than P is becomes the
taken report consumer count, even while the Request Engine waits; any other is not taken, and its RING_FAULT is posted, or kept
as the pending one while the engine waits (part of R18 and R24). -/
def Obligations.RequestLatchesTaken : Prop :=
  (∀ s : State, running s → s.wd.requestProducerLatch.pending = true → s.waiting .requestEngine = false →
    s.re.hasRoom = true →
    ∃ b, exec .requestProducerTake s = .next (withStale b { s with
      wd := { s.wd with requestProducerLatch := { s.wd.requestProducerLatch with pending := false } }
      re := if (s.wd.requestProducerLatch.value - s.re.consumer).toNat ≤ 256 then
          { s.re with takenProducer := s.wd.requestProducerLatch.value }
        else { s.re with backlog := s.re.backlog ++
          [.ringFault false s.wd.requestProducerLatch.value s.re.consumer] } }))
  ∧ ∀ s : State, running s → s.wd.reportConsumerLatch.pending = true →
    let v := s.wd.reportConsumerLatch.value
    let fault : Report := .ringFault true v s.re.takenConsumer
    let taken := (v - s.re.takenConsumer).toNat ≤ (s.re.producer - s.re.takenConsumer).toNat
    (taken ∨ s.waiting .requestEngine = true ∨ s.re.hasRoom = true) →
    ∃ b, exec .reportConsumerTake s = .next (withStale b { s with
      wd := { s.wd with reportConsumerLatch := { s.wd.reportConsumerLatch with pending := false } }
      re := if taken then { s.re with takenConsumer := v }
        else if s.waiting .requestEngine then { s.re with pendingRingFault := some fault }
        else { s.re with backlog := s.re.backlog ++ [fault] } })

/-- A request that fails a check of the Request Engine is refused before its owner sees it, with no other effect but the inputs
sampled: UNKNOWN_KIND_REQUEST with BAD_KIND; a lane not below N, a stream above 3 or a tag outside 1 to 255 with BAD_ARGUMENT,
for each kind that R20 names (part of R20, R21). -/
def Obligations.EarlyChecksRefuse : Prop :=
  (∀ (s : State) (r : List Byte), RequestNext s none r →
    ∃ b, exec .unknownKindRequest s = .next (withStale b (answered .badKind r s)))
  ∧ ∀ (c : Instr) (kind : RequestKind) (s : State) (r : List Byte), requestRow c = some kind → RequestNext s (some kind) r →
    (kind ∈ [.laneSet, .writeStart, .verifyStart, .restoreStart, .laneResync, .laneReset] ∧ s.driveCount ≤ recordLane kind r)
      ∨ (kind = .writeStart ∧ 4 ≤ argByte r 4)
      ∨ (kind ∈ [.writeStart, .verifyStart, .restoreStart, .move, .mount, .dismount, .inventory, .pickerPut]
          ∧ ¬ (1 ≤ recordTag r ∧ recordTag r ≤ 255)) →
    ∃ b, exec c s = .next (withStale b (answered .badArgument r (sampled c s)))

/-- A request that its owner refuses has no effect beyond its REQUEST_DONE (part of R21). -/
def Obligations.RefusalHasNoOtherEffect : Prop :=
  ∀ (c : Instr) (kind : RequestKind) (s : State) (r : List Byte) (code : Code), requestRow c = some kind →
    RequestNext s (some kind) r → s.preCheck kind r = true → s.ownerReady kind r = true →
    (sampled c s).decision kind r = .error code →
    ∃ b, exec c s = .next (withStale b (answered code r (sampled c s)))

/-- LAYOUT_SET with a live job, or a lane not IDLE, is refused BUSY. Otherwise a table that R6 accepts is stored whole, every
slot becomes FREE, packer positions, catalog counts, apertures and the catalog and restore latches are cleared, and nothing
else changes but the answer; any other table is refused LAYOUT_INVALID. The table is the one that the record's bytes give, and
the model's test accepts exactly the tables that pass R6 (part of R5, R6, R9, R167). -/
def Obligations.LayoutSetAcceptsValid : Prop :=
  (∀ (l : Layout) (drives : Nat), l.valid drives = true ↔ tableAccepted l drives)
  ∧ (∀ (drives : Nat) (r : List Byte), tableOf drives r (recordLayout drives r))
  ∧ ∀ (s : State) (r : List Byte), RequestNext s (some .layoutSet) r →
    let l := recordLayout s.driveCount r
    let a := answered .done r s
    ((∃ k : SlotId, s.jt.jobs[k].live = true) ∨ (∃ n : LaneId, s.lanes[n].role ≠ .idle) →
      ∃ b, exec .layoutSet s = .next (withStale b (answered .busy r s)))
    ∧ ((∀ k : SlotId, s.jt.jobs[k].live = false) → (∀ n : LaneId, s.lanes[n].role = .idle) →
      (l.valid s.driveCount = true → ∃ b, exec .layoutSet s = .next (withStale b { a with
        wd := { a.wd with
          layout := some l, catalogConsumerLatch := {}, restoreConsumerLatch := Vector.replicate 8 {}
          streamAperture := Vector.replicate 4 {}, ringAperture := Vector.replicate 4 {} }
        lanes := Vector.ofFn fun n : Fin 4 => { s.lanes[n] with
          slots := List.replicate l.pools[n].slots .free, nextSlot := 0, position := none, openedAt := none }
        sc := { s.sc with producer := 0, consumer := 0 } }))
      ∧ (l.valid s.driveCount = false →
        ∃ b, exec .layoutSet s = .next (withStale b (answered .layoutInvalid r s))))

/-- LANE_SET and LOADER_SET store their values clamped, the creep duty to the cruise duty just stored, and change no other
setting; LANE_SET, with no slot open, frees the DRAINED slots of its lane that the new applied retain depth no longer keeps,
the oldest first, and changes nothing else but the answer (part of R26, R27, R69 and R84). -/
def Obligations.SettingsClamped : Prop :=
  (∀ (s : State) (r : List Byte) (n : LaneId) (now : Nat), RequestNext s (some .laneSet) r → laneNamed s (argByte r 4) n →
    s.lanes[n].openedAt = none →
    let a := answered .done r (s.observeTime now)
    let keep := min (min (argByte r 5) 4) (s.lanes[n].slots.length - 1)
    let settled : State := { a with
      re := { a.re with laneSettings := s.re.laneSettings.set n {
        retainDepth := if 4 < argByte r 5 then 4 else argByte r 5
        streamingLimit := if 1000 < fieldNat r 6 2 then 1000 else fieldNat r 6 2
        ageLimit := if 60000 < fieldNat r 8 2 then 60000 else fieldNat r 8 2
        lossThreshold := if argByte r 10 = 3 ∨ argByte r 10 = 4 then argByte r 10 else 4 } } }
    (s.lanes[n].drainedCount ≤ keep → ∃ b, exec (.laneSet now) s = .next (withStale b settled))
    ∧ (drainedDistinct s.lanes[n].slots → ∃ b, exec (.laneSet now) s = .next (withStale b { settled with
      lanes := s.lanes.set n { s.lanes[n] with slots := retained keep s.lanes[n].slots } })))
  ∧ ∀ (s : State) (r : List Byte), RequestNext s (some .loaderSet) r →
    let clamp (low high x : Nat) : Nat := if x < low then low else if high < x then high else x
    let cruise := clamp 1 256 (fieldNat r 4 2)
    let a := answered .done r s
    ∃ b, exec .loaderSet s = .next (withStale b { a with
      re := { a.re with loaderSettings := {
        cruiseDuty := cruise, creepDuty := clamp 1 cruise (fieldNat r 6 2)
        markTimeout := clamp 50 2000 (fieldNat r 8 2), stepTimeout := clamp 200 5000 (fieldNat r 10 2) } } })

/-- REPORT_WRITE: while P is less than 512 ahead of Cr the oldest entry of the backlog is in the ring at slot P modulo 512 as its
32-byte record, P has advanced by 1 and the entry has left; with the ring full nothing is written (part of R23). -/
def Obligations.ReportWritten : Prop :=
  ∀ (s : State) (report : Report) (rest : List Report), running s → s.re.backlog = report :: rest →
    ((s.re.producer - s.re.takenConsumer).toNat < 512 →
      ∃ t, exec .reportWrite s = .next t
        ∧ written s.mem t.mem (0x4000 + 32 * (s.re.producer.toNat % 512)) (reportBytes report)
        ∧ (reportBytes report).length = 32
        ∧ t = withStale t.re.stale { s with
            mem := t.mem, re := { s.re with producer := s.re.producer + 1, backlog := rest } })
    ∧ (512 ≤ (s.re.producer - s.re.takenConsumer).toNat → ∃ b, exec .reportWrite s = .next (withStale b s))

/-- BACKLOG_ADMIT: with no waiter or no free entry nothing changes. A stream's waiting OVERRUN joins and the stream recomputes
its accept limit; the Request Engine's waiting reservation is taken, and the request in hand is decided. The Job Table's
JOB_DONE joins: its slot is freed, its stream FREE with no chunk left but one being compressed for discard (what it took since
a LANE_RESET is given up now, the model's choice, notes/assumptions/30.md), and a held signal of an end condition is taken. A
Lane Unit's GROUP_READY joins: the packer that waits for a slot opens the next one, or a held final-byte signal is taken. A
Framer's post joins: a pending OVERRUN is posted, and the Framer finishes the frame it was in. The directory's LABEL_CHANGED
joins: the step that waited on it goes on, or a held door edge is taken. The loader's ORDER_DONE joins: the others still to be
posted follow, and held door signals are taken (part of R19, R22, R44, R46, R82, R103, R144, R145, R153, R163). -/
def Obligations.BacklogAdmitted : Prop :=
  (∀ (s : State) (x : Sample), running s →
    s.re.waiters = [] ∨ 64 ≤ s.re.backlog.length + (if s.re.reservation then 1 else 0) →
    ∃ b, exec (.backlogAdmit x) s = .next (withStale b s))
  ∧ (∀ (s : State) (x : Sample) (r : List Byte) (rest : List Waiter), running s →
    s.re.waiters = { unit := .requestEngine, item := .reservation } :: rest →
    (∀ w ∈ rest, w.unit ≠ .requestEngine) → s.re.backlog.length < 64 → s.re.reservation = false →
    s.re.inHand = some { bytes := r, reserved := false } → s.re.pendingRingFault = none → recordKind r = none →
    ∃ b, exec (.backlogAdmit x) s = .next (withStale b
      (answered .badKind r { s.observe x with re := { s.re with waiters := rest } })))
  ∧ ∀ (s : State) (x : Sample) (unit : Poster) (report : Report) (rest : List Waiter), running s →
    s.re.waiters = { unit := unit, item := .post report } :: rest →
    (∀ w ∈ rest, w.unit ≠ .requestEngine ∧ w.unit ≠ unit) →
    s.re.backlog.length + (if s.re.reservation then 1 else 0) < 64 → s.re.inHand = none → s.re.pendingRingFault = none →
    let joined (more : List Report) : State := { s.observe x with
      re := { s.re with waiters := rest, backlog := s.re.backlog ++ report :: more } }
    let time := max s.timebase x.now
    (∀ i : StreamId, unit = .stream i →
      ∃ b, exec (.backlogAdmit x) s = .next (withStale b { joined [] with
        wd := { s.wd with streamAperture := s.wd.streamAperture.set i { s.wd.streamAperture[i] with
          limit := match s.streams[i].phase with
            | .free => 0
            | .closing => s.wd.streamAperture[i].expected
            | .opened => s.wd.streamAperture[i].expected + BitVec.ofNat 32 s.streams[i].space } } }))
    ∧ (∀ k j : SlotId, unit = .jobTable → s.jt.ending = some k → s.jt.jobs[k].record.kind = .write → j ≠ k →
      writeJob s s.jt.jobs[k].record.lane j → s.waiting (.laneUnit s.jt.jobs[k].record.lane) = false →
      let job := s.jt.jobs[k].record
      let ended : State := streamFreed s { joined [] with
        jt := {
          jobs := s.jt.jobs.set k { live := false, record := { job with state := .free } }, ending := none, held := [] } }
        job.stream
      (s.jt.held = [] → ∃ b, exec (.backlogAdmit x) s = .next (withStale b ended))
      ∧ ∀ m : SlotId, s.jt.held = [.endCondition m] → m ≠ k → s.jt.jobs[m].live = true →
        s.jt.jobs[m].record.state = .active → s.de.operation = none → (∀ e ∈ s.de.queue, e.slot ≠ m) → m ∉ s.de.due →
        ∃ b, exec (.backlogAdmit x) s = .next (withStale b { ended with
          jt := { ended.jt with jobs := ended.jt.jobs.set m { s.jt.jobs[m] with
            record := { s.jt.jobs[m].record with state := .ending } } }
          de := { s.de with due := s.de.due ++ [m] } }))
    ∧ (∀ n : LaneId, unit = .laneUnit n → s.lanes[n].heldSignals = [] →
      let lane := s.lanes[n]
      (∀ q : Nat, lane.packing = none → lane.heldReads = [q] → (∃ g, lane.slots[q]? = some (.opened g)) →
        ∃ b, exec (.backlogAdmit x) s = .next (withStale b { joined [] with
          lanes := s.lanes.set n { lane with
            heldReads := []
            counters := { lane.counters with
              misordered := if lane.counters.misordered = 0xFFFFFFFF then 0xFFFFFFFF
                else lane.counters.misordered + 1 } } }))
      ∧ ∀ k : Packing, lane.packing = some k → k.starting = true ∨ k.rest ≠ [] → lane.heldReads = [] → lane.position = none →
        lane.slots[lane.nextSlot]? = some .free →
        ∃ b, exec (.backlogAdmit x) s = .next (withStale b { joined [] with
          lanes := s.lanes.set n { lane with
            slots := lane.slots.set lane.nextSlot (.opened lane.nextGroup)
            nextGroup := lane.nextGroup + 1
            nextSlot := (lane.nextSlot + 1) % lane.slots.length
            openedAt := some time
            packing := some { k with starting := false }
            position := some {
              slot := lane.nextSlot, firstSegment := if k.starting then some 0 else none
              starts := if k.starting then 1 else 0 } } }))
    ∧ (∀ (n : LaneId) (l : Layout), unit = .framer n → s.wd.layout = some l → s.framers[n].phase = .taking →
      s.framers[n].pastLast = false → s.framers[n].held = [] →
      let f := s.framers[n]
      (f.pendingOverrun = none → f.frame = none →
        ∃ t, exec (.backlogAdmit x) s = .next t ∧ framerMoves s (joined []) t l n f)
      ∧ (∀ w : FrameWork, f.pendingOverrun = none → f.frame = some w → w.stage = .finish false →
        (∀ a, f.assembler ≠ .hold a) →
        ∃ t, exec (.backlogAdmit x) s = .next t
          ∧ framerMoves s (joined []) t l n { f with frame := none, scan := w.position + 4096 })
      ∧ ∀ r : Report, f.pendingOverrun = some r → f.frame = none → rest = [] → s.re.backlog.length < 62 →
        ∃ t, exec (.backlogAdmit x) s = .next t ∧ framerMoves s (joined [r]) t l n { f with pendingOverrun := none })
    ∧ (unit = .directory →
      (∀ (o : Order) (more : List Order) (p : PlaceId) (i : Int), s.cd.held = [] → s.lc.queue = o :: more →
        o.active = true → o.target = some p → s.lc.step = some { kind := .labelRead, station := i, part := .labelHanded } →
        s.lc.station = some i → i ≠ p.val → x.lines.retracted = true →
        ∃ b, exec (.backlogAdmit x) s = .next (withStale b { joined [] with lc := { (s.observe x).lc with
          step := some { kind := .travel, station := p.val, part := .moving }
          travelCount := ((p.val : Int) - i).natAbs
          outputs := { s.lc.outputs with motorRun := true, towardHome := decide ((p.val : Int) < i) }
          markTimer := some { started := time, length := s.re.loaderSettings.markTimeout * 1000 } } }))
      ∧ ∀ d : Door, s.cd.held = [.edge d] → s.lc.step = none → loaderFree s →
        (∀ o more, s.lc.queue = o :: more → o.active = false) → rest = [] → s.re.backlog.length < 62 →
        ∃ t freed, exec (.backlogAdmit x) s = .next t
          ∧ t = withStale t.re.stale { joined [.doorOpened d freed] with cd := {
              places := t.cd.places, records := t.cd.records, held := []
              doorA := if d = .a then { s.cd.doorA with latch := true } else s.cd.doorA
              doorB := if d = .b then { s.cd.doorB with latch := true } else s.cd.doorB
              doorMail := if d = .mail then { s.cd.doorMail with latch := true } else s.cd.doorMail } }
          ∧ placesLost s t (behind d) ∧ occupiedBehind s d freed
          ∧ ∀ p : PlaceId, t.cd.places[p].pending = s.cd.places[p].pending)
    ∧ (unit = .loader → (∀ o more, s.lc.queue = o :: more → o.active = false) → rest = [] →
      s.re.backlog.length + s.lc.posts.length < 63 →
      ∃ b, exec (.backlogAdmit x) s = .next (withStale b { joined s.lc.posts with
        lc := { (s.observe x).lc with posts := [], heldDoors := [] } }))

/-- STATUS_REFRESH of a stale image: the refresh count is the next even value above the odd one that it wrote first, the stale
mark is clear, memory holds every record of the image as the state is (the report producer count P at 0x9008 among them) with
the refresh count before them, and every other byte of memory is as it was; nothing but these changes, and ATTN is asserted
exactly when P differs from the taken consumer count. Of an image that is not stale nothing changes. That one step writes
every record (notes/assumptions/7.md), and which words the bytes of a record are (imageRecords; notes/assumptions/13.md), are the
model's choices (part of R25, R29 and R170). -/
def Obligations.StatusRefreshed : Prop :=
  (∀ s : State, running s → s.re.stale = false → ∃ b, exec .statusRefresh s = .next (withStale b s))
  ∧ ∀ s : State, running s → s.re.stale = true → s.re.refreshCount.toNat % 2 = 0 →
    ∃ t, exec .statusRefresh s = .next t ∧ t = { s with
      mem := t.mem
      re := { s.re with refreshCount := s.re.refreshCount + 2, shownProducer := s.re.producer, stale := false } }
      ∧ (t.attn = true ↔ s.re.producer ≠ s.re.takenConsumer)
      ∧ memWord t.mem 0x9000 = s.re.refreshCount + 2 ∧ memWord t.mem 0x9008 = s.re.producer
      ∧ imageShown s t.mem
      ∧ ∀ a : Nat, a < 0x9000 ∨ 0x9004 ≤ a → outsideRecords s a → memRead t.mem a = memRead s.mem a

/-- CATALOG_CONSUMER_TAKE: a pending value ahead of Cc by no more than P is becomes Cc and offers its room to the wait list in
order; any other is not taken and only the latch is cleared. RESTORE_CONSUMER_TAKE: while the slot holds a live RESTORE job a
pending value ahead of Cr by no more than Pr is becomes Cr and any other is not taken; while it does not, the latch stays
pending (part of R90, R93 and R133). -/
def Obligations.ConsumerLatchesTaken : Prop :=
  (∀ s : State, running s → s.wd.catalogConsumerLatch.pending = true → s.sc.operation = none →
    let v := s.wd.catalogConsumerLatch.value
    let taken := (v - s.sc.consumer).toNat ≤ (s.sc.producer - s.sc.consumer).toNat
    let room := s.catalogSize - (s.sc.producer - v).toNat - s.sc.claims.length
    ∃ b, exec .catalogConsumerTake s = .next (withStale b { s with
      wd := { s.wd with catalogConsumerLatch := { s.wd.catalogConsumerLatch with pending := false } }
      sc := if taken then
          { s.sc with
            consumer := v, claims := s.sc.claims ++ s.sc.waitList.take room, waitList := s.sc.waitList.drop room }
        else s.sc }))
  ∧ ∀ (s : State) (k : SlotId), running s → s.wd.restoreConsumerLatch[k].pending = true →
    let v := s.wd.restoreConsumerLatch[k].value
    let x := s.de.slots[k]
    (s.jt.jobs[k].live = true ∧ s.jt.jobs[k].record.kind = .restore →
      ∃ b, exec (.restoreConsumerTake k) s = .next (withStale b { s with
        wd := { s.wd with restoreConsumerLatch := s.wd.restoreConsumerLatch.set k {
          s.wd.restoreConsumerLatch[k] with pending := false } }
        de := if (v - x.consumer).toNat ≤ (x.producer - x.consumer).toNat then
            { s.de with slots := s.de.slots.set k { x with consumer := v } }
          else s.de }))
    ∧ (s.jt.jobs[k].live = false ∨ s.jt.jobs[k].record.kind ≠ .restore →
      ∃ b, exec (.restoreConsumerTake k) s = .next (withStale b s))

/-! ## Resets (R1, R16, R25, R28, R30, R31, R88, R100, R125, R146, R147, R165) -/

/-- POWER_ON_RESET, from any state: every block is in its initial state with N drives and the doors and the PICKER as sampled,
the loader's outputs at the safe levels, which leave the jaw as last driven, RESET_DONE in report slot 0 with P = 1, and ATTN
asserted; memory holds every record of the image as the state then is, with refresh count 2, the image's other bytes are 0, and
memory outside report slot 0 and the image is as it was. The model's choices: which levels hold before any is driven and that
the rail direction is kept (notes/assumptions/14.md), the empty read data and timebase 0 (29.md), and which words the bytes of
a record of the image are (imageRecords; 13.md) (part of R30, R146, R149, R165, R170; 1.md). That an IDLE label link shows
attempt 0 and no bytes is the model's choice, notes/assumptions/49.md. -/
def Obligations.PowerOnResetInitialises : Prop :=
  ∀ (s : State) (drives : Fin 4) (doors : DoorLevels) (lines : Lines),
    ∃ t, exec (.powerOnReset drives doors lines) s = .next t
      ∧ t = { State.reset with
          mem := t.mem, pending := s.pending, freeCount := s.freeCount, resetAsserted := false, driveCount := drives.val + 1
          re := { refreshCount := 2, producer := 1, shownProducer := 1 }
          cd := {
            places := Vector.ofFn fun p : Fin 30 =>
              if p.val = 29 then (if lines.cartridgePresent then { state := .occupied 0 } else {})
              else if p.val ≤ drives.val ∨ 4 ≤ p.val then { state := .unknown } else {}
            records := if lines.cartridgePresent then (Vector.replicate 32 none).set 0 (some { place := 29 })
              else Vector.replicate 32 none
            doorA := { isOpen := doors.a, latch := true }, doorB := { isOpen := doors.b, latch := true }
            doorMail := { isOpen := doors.mail, latch := true } }
          lc := {
            lines := lines
            outputs := { s.lc.outputs with motorRun := false, gripperExtend := false, gripperRetract := true } } }
      ∧ t.attn = true
      ∧ (∀ i : Fin 32, memRead t.mem (0x4000 + i.val) =
          if i.val = 0 then 13 else if i.val = 1 then 1 else if i.val = 4 then BitVec.ofNat 8 (drives.val + 1) else 0)
      ∧ memWord t.mem 0x9000 = 2 ∧ memWord t.mem 0x9008 = 1
      ∧ imageShown t t.mem
      ∧ (∀ a : Nat, 0x9004 ≤ a → a < 0x10000 → outsideRecords t a → memRead t.mem a = 0)
      ∧ ∀ a : Nat, a < 0x4000 ∨ (0x4020 ≤ a ∧ a < 0x9000) ∨ 0x10000 ≤ a → memRead t.mem a = memRead s.mem a

/-- PART_RESET at the head of the request ring: every block but the directory and the loader is in its initial state, the
refresh count goes on, RESET_DONE carries the request's tag and the drive count in report slot 0, ATTN is asserted, and memory
holds every record of the image as the state then is, its other bytes 0; an IDLE loader keeps its station, any other is
UNHOMED, and a label read stops, after the exchange in progress if there is one; no pending-order field, queued order or report
is left. The directory is said whole only where no gripper step is interrupted, no door edge is held and the PICKER input
agrees with the record; else only its pending-order fields are (part of R31, R147, R160, R165, R170). The model's choices: that
the Decode Engine's output check starts at 0xFFFFFFFF and that the rail direction is kept (notes/assumptions/14.md), and which
words the bytes of a record of the image are (imageRecords; 13.md). That an IDLE label link shows attempt 0 and no bytes is the
model's choice, notes/assumptions/49.md. -/
def Obligations.PartResetClears : Prop :=
  ∀ (s : State) (x : Sample), running s → s.waiting .requestEngine = false → s.re.inHand = none →
    s.re.consumer ≠ s.re.takenProducer → recordKind s.requestRecord = some .partReset →
    let exchanging := s.lc.exchange.isSome
    ∃ t, exec (.partReset x) s = .next t
      ∧ t = { State.reset with
          mem := t.mem, pending := s.pending, freeCount := s.freeCount, resetAsserted := false, driveCount := s.driveCount
          readData := s.readData, timebase := max s.timebase x.now
          re := { refreshCount := t.re.refreshCount, producer := 1, shownProducer := 1, resetCause := .request }
          cd := t.cd
          lc := {
            state := if s.lc.state = .idle then .idle else .unhomed
            station := if s.lc.state = .idle then s.lc.station else none
            exchange := s.lc.exchange.map fun e => { e with stopped := true }
            exchanging := exchanging
            attempt := if exchanging then s.lc.attempt else 0
            received := if exchanging then s.lc.received else []
            lines := x.lines
            outputs := { s.lc.outputs with motorRun := false, gripperExtend := false, gripperRetract := true } } }
      ∧ (s.re.refreshCount.toNat % 2 = 0 → t.re.refreshCount = s.re.refreshCount + 2)
      ∧ (∀ p : PlaceId, t.cd.places[p].pending = none) ∧ t.cd.held = []
      ∧ (s.lc.step = none → s.cd.held = [] → (pickerLoaded s ↔ x.lines.cartridgePresent = true) →
          t.cd = { s.cd with places := s.cd.places.map fun p => { p with pending := none }, held := [] })
      ∧ t.attn = true
      ∧ (∀ i : Fin 32, memRead t.mem (0x4000 + i.val) =
          if i.val = 0 then 13 else if i.val = 1 then 2 else if i.val = 2 then BitVec.ofNat 8 (recordTag s.requestRecord)
          else if i.val = 3 then BitVec.ofNat 8 (recordTag s.requestRecord / 256)
          else if i.val = 4 then BitVec.ofNat 8 s.driveCount else 0)
      ∧ memWord t.mem 0x9000 = t.re.refreshCount ∧ memWord t.mem 0x9008 = 1
      ∧ imageShown t t.mem
      ∧ (∀ a : Nat, 0x9004 ≤ a → a < 0x10000 → outsideRecords t a → memRead t.mem a = 0)
      ∧ ∀ a : Nat, a < 0x4000 ∨ (0x4020 ≤ a ∧ a < 0x9000) ∨ 0x10000 ≤ a → memRead t.mem a = memRead s.mem a

/-- RESET_N_ASSERTED holds every block in its initial state with the safe levels set and ATTN deasserted; while RESET_N is
asserted no other command but POWER_ON_RESET changes anything (part of R1, R25 and R149). The model's choices: what the part's
own rows do while it is held (notes/assumptions/1.md); one drive, deasserted lines, CLOSED doors and the rail direction kept
until RESET_N is released (14.md); timebase 0 and empty read data (29.md). That an IDLE label link shows attempt 0 and no bytes
is the model's choice, notes/assumptions/49.md. -/
def Obligations.ResetHoldsPart : Prop :=
  (∀ s : State, ∃ t, exec .resetNAsserted s = .next t
    ∧ t = { State.reset with
        pending := s.pending, mem := s.mem, freeCount := s.freeCount
        lc := { outputs := { s.lc.outputs with motorRun := false, gripperExtend := false, gripperRetract := true } } }
    ∧ t.attn = false)
  ∧ ∀ (s : State) (c : Instr), s.resetAsserted = true → (∀ d l x, c ≠ .powerOnReset d l x) → c ≠ .resetNAsserted →
    c.wellFormed = true → exec c s = .next s

/-! ## Jobs (03) -/

/-- WRITE_START is refused with the first code of R35 whose condition holds, and has no other effect (part of R33 and R35). That
this is DRIVE_EMPTY for a drive that is not OCCUPIED and that an order names is the model's choice, notes/assumptions/45.md. -/
def Obligations.WriteStartRefused : Prop :=
  ∀ (s : State) (r : List Byte) (i : StreamId) (n : LaneId) (code : Code), RequestNext s (some .writeStart) r →
    laneNamed s (argByte r 5) n → argByte r 4 = i.val → 1 ≤ recordTag r → recordTag r ≤ 255 → s.waiting .jobTable = false →
    firstHolds code (writeStartRefusals s r i n) →
    ∃ b, exec .writeStart s = .next (withStale b (answered code r s))

/-- An accepted WRITE_START: the lowest free slot becomes live with the record of R36; the lane is WRITE and, from IDLE, takes
the cartridge's G as its next group number, its DRAINED slots becoming FREE if G differs; the stream is OPEN with E 0, ACCEPTING
and the accept limit of R44; nothing else changes but the answer. That the stream is ACCEPTING while an OVERRUN of its earlier
job still waits is the model's choice, notes/assumptions/44.md (part of R33 and R36). -/
def Obligations.WriteStartAccepted : Prop :=
  ∀ (s : State) (r : List Byte) (i : StreamId) (n : LaneId) (k : SlotId) (c : CartId) (x : CartRecord),
    RequestNext s (some .writeStart) r → laneNamed s (argByte r 5) n → argByte r 4 = i.val → 1 ≤ recordTag r →
    recordTag r ≤ 255 → s.waiting .jobTable = false → noneHolds (writeStartRefusals s r i n) → lowestFree s k →
    s.cd.places[drivePlace n].state = .occupied c → s.cd.records[c] = some x →
    let a := answered .done r s
    ∃ b, exec .writeStart s = .next (withStale b { a with
      jt := { s.jt with jobs := s.jt.jobs.set k {
        live := true
        record := { tag := BitVec.ofNat 8 (recordTag r), kind := .write, state := .active, lane := n, cart := c, stream := i
                    firstSeq := argWord r 8, nextSeq := argWord r 8 } } }
      de := { s.de with slots := s.de.slots.set k { s.de.slots[k] with lastFault := none } }
      lanes := if s.lanes[n].role = .write then s.lanes else s.lanes.set n { s.lanes[n] with
        role := .write
        nextGroup := x.written
        slots := if s.lanes[n].nextGroup = x.written then s.lanes[n].slots
          else s.lanes[n].slots.map fun y => match y with | .drained _ => .free | y => y }
      streams := s.streams.set i { s.streams[i] with phase := .opened, slot := some k }
      wd := { s.wd with streamAperture := s.wd.streamAperture.set i {
        expected := 0, held := false
        limit := if s.waiting (.stream i) then 0 else BitVec.ofNat 32 s.streams[i].space } } })

/-- VERIFY_START and RESTORE_START are refused with the first code of R37 or R38 whose condition holds, and have no other effect
(part of R33, R37, R38). That this is DRIVE_EMPTY for a drive that is not OCCUPIED and that an order names is the model's choice,
notes/assumptions/45.md. -/
def Obligations.ReadStartsRefused : Prop :=
  ∀ (s : State) (r : List Byte) (n : LaneId) (code : Code), laneNamed s (argByte r 4) n → 1 ≤ recordTag r →
    recordTag r ≤ 255 → s.waiting .jobTable = false → s.waiting (.framer n) = false →
    (RequestNext s (some .verifyStart) r → firstHolds code (verifyStartRefusals s r n) →
      ∃ b, exec .verifyStart s = .next (withStale b (answered code r s)))
    ∧ (RequestNext s (some .restoreStart) r →
      firstHolds code (restoreStartRefusals s r n ((s.wd.layout.getD {}).restore)) →
      ∃ b, exec .restoreStart s = .next (withStale b (answered code r s)))

/-- An accepted VERIFY_START: the slot's record as R37 gives it, the live catalog records of the cartridge's range in state
ON_TAPE, VERIFIED, VERIFY_FAILED or MISSING set ON_TAPE and no other byte of memory changed, the lane READ and its Framer and
return ring bound; nothing else changes but the answer (part of R37, R97, R101). -/
def Obligations.VerifyStartAccepted : Prop :=
  ∀ (s : State) (r : List Byte) (n : LaneId) (k : SlotId) (c : CartId) (x : CartRecord) (l : Layout),
    RequestNext s (some .verifyStart) r → laneNamed s (argByte r 4) n → 1 ≤ recordTag r → recordTag r ≤ 255 →
    s.waiting .jobTable = false → s.waiting (.framer n) = false → noneHolds (verifyStartRefusals s r n) →
    lowestFree s k → s.cd.places[drivePlace n].state = .occupied c → s.cd.records[c] = some x → s.wd.layout = some l →
    catalogBounded s l →
    ∃ t, exec .verifyStart s = .next t
      ∧ (∀ f : List Byte → Option Nat,
          (∀ y, inRange x.label (argWord r 8) (argWord r 12) y ∧ fieldNat y 11 1 ∈ [2, 3, 4, 5] → f y = some 2) →
          (∀ y, ¬ (inRange x.label (argWord r 8) (argWord r 12) y ∧ fieldNat y 11 1 ∈ [2, 3, 4, 5]) → f y = none) →
          recordsSet s l f t.mem)
      ∧ t = withStale t.re.stale (boundToRead n k l { answered .done r s with
          mem := t.mem
          jt := { s.jt with jobs := s.jt.jobs.set k {
            live := true
            record := { tag := BitVec.ofNat 8 (recordTag r), kind := .verify, state := .active, lane := n, cart := c
                        firstGroup := argWord r 8, lastGroup := argWord r 12 } } }
          de := { s.de with slots := s.de.slots.set k { s.de.slots[k] with lastFault := none } } })

/-- An accepted RESTORE_START: the slot's record as R38 gives it, its restore counts 0, its consumer latch cleared and the
expected sequence the first chunk, the lane READ and its Framer and return ring bound; nothing else changes but the answer
(part of R38, R101). -/
def Obligations.RestoreStartAccepted : Prop :=
  ∀ (s : State) (r : List Byte) (n : LaneId) (k : SlotId) (c : CartId) (x : CartRecord) (l : Layout),
    RequestNext s (some .restoreStart) r → laneNamed s (argByte r 4) n → 1 ≤ recordTag r → recordTag r ≤ 255 →
    s.waiting .jobTable = false → s.waiting (.framer n) = false → s.wd.layout = some l →
    noneHolds (restoreStartRefusals s r n l.restore) → lowestFree s k →
    s.cd.places[drivePlace n].state = .occupied c → s.cd.records[c] = some x →
    let a := answered .done r s
    ∃ b, exec .restoreStart s = .next (withStale b (boundToRead n k l { a with
      wd := { s.wd with restoreConsumerLatch := s.wd.restoreConsumerLatch.set k {} }
      jt := { s.jt with jobs := s.jt.jobs.set k {
        live := true
        record := { tag := BitVec.ofNat 8 (recordTag r), kind := .restore, state := .active, lane := n, cart := c
                    sourceTag := BitVec.ofNat 8 (argByte r 5), firstChunk := argWord r 8, lastChunk := argWord r 12
                    ringBase := argWord r 16, ringSize := argWord r 20 } } }
      de := { s.de with slots := s.de.slots.set k {
        producer := 0, consumer := 0, expected := fieldNat r 8 4, lastFault := none } } }))

/-- STREAM_CLOSE: NO_JOB for a tag of no live WRITE job; nothing but the answer for a FLUSHING or DRAINING job; for an ACTIVE
job its FILLING chunk closes, takes the next sequence and joins the compression queue, the stream is CLOSING with A = E and
the job FLUSHING; with no chunk FILLING but one CLOSED, COMPRESSING, READY or PACKING nothing closes and the rest is the same.
With both buffers FREE the job is DRAINING in the same event: having packed nothing it ends at once, its
JOB_DONE after the answer, its slot free and its stream FREE; as the lane's only WRITE job, its last end group not released,
it makes the lane pad-close its open group FLUSH, with GROUP_READY after the answer (part of R39, R40, R43, R46, R52, R77,
R80). -/
def Obligations.StreamCloseCloses : Prop :=
  ∀ (s : State) (r : List Byte), RequestNext s (some .streamClose) r → jobTableFree s →
    ((∀ k : SlotId, s.jt.jobs[k].live = true → s.jt.jobs[k].record.tag.toNat = recordTag r →
        s.jt.jobs[k].record.kind ≠ .write) →
      ∃ b, exec .streamClose s = .next (withStale b (answered .noJob r s)))
    ∧ ∀ k : SlotId, liveOnly s k (recordTag r) → s.jt.jobs[k].record.kind = .write →
      let a := answered .done r s
      let job := s.jt.jobs[k].record
      let i := job.stream
      let n := job.lane
      (job.state = .flushing ∨ job.state = .draining → ∃ b, exec .streamClose s = .next (withStale b a))
      ∧ (∀ f : Fin 2, job.state = .active → s.streams[i].slot = some k → s.streams[i].buffers[f].state = .filling →
        (f = 0 ∨ s.streams[i].buffers[0].state ≠ .filling) → job.nextSeq ≠ 0xFFFFFFFF →
        let entry : ChunkEntry := {
          stream := i, buffer := f, slot := k, tag := job.tag, lane := job.lane, sequence := job.nextSeq
          rawLength := s.streams[i].buffers[f].data.length, rawCheck := ~~~ s.streams[i].buffers[f].check
          order := s.ce.nextOrder }
        ∃ b, exec .streamClose s = .next (withStale b { a with
          jt := { s.jt with jobs := s.jt.jobs.set k {
            live := true, record := { job with nextSeq := job.nextSeq + 1, state := .flushing } } }
          ce := { s.ce with queue := s.ce.queue ++ [entry], nextOrder := s.ce.nextOrder + 1 }
          streams := s.streams.set i { s.streams[i] with
            phase := .closing
            buffers := s.streams[i].buffers.set f { s.streams[i].buffers[f] with state := .closed, entry := some entry } }
          wd := { s.wd with streamAperture := s.wd.streamAperture.set i { s.wd.streamAperture[i] with
            limit := s.wd.streamAperture[i].expected } } }))
      ∧ (job.state = .active → (∀ f : Fin 2, s.streams[i].buffers[f].state ≠ .filling) → (∃ f : Fin 2, keepsFlushing s i f) →
        ∃ b, exec .streamClose s = .next (withStale b { a with
          jt := { s.jt with jobs := s.jt.jobs.set k { live := true, record := { job with state := .flushing } } }
          streams := s.streams.set i { s.streams[i] with phase := .closing }
          wd := { s.wd with streamAperture := s.wd.streamAperture.set i { s.wd.streamAperture[i] with
            limit := s.wd.streamAperture[i].expected } } }))
      ∧ (job.state = .active → s.streams[i].slot = some k → (∀ f : Fin 2, s.streams[i].buffers[f].state = .free) →
        roomFor s 1 →
        (∀ j : SlotId, job.lastEnd = none → j ≠ k → writeJob s n j → s.jt.jobs[j].record.state ≠ .draining →
          ∃ b, exec .streamClose s = .next (withStale b { a with
            re := { a.re with backlog := a.re.backlog ++
              [.jobDone k { job with state := .draining } job.pendingOutcome] }
            jt := { s.jt with jobs := s.jt.jobs.set k { live := false, record := { job with state := .free } } }
            streams := s.streams.set i { s.streams[i] with phase := .free, slot := none }
            wd := { s.wd with streamAperture := s.wd.streamAperture.set i {} } }))
        ∧ ∀ (l : Layout) (p : Position) (g e : Word) (x : CartRecord), soleWriteJob s n k → s.wd.layout = some l →
          s.lanes[n].position = some p → s.lanes[n].slots[p.slot]? = some (.opened g) → p.frame ≤ 7 → p.offset ≤ 4076 →
          s.lanes[n].packing = none → job.lastEnd = some e → s.cd.records[job.cart] = some x →
          x.written.toNat ≤ e.toNat →
          let slotAt := l.pools[n].base + 32768 * p.slot
          ∃ t, exec .streamClose s = .next t ∧ padClosed s.mem t.mem slotAt g p
            ∧ t = withStale t.re.stale { a with
                mem := t.mem
                re := { a.re with backlog := a.re.backlog ++
                  [.groupReady n .flush (BitVec.ofNat 32 slotAt) g p.slot p.starts] }
                jt := { s.jt with jobs := s.jt.jobs.set k { live := true, record := { job with state := .draining } } }
                lanes := s.lanes.set n (closedLane s.lanes[n] p g .flush)
                streams := s.streams.set i { s.streams[i] with phase := .closing }
                wd := { s.wd with streamAperture := s.wd.streamAperture.set i { s.wd.streamAperture[i] with
                  limit := s.wd.streamAperture[i].expected } } })

/-- JOB_END: NO_JOB for a tag of no live VERIFY or RESTORE job; nothing but the answer for a job in ENDING; an ACTIVE job enters
ENDING and its Framer is STOPPED with the scan mark at the arrived mark, a group in hand settled unchecked, the consumed mark
and the accept limit following. The job's queued segments and its decode in flight stay, unmarked; with neither, its end
evaluation is due (part of R42, R102, R116, R124, R127). -/
def Obligations.JobEndEnters : Prop :=
  ∀ (s : State) (r : List Byte), RequestNext s (some .jobEnd) r → jobTableFree s →
    ((∀ k : SlotId, s.jt.jobs[k].live = true → s.jt.jobs[k].record.tag.toNat = recordTag r →
        s.jt.jobs[k].record.kind = .write) →
      ∃ b, exec .jobEnd s = .next (withStale b (answered .noJob r s)))
    ∧ ∀ k : SlotId, liveOnly s k (recordTag r) → s.jt.jobs[k].record.kind ≠ .write →
      let a := answered .done r s
      let job := s.jt.jobs[k].record
      let n := job.lane
      let e := s.wd.ringAperture[n].expected
      s.waiting (.framer n) = false →
      (job.state = .ending → ∃ b, exec .jobEnd s = .next (withStale b a))
      ∧ ∀ l : Layout, job.state = .active → s.framers[n].phase = .taking → s.wd.layout = some l →
        ∃ t, exec .jobEnd s = .next t
          ∧ framerMoves s
            { a with
              jt := { s.jt with jobs := s.jt.jobs.set k { live := true, record := { job with state := .ending } } }
              de := { s.de with holding := s.de.holding.filter fun m => decide (m ≠ n), due := evaluationDue s.de k } }
            t l n { unchecked s.framers[n] with phase := .stopped, assembler := .waitStart, frame := none, scan := e }

/-- JOB_ABORT: NO_JOB for a tag of no live job. A WRITE job that is DRAINING, or FLUSHING with another pending outcome than
COMPLETE, only takes pending outcome ABORTED. Any other WRITE job gives up its FILLING, CLOSED and READY buffers, the CLOSED
chunks leave the compression queue and a COMPRESSING one is marked for discard; its stream is CLOSING with A = E, its next
chunk sequence is kept and its pending outcome is ABORTED. While a buffer is PACKING the job is FLUSHING; with none it is
DRAINING until its last end group is released, and having packed nothing it ends at once. A VERIFY or RESTORE job ends at once:
JOB_DONE with outcome ABORTED follows the answer, its slot is free, its lane IDLE, its Framer UNBOUND and none of its segments
queued, the job has left the due list, a decode in flight for it is marked for discard while EXPANDING and has ended while it
was SETTLING, its end evaluation has ended, and memory is as it was (part of R40, R41, R42, R46, R55, R120, R124, R127, R132).
That the expansion buffer and the output check stay as they are when a decode ends is the model's choice,
notes/assumptions/48.md. -/
def Obligations.JobAborted : Prop :=
  ∀ (s : State) (r : List Byte), RequestNext s (some .jobAbort) r → jobTableFree s →
    ((∀ k : SlotId, s.jt.jobs[k].live = true → s.jt.jobs[k].record.tag.toNat ≠ recordTag r) →
      ∃ b, exec .jobAbort s = .next (withStale b (answered .noJob r s)))
    ∧ ∀ k : SlotId, liveOnly s k (recordTag r) →
      let a := answered .done r s
      let job := s.jt.jobs[k].record
      let i := job.stream
      let n := job.lane
      let aborted (state : JobState) : JobRecord := { job with pendingOutcome := .aborted, state := state }
      let closing (state : JobState) : State := { a with
        jt := { s.jt with jobs := s.jt.jobs.set k { live := true, record := aborted state } }
        streams := s.streams.set i { s.streams[i] with phase := .closing, buffers := buffersLeft s.streams[i] }
        ce := compressorLeft s fun j => decide (j = i)
        wd := { s.wd with streamAperture := s.wd.streamAperture.set i { s.wd.streamAperture[i] with
          limit := s.wd.streamAperture[i].expected } } }
      (job.kind = .write → job.state = .draining ∨ (job.state = .flushing ∧ job.pendingOutcome ≠ .complete) →
        ∃ b, exec .jobAbort s = .next (withStale b { a with
          jt := { s.jt with jobs := s.jt.jobs.set k { live := true, record := { job with pendingOutcome := .aborted } } } }))
      ∧ (job.kind = .write → job.state = .active ∨ (job.state = .flushing ∧ job.pendingOutcome = .complete) →
        ((∃ f : Fin 2, s.streams[i].buffers[f].state = .packing) →
          ∃ b, exec .jobAbort s = .next (withStale b (closing .flushing)))
        ∧ ∀ j : SlotId, nothingPacked s i → j ≠ k → writeJob s n j → s.jt.jobs[j].record.state ≠ .draining →
          (∀ (e : Word) (x : CartRecord), s.waiting (.laneUnit n) = false → job.lastEnd = some e →
            s.cd.records[job.cart] = some x → x.written.toNat ≤ e.toNat →
            ∃ b, exec .jobAbort s = .next (withStale b (closing .draining)))
          ∧ (job.lastEnd = none → roomFor s 1 →
            ∃ b, exec .jobAbort s = .next (withStale b (streamFreed s { a with
              re := { a.re with backlog := a.re.backlog ++ [.jobDone k (aborted .draining) .aborted] }
              jt := { s.jt with jobs := s.jt.jobs.set k { live := false, record := aborted .free } } } i))))
      ∧ (job.kind ≠ .write → s.waiting (.framer n) = false → roomFor s 1 → s.de.holding = [] →
        s.framers[n].phase ≠ .unbound →
        ∃ t, exec .jobAbort s = .next t ∧ t.mem = s.mem
          ∧ t.re.backlog = a.re.backlog ++ [.jobDone k job .aborted]
          ∧ t.jt = { s.jt with jobs := s.jt.jobs.set k { live := false, record := { job with state := .free } } }
          ∧ t.lanes[n].role = .idle ∧ t.framers[n].phase = .unbound ∧ (∀ m : LaneId, m ≠ n → t.framers[m] = s.framers[m])
          ∧ t.de = { s.de with
              queue := s.de.queue.filter fun e => decide (e.slot ≠ k), due := s.de.due.filter fun j => decide (j ≠ k)
              operation := operationLeft s.de n (fun e => decide (e.slot = k)) fun j => decide (j = k) }
          ∧ t.streams = s.streams ∧ t.cd = s.cd ∧ t.lc = s.lc ∧ t.ce = s.ce)

/-! ## Lanes, cartridges (05, 07, 09) -/

/-- LANE_RESYNC: nothing but the answer while the Framer is not TAKING. While it is TAKING, the synchronizer is in SEARCH at
the scan mark, miss count and consecutive failures are 0, a group in hand is settled unchecked and a partial segment is given
up; if it was LOCKED, locks lost rises and LOCK_LOST with reason RESYNC follows the answer; with no frame accepted since lock
was gained, the group it names is left open. The consumed mark and the accept limit follow (part of R102 and R111;
notes/assumptions/12.md). -/
def Obligations.LaneResynced : Prop :=
  ∀ (s : State) (r : List Byte) (n : LaneId), RequestNext s (some .laneResync) r → laneNamed s (argByte r 4) n →
    s.waiting (.framer n) = false →
    let a := answered .done r s
    let f := s.framers[n]
    let searching : Framer := { f with
      sync := .search, missCount := 0, firstMissed := none, failures := 0, frame := none, groupInHand := none
      assembler := match f.assembler with | .hold x => .hold x | _ => .waitStart
      lastSettled := (f.groupInHand.map fun g => g.group).or f.lastSettled
      groupsUnchecked := if f.groupInHand = none ∨ f.groupsUnchecked = 0xFFFFFFFF then f.groupsUnchecked
        else f.groupsUnchecked + 1 }
    (f.phase ≠ .taking → ∃ b, exec .laneResync s = .next (withStale b a))
    ∧ (∀ l : Layout, f.phase = .taking → s.wd.layout = some l → f.pastLast = false → f.sync ≠ .locked →
      ∃ t, exec .laneResync s = .next t ∧ framerMoves s a t l n searching)
    ∧ ∀ l : Layout, f.phase = .taking → s.wd.layout = some l → f.pastLast = false → f.sync = .locked → roomFor s 1 →
      ∃ t g, exec .laneResync s = .next t
        ∧ framerMoves s
          { a with
            freeCount := if f.lastAccepted = none then s.freeCount + 1 else s.freeCount
            re := { a.re with backlog := a.re.backlog ++ [.lockLost n
              (match f.slot with | none => 0 | some k => s.jt.jobs[k].record.tag) .resync f.scan g
              (match f.lastAccepted with | none => 0xFF | some x => BitVec.ofNat 8 x.index.val)] } } t l n
          { searching with
            expected := none
            locksLost := if f.locksLost = 0xFFFFFFFF then 0xFFFFFFFF else f.locksLost + 1 }
        ∧ ∀ x, f.lastAccepted = some x → g = x.group

/-- LANE_RESET: every slot of the lane is FREE with next slot index 0, the packer is stopped and the lane is IDLE, its live
PACKED catalog records are DISCARDED and no other byte of memory changes, and its Framer and return ring are unbound; every
live job of the lane ends and their JOB_DONEs with outcome LANE_RESET follow the answer in slot order. The streams of its WRITE
jobs are FREE with E = A = 0 and no hold, their buffers FREE, the one being packed too, but for a COMPRESSING one, which is
marked for discard, and their CLOSED chunks have left the compression queue; every other stream, buffer and entry is as it was.
The decode queue and the due list lose the lane's entries; a decode in flight for the lane is marked for discard while
EXPANDING and has ended while it was SETTLING, and an end evaluation of a job of the lane has ended (part of R46, R49, R50,
R52, R55, R87, R96, R117, R120, R124, R132). That the expansion buffer and the output check stay as they are when a decode ends
is the model's choice, notes/assumptions/48.md. -/
def Obligations.LaneResets : Prop :=
  ∀ (s : State) (r : List Byte) (n : LaneId) (l : Layout), RequestNext s (some .laneReset) r → laneNamed s (argByte r 4) n →
    jobTableFree s → s.waiting (.laneUnit n) = false → s.waiting (.framer n) = false → s.wd.layout = some l →
    catalogBounded s l → roomFor s 8 → s.de.holding = [] →
    let jobs := (List.finRange 8).filter fun k => s.jt.jobs[k].live && decide (s.jt.jobs[k].record.lane = n)
    let ended (i : StreamId) : Bool :=
      jobs.any fun k => decide (s.jt.jobs[k].record.kind = .write) && decide (s.jt.jobs[k].record.stream = i)
    ∃ t, exec .laneReset s = .next t
      ∧ t.lanes[n] = { s.lanes[n] with
          role := .idle, full := false, slots := s.lanes[n].slots.map fun _ => .free, nextSlot := 0, position := none
          openedAt := none, packing := none, closePending := none, lastRelease := none, interval := none, heldReads := []
          heldSignals := [], nextGroup := t.lanes[n].nextGroup }
      ∧ (s.lanes[n].role ≠ .write → t.lanes[n].nextGroup = s.lanes[n].nextGroup)
      ∧ (∀ (c : CartId) (x : CartRecord), s.lanes[n].role = .write → s.cd.places[drivePlace n].state = .occupied c → s.cd.records[c] = some x →
          t.lanes[n].nextGroup = x.written)
      ∧ (∀ m : LaneId, m ≠ n → t.lanes[m] = s.lanes[m])
      ∧ recordsSet s l (fun y => if fieldNat y 9 1 = n.val ∧ fieldNat y 11 1 = 1 then some 6 else none) t.mem
      ∧ t.framers[n].phase = .unbound ∧ t.wd.ringAperture[n] = {} ∧ (∀ m : LaneId, m ≠ n → t.framers[m] = s.framers[m])
      ∧ t.de = { s.de with
          queue := s.de.queue.filter fun e => decide (e.lane ≠ n)
          due := s.de.due.filter fun k => decide (s.jt.jobs[k].record.lane ≠ n)
          operation := operationLeft s.de n (fun e => decide (e.lane = n)) fun k => decide (s.jt.jobs[k].record.lane = n) }
      ∧ (∀ i : StreamId,
          (ended i = true → t.wd.streamAperture[i] = {} ∧ t.streams[i] = {
            phase := .free, slot := none
            buffers := (buffersLeft s.streams[i]).map fun b => if b.state = .packing then {} else b })
          ∧ (ended i = false → t.wd.streamAperture[i] = s.wd.streamAperture[i] ∧ t.streams[i] = s.streams[i]))
      ∧ t.ce = compressorLeft s ended
      ∧ (∀ k : SlotId, t.jt.jobs[k] = if jobs.contains k then
          { live := false, record := { s.jt.jobs[k].record with state := .free } } else s.jt.jobs[k])
      ∧ t.re.backlog = (answered .done r s).re.backlog ++ (jobs.map fun k => Report.jobDone k s.jt.jobs[k].record .laneReset)
      ∧ t.sc.producer = s.sc.producer ∧ t.sc.consumer = s.sc.consumer ∧ n ∉ t.sc.waitList
      ∧ t.cd = s.cd ∧ t.lc = s.lc

/-- CARTRIDGE_SET by a present place or by a label: the first refusal of R140 that holds, else the record takes the four values
and keeps its label, place and origin place, and nothing else changes but the answer. A selector that is neither is refused
BAD_ARGUMENT (part of R140 and R167). -/
def Obligations.CartridgeSetDecided : Prop :=
  ∀ (s : State) (r : List Byte), RequestNext s (some .cartridgeSet) r →
    let g := fieldNat r 16 4
    let v := fieldNat r 20 4
    let limit := fieldNat r 24 4
    let values (c : CartId) : List (Prop × Code) :=
      [(∃ n : LaneId, s.cd.places[drivePlace n].state = .occupied c ∧ s.lanes[n].role ≠ .idle, .laneBusy),
       (argByte r 6 ≠ 1 ∧ argByte r 6 ≠ 2, .badArgument),
       (limit < 1 ∨ g < v ∨ limit < g ∨ (argByte r 6 = 1 ∧ (g ≠ 0 ∨ v ≠ 0)), .badArgument)]
    let accepted (c : CartId) (x : CartRecord) : Prop := ∃ b, exec .cartridgeSet s = .next (withStale b { answered .done r s with
      cd := { s.cd with records := s.cd.records.set c (some { x with
        written := argWord r 16, verified := argWord r 20, limit := argWord r 24
        condition := if argByte r 6 = 1 then .blank else .written }) } })
    (∀ code, argByte r 4 = 0 →
      firstHolds code [(29 < argByte r 5 ∨ (s.driveCount ≤ argByte r 5 ∧ argByte r 5 < 4), .badArgument),
        (∃ p : PlaceId, p.val = argByte r 5 ∧ s.cd.places[p].state = .unknown, .placeUnknown),
        (∃ p : PlaceId, p.val = argByte r 5 ∧ s.cd.places[p].state = .empty, .placeEmpty)] →
      ∃ b, exec .cartridgeSet s = .next (withStale b (answered code r s)))
    ∧ (1 < argByte r 4 → ∃ b, exec .cartridgeSet s = .next (withStale b (answered .badArgument r s)))
    ∧ (∀ (p : PlaceId) (c : CartId) (x : CartRecord), argByte r 4 = 0 → p.val = argByte r 5 →
      (p.val < s.driveCount ∨ 4 ≤ p.val) → s.cd.places[p].state = .occupied c → s.cd.records[c] = some x →
      (∀ code, firstHolds code (values c) → ∃ b, exec .cartridgeSet s = .next (withStale b (answered code r s)))
      ∧ (noneHolds (values c) → accepted c x))
    ∧ (∀ code, argByte r 4 = 1 →
      firstHolds code [((argLabel r 8).toList.any (fun y => decide (y.toNat < 0x20 ∨ 0x7E < y.toNat)) = true, .badArgument),
        (∀ (c : CartId) (x : CartRecord), s.cd.records[c] = some x → x.label ≠ some (argLabel r 8), .placeUnknown)] →
      ∃ b, exec .cartridgeSet s = .next (withStale b (answered code r s)))
    ∧ ∀ (c : CartId) (x : CartRecord), argByte r 4 = 1 → (∀ y ∈ (argLabel r 8).toList, 0x20 ≤ y.toNat ∧ y.toNat ≤ 0x7E) →
      labelled s (argLabel r 8) c x →
      (∀ code, firstHolds code (values c) → ∃ b, exec .cartridgeSet s = .next (withStale b (answered code r s)))
      ∧ (noneHolds (values c) → accepted c x)

/-! ## The Compressor and the packer (04, 05, 06) -/

/-- COMPRESSOR_TAKE: the idle Compressor takes the oldest entry: its buffer is COMPRESSING, the head table and the output are
empty and the discard mark is clear; the accept limit does not change, and a FLUSHING job stays in FLUSHING. While it is busy
or the queue is empty nothing changes (part of R40, R45, R53). -/
def Obligations.CompressorTakesOldest : Prop :=
  (∀ (s : State) (e : ChunkEntry) (rest : List ChunkEntry), running s → s.ce.inFlight = none → s.ce.queue = e :: rest →
    streamBound s e.stream → limitCurrent s e.stream → s.streams[e.stream].buffers[e.buffer].state = .closed →
    ∃ b, exec .compressorTake s = .next (withStale b { s with
      ce := { s.ce with queue := rest, inFlight := some { entry := e, discard := false }, headTable := [], output := [] }
      streams := s.streams.set e.stream { s.streams[e.stream] with
        buffers := s.streams[e.stream].buffers.set e.buffer { s.streams[e.stream].buffers[e.buffer] with
          state := .compressing } } }))
  ∧ ∀ s : State, running s → s.ce.inFlight ≠ none ∨ s.ce.queue = [] → ∃ b, exec .compressorTake s = .next (withStale b s)

/-- COMPRESSION_COMPLETE: unmarked, the buffer is READY and holds the header and the stored bytes, PACKED when the token stream
is shorter than the chunk and PLAIN otherwise, and the job's counters rise, in FLUSHING too; marked, the buffer is FREE, the
accept limit of an open stream rises by 16,384 and no counter changes, while a FLUSHING job's other buffer keeps it in FLUSHING
(part of R40, R45, R54, R55, R62, R63). That the output and the head table stay as the compression left them until the next take
is the model's choice, notes/assumptions/47.md. -/
def Obligations.CompressionCompletes : Prop :=
  ∀ (s : State) (c : Compression), running s → s.ce.inFlight = some c →
    limitCurrent s c.entry.stream → s.streams[c.entry.stream].buffers[c.entry.buffer].state = .compressing →
    let e := c.entry
    let buffer := s.streams[e.stream].buffers[e.buffer]
    let packed := tokenStream (encodeChunk buffer.data).1
    let plain := buffer.data.length ≤ packed.length
    let stored := if plain then buffer.data else packed
    let h : SegmentHeader := {
      mode := if plain then .plain else .packed, tag := e.tag, rawLength := e.rawLength, storedLength := stored.length
      sequence := e.sequence, rawCheck := e.rawCheck }
    let idle := { s.ce with inFlight := none, headTable := (encodeChunk buffer.data).2, output := packed }
    let counters := s.jt.jobs[e.slot].record.counters
    (c.discard = false → streamBound s e.stream → ∃ b, exec .compressionComplete s = .next (withStale b { s with
      ce := idle
      streams := s.streams.set e.stream { s.streams[e.stream] with
        buffers := s.streams[e.stream].buffers.set e.buffer { buffer with
          state := .ready, data := segmentHeaderBytes h ++ stored, header := some h } }
      jt := { s.jt with jobs := s.jt.jobs.set e.slot { s.jt.jobs[e.slot] with
        record := { s.jt.jobs[e.slot].record with counters := { counters with
          rawBytes := counters.rawBytes + BitVec.ofNat 64 e.rawLength
          storedBytes := counters.storedBytes + BitVec.ofNat 64 stored.length
          plainSegments := if plain ∧ counters.plainSegments ≠ 0xFFFFFFFF then counters.plainSegments + 1
            else counters.plainSegments } } } } }))
    ∧ (c.discard = true → staysFlushing s e.stream e.buffer → ∃ b, exec .compressionComplete s = .next (withStale b { s with
      ce := idle
      streams := s.streams.set e.stream { s.streams[e.stream] with
        buffers := s.streams[e.stream].buffers.set e.buffer {} }
      wd := { s.wd with streamAperture := s.wd.streamAperture.set e.stream { s.wd.streamAperture[e.stream] with
        limit := limitRaised s e.stream } } }))

/-- PACKER_BEGIN_SEGMENT with the oldest READY segment of a lane. It fits before the group limit, has a slot, and the catalog
has room or the lane a claim: its catalog record is appended whole at the position of P with its start group, frame and offset
and the groups it spans, a claim is used, the buffer is PACKING, the job's segments counter and last end group follow, and
copying begins in the open slot, or in the next slot opened with group number g; nothing else changes, in FLUSHING too. With
fewer than 16 bytes left in the current frame they become filler and the frame completes with its fill count, and copying
begins in the next frame; after frame 7 the group closes FULL, with GROUP_READY, and copying begins in the next slot. While the
slot that it needs is not FREE nothing changes, and with no room in the catalog the lane joins the wait list. A segment that
does not fit closes an open group LIMIT and sets the FULL flag: the lane's only WRITE job, with nothing left that is being
packed, gives up its chunks and is DRAINING. With no READY segment a claim ends, and its room is offered again (part of R40,
R48, R69, R71 to R77, R82, R91 to R93). -/
def Obligations.PackerBegins : Prop :=
  (∀ (s : State) (n : LaneId) (now : Nat) (e : ChunkEntry) (h : SegmentHeader) (l : Layout) (c : CartId) (x : CartRecord),
    running s → s.lanes[n].role = .write → s.lanes[n].full = false → s.lanes[n].packing = none →
    s.waiting (.laneUnit n) = false → readyFor s n e.stream e.buffer e h →
    (∀ (i : StreamId) (f : Fin 2) (e' : ChunkEntry) (h' : SegmentHeader), readyFor s n i f e' h' →
      (i = e.stream ∧ f = e.buffer) ∨ e.order < e'.order) →
    s.wd.layout = some l → s.cd.places[drivePlace n].state = .occupied c → s.cd.records[c] = some x →
    n ∉ s.sc.waitList →
    let lane := s.lanes[n]
    let time := max s.timebase now
    let buffer := s.streams[e.stream].buffers[e.buffer]
    let size := 16 + h.storedLength
    let used := s.sc.claims.length + (s.sc.producer - s.sc.consumer).toNat
    let admitted := n ∈ s.sc.claims ∨ (s.sc.waitList = [] ∧ used < l.catalog.size / 32)
    let beyondGroup (g : Word) : Int := ((x.limit.toNat : Int) - 1 - g.toNat) * 32608
    let openAt (p : Position) (g : Word) : Prop := lane.position = some p ∧ lane.slots[p.slot]? = some (.opened g)
    let fitsOpen (p : Position) (g : Word) : Prop := openAt p g ∧ p.offset + 16 ≤ 4076
      ∧ (size : Int) ≤ (4076 - p.offset) + (7 - p.frame) * 4076 + beyondGroup g
    let split (p : Position) (g : Word) : Prop := openAt p g ∧ 4076 < p.offset + 16 ∧ p.offset ≤ 4076
      ∧ (size : Int) ≤ (7 - p.frame) * 4076 + beyondGroup g
    let nextFree : Prop := lane.slots[lane.nextSlot]? = some .free
    let fitsNew : Prop := lane.position = none ∧ (size : Int) ≤ 32608 * ((x.limit.toNat : Int) - lane.nextGroup.toNat)
    let begun (group : Word) (frame offset : Nat) (filled : List Host.Cell → List Host.Cell → Prop) (reports : List Report)
        (after : Lane) : Prop :=
      let beyond := (4076 * frame + offset + size - 1) / 32608
      let record := s.jt.jobs[e.slot].record
      ∃ t m, exec (.packerBeginSegment n now) s = .next t
        ∧ written s.mem m (l.catalog.base + 32 * (s.sc.producer.toNat % (l.catalog.size / 32)))
            (catalogRecordBytes x.label n h group frame offset (beyond + 1))
        ∧ filled m t.mem
        ∧ t = withStale t.re.stale { s with
            mem := t.mem
            timebase := time
            re := { s.re with backlog := s.re.backlog ++ reports }
            sc := { s.sc with producer := s.sc.producer + 1, claims := s.sc.claims.filter fun m => decide (m ≠ n) }
            streams := s.streams.set e.stream { s.streams[e.stream] with
              buffers := s.streams[e.stream].buffers.set e.buffer { buffer with state := .packing } }
            jt := { s.jt with jobs := s.jt.jobs.set e.slot { s.jt.jobs[e.slot] with
              record := { record with
                lastEnd := some (group + BitVec.ofNat 32 beyond)
                counters := { record.counters with
                  segments := if record.counters.segments = 0xFFFFFFFF then 0xFFFFFFFF
                    else record.counters.segments + 1 } } } }
            lanes := s.lanes.set n { after with
              packing := some { stream := e.stream, buffer := e.buffer, rest := buffer.data, starting := false }
              chosen := none } }
    let unfilled (m m' : List Host.Cell) : Prop := m' = m
    let opened (slots : List SlotState) : Lane := { lane with
      slots := slots.set lane.nextSlot (.opened lane.nextGroup)
      nextGroup := lane.nextGroup + 1
      nextSlot := (lane.nextSlot + 1) % lane.slots.length
      openedAt := some time
      position := some { slot := lane.nextSlot, firstSegment := some 0, starts := 1 } }
    let slotAt (p : Position) : Nat := l.pools[n].base + 32768 * p.slot
    (streamBound s e.stream → limitCurrent s e.stream → admitted →
      (∀ (p : Position) (g : Word), fitsOpen p g → begun g p.frame p.offset unfilled [] { lane with
        position := some { p with firstSegment := some (p.firstSegment.getD p.offset), starts := p.starts + 1 } })
      ∧ (fitsNew → nextFree → begun lane.nextGroup 0 0 unfilled [] (opened lane.slots))
      ∧ (∀ (p : Position) (g : Word), split p g → p.frame < 7 →
        begun g (p.frame + 1) 0 (fun m m' => frameFilled m m' (slotAt p) g p) [] { lane with position := some { p with
          frame := p.frame + 1, offset := 0, check := crcUpdate p.check (zeroBytes (4076 - p.offset)), firstSegment := some 0
          starts := p.starts + 1 } })
      ∧ ∀ (p : Position) (g : Word), split p g → p.frame = 7 → nextFree → lane.nextGroup ≠ x.limit → s.re.hasRoom = true →
        begun lane.nextGroup 0 0 (fun m m' => frameFilled m m' (slotAt p) g p)
          [.groupReady n .full (BitVec.ofNat 32 (slotAt p)) g p.slot p.starts]
          { opened (lane.slots.set p.slot (.ready g)) with
            closePending := none
            counters := { lane.counters with closedFull :=
              if lane.counters.closedFull = 0xFFFFFFFF then 0xFFFFFFFF else lane.counters.closedFull + 1 } })
    ∧ (¬ nextFree → fitsNew ∨ (∃ p g, split p g ∧ p.frame = 7) →
      ∃ b, exec (.packerBeginSegment n now) s = .next (withStale b { s with timebase := time }))
    ∧ (¬ admitted → (fitsNew ∧ nextFree) ∨ (∃ p g, fitsOpen p g) ∨ (∃ p g, split p g ∧ (p.frame < 7 ∨ (p.frame = 7 ∧ nextFree))) →
      ∃ b, exec (.packerBeginSegment n now) s = .next (withStale b { s with
        timebase := time
        lanes := s.lanes.set n { lane with chosen := some e.order }
        sc := { s.sc with waitList := s.sc.waitList ++ [n] } }))
    ∧ ∀ (k : SlotId) (y : CartRecord) (lastEnd' : Word), jobTableFree s → soleWriteJob s n k →
      stillPacks s.jt.jobs[k].record → nothingPacked s s.jt.jobs[k].record.stream →
      s.jt.jobs[k].record.lastEnd = some lastEnd' → s.cd.records[s.jt.jobs[k].record.cart] = some y →
      y.written.toNat ≤ lastEnd'.toNat → n ∉ s.sc.claims →
      let full (t : State) (after : Lane) : State := withStale t.re.stale { s with
        mem := t.mem, timebase := time, lanes := s.lanes.set n { after with full := true }
        re := t.re, jt := t.jt, streams := t.streams, wd := t.wd, ce := t.ce }
      (lane.position = none → 32608 * ((x.limit.toNat : Int) - lane.nextGroup.toNat) < (size : Int) →
        ∃ t, exec (.packerBeginSegment n now) s = .next t ∧ cutOff s t k .draining ∧ t = full t lane ∧ t.mem = s.mem
          ∧ t.re = { s.re with stale := t.re.stale })
      ∧ ∀ (p : Position) (g : Word), lane.position = some p → lane.slots[p.slot]? = some (.opened g) → p.frame ≤ 7 →
        p.offset ≤ 4076 → s.re.hasRoom = true →
        (if p.offset + 16 ≤ 4076 then (4076 - p.offset : Int) else 0) + (7 - p.frame) * 4076
          + ((x.limit.toNat : Int) - 1 - g.toNat) * 32608 < (size : Int) →
        let slotAt := l.pools[n].base + 32768 * p.slot
        ∃ t, exec (.packerBeginSegment n now) s = .next t ∧ cutOff s t k .draining ∧ padClosed s.mem t.mem slotAt g p
          ∧ t = full t (closedLane lane p g .limit)
          ∧ t.re = { s.re with
              stale := t.re.stale
              backlog := s.re.backlog ++ [.groupReady n .limit (BitVec.ofNat 32 slotAt) g p.slot p.starts] })
  ∧ ∀ (s : State) (n : LaneId) (now : Nat) (l : Layout), running s → s.lanes[n].role = .write → s.lanes[n].full = false →
    s.lanes[n].packing = none → s.waiting (.laneUnit n) = false → s.wd.layout = some l → n ∈ s.sc.claims →
    (∀ (i : StreamId) (f : Fin 2) (e : ChunkEntry) (h : SegmentHeader), ¬ readyFor s n i f e h) →
    let left := s.sc.claims.filter fun m => decide (m ≠ n)
    let room := l.catalog.size / 32 - (s.sc.producer - s.sc.consumer).toNat - left.length
    ∃ b, exec (.packerBeginSegment n now) s = .next (withStale b { s with
      sc := { s.sc with claims := left ++ s.sc.waitList.take room, waitList := s.sc.waitList.drop room } })

/-- Copying, once begun and waiting on no post. FRAME_COMPLETE writes the bytes that fill a frame 0 to 6, then its header, and
moves to the next frame; in frame 7 it closes the group FULL: the header carries the group check, the slot is READY, its
counter rises, a close pending for it is dropped and GROUP_READY is posted. In the middle of a segment the packer then goes on
in the next slot if that is FREE, and waits for it otherwise. With the segment's last byte at the cartridge's last group the
FULL flag is set too, and the lane's only WRITE job gives up its other chunks and is FLUSHING. SEGMENT_CONTINUES opens the next
slot once it is FREE. SEGMENT_PACKED writes the last bytes, none where the last one filled a frame: the buffer is FREE, its
stream's accept limit rises, the packer is free and a close pending for the open slot is made, for any other dropped. With it
the last chunk of a FLUSHING job is packed: the job is DRAINING, and, with no close made and the lane's other WRITE jobs
DRAINING too, the open group is pad-closed FLUSH (the order of these is deduced, notes/assumptions/11.md). That a frame's bytes
reach memory only at FRAME_COMPLETE and SEGMENT_PACKED is the model's choice, notes/assumptions/8.md (part of R40, R45, R48,
R69, R70, R75 to R77, R80 to R82, R86). -/
def Obligations.PackerCopies : Prop :=
  ∀ (s : State) (n : LaneId) (now : Nat) (k : Packing) (l : Layout), running s → s.lanes[n].packing = some k →
    k.starting = false → s.waiting (.laneUnit n) = false → s.wd.layout = some l →
    let lane := s.lanes[n]
    let time := max s.timebase now
    let slotAt (p : Position) : Nat := l.pools[n].base + 32768 * p.slot
    let packed (t : State) (after : Lane) : State := { s with
      mem := t.mem
      lanes := s.lanes.set n after
      streams := s.streams.set k.stream { s.streams[k.stream] with
        buffers := s.streams[k.stream].buffers.set k.buffer {} }
      wd := { s.wd with streamAperture := s.wd.streamAperture.set k.stream {
        s.wd.streamAperture[k.stream] with limit := limitRaised s k.stream } } }
    (∀ (p : Position) (g : Word), lane.position = some p → lane.slots[p.slot]? = some (.opened g) → p.offset ≤ 4076 →
      let room := 4076 - p.offset
      let filled := k.rest.take room
      let check := crcUpdate p.check filled
      let framed (t : State) (groupCheck : Word) : Prop :=
        (∀ (i : Nat) (h : i < filled.length), memRead t.mem (slotAt p + 4096 * p.frame + 20 + p.offset + i) = filled[i])
        ∧ memBytes t.mem (slotAt p + 4096 * p.frame) 20 = frameHeader g groupCheck p.firstSegment p.frame false 0
        ∧ ∀ a, ¬ (slotAt p + 4096 * p.frame ≤ a ∧ a < slotAt p + 4096 * p.frame + 20) →
            ¬ (slotAt p + 4096 * p.frame + 20 + p.offset ≤ a ∧ a < slotAt p + 4096 * p.frame + 20 + p.offset + filled.length) →
            memRead t.mem a = memRead s.mem a
      let closed : Lane := { lane with
        packing := some { k with rest := k.rest.drop room }
        slots := lane.slots.set p.slot (.ready g)
        position := none
        openedAt := none
        closePending := none
        counters := { lane.counters with
          closedFull := if lane.counters.closedFull = 0xFFFFFFFF then 0xFFFFFFFF else lane.counters.closedFull + 1 } }
      let posted (reason : CloseReason) : List Report :=
        s.re.backlog ++ [.groupReady n reason (BitVec.ofNat 32 (slotAt p)) g p.slot p.starts]
      let full (after : Lane) : Prop :=
        ∃ t, exec (.frameComplete n now) s = .next t ∧ framed t (~~~ check)
          ∧ t = withStale t.re.stale { s with
              mem := t.mem, timebase := time, lanes := s.lanes.set n after, re := { s.re with backlog := posted .full } }
      let last : Position := { p with offset := p.offset + k.rest.length, check := crcUpdate p.check k.rest }
      (k.rest ≠ [] → room ≤ k.rest.length → p.frame < 7 →
        ∃ t, exec (.frameComplete n now) s = .next t ∧ framed t 0
          ∧ t = withStale t.re.stale { s with
              mem := t.mem
              timebase := time
              lanes := s.lanes.set n { lane with
                packing := some { k with rest := k.rest.drop room }
                position := some { p with frame := p.frame + 1, offset := 0, firstSegment := none, check := check } } })
      ∧ (∀ (c : CartId) (x : CartRecord), k.rest ≠ [] → room ≤ k.rest.length → p.frame = 7 → s.re.hasRoom = true →
        s.cd.places[drivePlace n].state = .occupied c → s.cd.records[c] = some x →
        (lane.nextGroup ≠ x.limit → room = k.rest.length ∨ closed.slots[lane.nextSlot]? ≠ some .free → full closed)
        ∧ (lane.nextGroup ≠ x.limit → room < k.rest.length → closed.slots[lane.nextSlot]? = some .free → full { closed with
          slots := closed.slots.set lane.nextSlot (.opened lane.nextGroup)
          nextGroup := lane.nextGroup + 1
          nextSlot := (lane.nextSlot + 1) % lane.slots.length
          openedAt := some time
          position := some { slot := lane.nextSlot } })
        ∧ ∀ j : SlotId, lane.nextGroup = x.limit → room = k.rest.length → jobTableFree s → soleWriteJob s n j →
          stillPacks s.jt.jobs[j].record → s.jt.jobs[j].record.stream = k.stream →
          s.streams[k.stream].buffers[k.buffer].state = .packing → n ∉ s.sc.claims → n ∉ s.sc.waitList →
          ∃ t, exec (.frameComplete n now) s = .next t ∧ framed t (~~~ check) ∧ cutOff s t j .flushing
            ∧ t = withStale t.re.stale { s with
                mem := t.mem, timebase := time, lanes := s.lanes.set n { closed with full := true }
                re := { s.re with backlog := posted .full }
                jt := t.jt, streams := t.streams, wd := t.wd, ce := t.ce }))
    ∧ (∀ q : Option Position, limitCurrent s k.stream → s.streams[k.stream].buffers[k.buffer].state = .packing →
      (k.rest = [] ∧ q = lane.position)
        ∨ (∃ p, lane.position = some p ∧ k.rest ≠ [] ∧ p.offset + k.rest.length < 4076
          ∧ q = some { p with offset := p.offset + k.rest.length, check := crcUpdate p.check k.rest }) →
      let copied (m : List Host.Cell) : Prop := (k.rest = [] ∧ ∀ a, memRead m a = memRead s.mem a)
        ∨ ∃ p, lane.position = some p ∧ k.rest ≠ [] ∧ written s.mem m (slotAt p + 4096 * p.frame + 20 + p.offset) k.rest
      let stays (jobs : JobTable) : Prop :=
        ∃ t, exec (.segmentPacked n) s = .next t ∧ copied t.mem
          ∧ t = withStale t.re.stale { packed t { lane with packing := none, position := q, closePending := none } with jt := jobs }
      let closes (jobs : JobTable) (p : Position) (g : Word) (reason : CloseReason) : Prop :=
        ∃ t m, exec (.segmentPacked n) s = .next t ∧ copied m ∧ padClosed m t.mem (slotAt p) g p
          ∧ t = withStale t.re.stale { packed t (closedLane { lane with packing := none } p g reason) with
              jt := jobs
              re := { s.re with backlog := s.re.backlog ++
                [.groupReady n reason (BitVec.ofNat 32 (slotAt p)) g p.slot p.starts] } }
      let opened (p : Position) (g : Word) : Prop :=
        q = some p ∧ lane.slots[p.slot]? = some (.opened g) ∧ p.frame ≤ 7 ∧ p.offset ≤ 4076 ∧ s.re.hasRoom = true
      let noPending : Prop := ∀ reason c p, lane.closePending = some (reason, c) → q = some p → p.slot ≠ c
      (staysFlushing s k.stream k.buffer →
        (noPending → stays s.jt)
        ∧ ∀ reason p g, opened p g → lane.closePending = some (reason, p.slot) → closes s.jt p g reason)
      ∧ ∀ (j : SlotId) (e : Word) (x : CartRecord), lastToPack s k.stream k.buffer j → writeJob s n j →
        s.jt.jobs[j].record.lastEnd = some e → s.cd.records[s.jt.jobs[j].record.cart] = some x → x.written.toNat ≤ e.toNat →
        let draining : JobTable := { s.jt with jobs := s.jt.jobs.set j { s.jt.jobs[j] with
          record := { s.jt.jobs[j].record with state := .draining } } }
        let othersDrain : Prop := ∀ i, writeJob s n i → i ≠ j → s.jt.jobs[i].record.state = .draining
        (∀ reason p g, opened p g → lane.closePending = some (reason, p.slot) → closes draining p g reason)
        ∧ (noPending → ¬ othersDrain ∨ q = none → stays draining)
        ∧ ∀ p g, noPending → othersDrain → opened p g → closes draining p g .flush)
    ∧ (k.rest ≠ [] → lane.position = none → lane.slots[lane.nextSlot]? = some .free →
      ∃ b, exec (.segmentContinues n now) s = .next (withStale b { s with
        timebase := time
        lanes := s.lanes.set n { lane with
          slots := lane.slots.set lane.nextSlot (.opened lane.nextGroup)
          nextGroup := lane.nextGroup + 1
          nextSlot := (lane.nextSlot + 1) % lane.slots.length
          openedAt := some time
          position := some { slot := lane.nextSlot } } }))

/-- AGE_EXPIRY of an open slot whose age has reached a limit that is not 0: in the middle of a segment the close becomes
pending, an earlier reason kept; else the group is pad-closed AGE: the rest of its payload is filler, every frame written now
has flag bit 0 and its fill count, frame 7 has the group check, the slot is READY, pad bytes and the AGE counter rise and
GROUP_READY is posted. Before the limit nothing changes (part of R70, R77, R79, R81, R82). -/
def Obligations.AgeCloses : Prop :=
  ∀ (s : State) (n : LaneId) (now opened : Nat) (p : Position) (g : Word) (l : Layout), running s →
    s.lanes[n].openedAt = some opened → s.lanes[n].position = some p → s.lanes[n].slots[p.slot]? = some (.opened g) →
    s.wd.layout = some l → p.frame ≤ 7 → p.offset ≤ 4076 → s.waiting (.laneUnit n) = false →
    let lane := s.lanes[n]
    let limit := s.re.laneSettings[n].ageLimit
    let slotAt := l.pools[n].base + 32768 * p.slot
    let pad := 4076 - p.offset + (7 - p.frame) * 4076
    (limit = 0 ∨ max s.timebase now - opened < limit * 1000 →
      ∃ b, exec (.ageExpiry n now) s = .next (withStale b { s with timebase := max s.timebase now }))
    ∧ (limit ≠ 0 → limit * 1000 ≤ max s.timebase now - opened → lane.packing ≠ none →
      ∃ b, exec (.ageExpiry n now) s = .next (withStale b { s with
        timebase := max s.timebase now
        lanes := s.lanes.set n { lane with
          closePending := if lane.closePending = none then some (.age, p.slot) else lane.closePending } }))
    ∧ (limit ≠ 0 → limit * 1000 ≤ max s.timebase now - opened → lane.packing = none → s.re.hasRoom = true →
      ∃ t, exec (.ageExpiry n now) s = .next t
        ∧ t = withStale t.re.stale { s with
            mem := t.mem
            timebase := max s.timebase now
            lanes := s.lanes.set n { lane with
              slots := lane.slots.set p.slot (.ready g), position := none, openedAt := none, closePending := none
              counters := { lane.counters with
                padBytes := if lane.counters.padBytes.toNat + pad < 4294967295 then lane.counters.padBytes + BitVec.ofNat 32 pad
                  else 0xFFFFFFFF
                closedAge := if lane.counters.closedAge = 0xFFFFFFFF then 0xFFFFFFFF else lane.counters.closedAge + 1 } }
            re := { s.re with backlog := s.re.backlog ++
              [.groupReady n .age (BitVec.ofNat 32 slotAt) g p.slot p.starts] } }
        ∧ (∀ f : Nat, p.frame ≤ f → f ≤ 7 →
            memBytes t.mem (slotAt + 4096 * f) 20 =
              frameHeader g (if f = 7 then ~~~ crcUpdate p.check (zeroBytes pad) else 0)
                (if f = p.frame then p.firstSegment else none) f true (if f = p.frame then 4076 - p.offset else 4076)
            ∧ ∀ o : Nat, (if f = p.frame then p.offset else 0) ≤ o → o < 4076 → memRead t.mem (slotAt + 4096 * f + 20 + o) = 0)
        ∧ ∀ a : Nat, a < slotAt + 4096 * p.frame ∨ slotAt + 32768 ≤ a ∨
            (slotAt + 4096 * p.frame + 20 ≤ a ∧ a < slotAt + 4096 * p.frame + 20 + p.offset) →
            memRead t.mem a = memRead s.mem a)

/-- FINAL_BYTE_READ of a READY slot: of the oldest one of a WRITE lane it releases the group: the slot is DRAINED and the
oldest DRAINED slots beyond the applied retain depth are FREE, the cartridge's G rises by 1 and BLANK becomes WRITTEN at the
first group, the lane's live PACKED records that end in the group are ON_TAPE, and the drain interval is updated. With no
READY slot left, a slot open and an interval within the streaming limit the open group is closed STARVE, or the close is
pending in the middle of a segment. A DRAINING job whose last end group is released ends: its JOB_DONE is posted, its slot
free, its stream FREE, and with no other WRITE job and every slot released the lane is IDLE. A READY slot that is not the
oldest, or an OPEN one, only counts a misordered read; a DRAINED or FREE one changes nothing but the data returned (part of
R15, R40, R46, R68, R77, R78, R83 to R85, R95, R141). -/
def Obligations.GroupReleased : Prop :=
  ∀ (s : State) (addr : Word) (length now : Nat) (n : LaneId) (k : Nat) (l : Layout), running s →
    transactionOk addr length = true → s.wd.layout = some l → s.finalByteOf (addr.toNat + length - 1) = some (n, k) →
    s.waiting (.laneUnit n) = false → s.lanes[n].role = .write →
    let lane := s.lanes[n]
    let time := max s.timebase now
    let read := memBytes s.mem addr.toNat length
    let keep := min s.re.laneSettings[n].retainDepth (lane.slots.length - 1)
    let limit := s.re.laneSettings[n].streamingLimit
    (∀ (g : Word) (c : CartId) (x : CartRecord), lane.slots[k]? = some (.ready g) →
      (∀ g', SlotState.ready g' ∈ lane.slots → g.toNat ≤ g'.toNat) → s.cd.places[drivePlace n].state = .occupied c →
      s.cd.records[c] = some x → catalogBounded s l → jobTableFree s →
      lane.drainedCount < keep ∨ drainedDistinct (lane.slots.set k (.drained g)) →
      let drained : Lane := { lane with slots := retained keep (lane.slots.set k (.drained g)) }
      let interval : Option Nat := match lane.lastRelease with
        | none => lane.interval
        | some before =>
          let i := if 10000000 < time - before then 10000000 else time - before
          match lane.interval with
          | none => some i
          | some y => some ((3 * y + i) / 4)
      let timed : Lane := { drained with lastRelease := some time, interval := interval }
      let settled (m : List Host.Cell) : Prop := recordsSet s l (fun y => if fieldNat y 9 1 = n.val ∧ fieldNat y 11 1 = 1
        ∧ (fieldNat y 16 4 + fieldNat y 21 1) % 4294967296 = (g.toNat + 1) % 4294967296 then some 2 else none) m
      let released (m : List Host.Cell) (after : Lane) : State := { s with
        mem := m
        readData := read
        timebase := time
        cd := { s.cd with records := s.cd.records.set c (some { x with
          written := x.written + 1
          condition := if x.written = 0 ∧ x.condition = .blank then .written else x.condition }) }
        lanes := s.lanes.set n after }
      let starves : Prop := limit ≠ 0 ∧ (∀ g', SlotState.ready g' ∉ drained.slots) ∧ lane.position ≠ none
        ∧ ∃ i, interval = some i ∧ i ≤ limit * 1000
      ((∃ j, writeJob s n j) → (∀ j, writeJob s n j → s.jt.jobs[j].record.state ≠ .draining) →
        (¬ starves → ∃ t, exec (.finalByteRead addr length now) s = .next t ∧ settled t.mem
          ∧ t = withStale t.re.stale (released t.mem timed))
        ∧ ∀ p : Position, starves → lane.position = some p →
          (lane.packing ≠ none → ∃ t, exec (.finalByteRead addr length now) s = .next t ∧ settled t.mem
            ∧ t = withStale t.re.stale (released t.mem { timed with
                closePending := some (lane.closePending.getD (.starve, p.slot)) }))
          ∧ ∀ h : Word, lane.packing = none → lane.slots[p.slot]? = some (.opened h) → p.frame ≤ 7 → p.offset ≤ 4076 →
            s.re.hasRoom = true →
            let slotAt := l.pools[n].base + 32768 * p.slot
            ∃ t m, exec (.finalByteRead addr length now) s = .next t ∧ settled m ∧ padClosed m t.mem slotAt h p
              ∧ t = withStale t.re.stale { released t.mem (closedLane timed p h .starve) with
                  re := { s.re with backlog := s.re.backlog ++
                    [.groupReady n .starve (BitVec.ofNat 32 slotAt) h p.slot p.starts] } })
      ∧ ∀ (j : SlotId) (e : Word), writeJob s n j → s.jt.jobs[j].record.state = .draining →
        s.jt.jobs[j].record.lastEnd = some e → e.toNat ≤ g.toNat → roomFor s 1 →
        (∀ i, writeJob s n i → i ≠ j → s.jt.jobs[i].record.state ≠ .draining) →
        let job := s.jt.jobs[j].record
        let ended (m : List Host.Cell) (after : Lane) : State := streamFreed s { released m after with
          re := { s.re with backlog := s.re.backlog ++ [.jobDone j job job.pendingOutcome] }
          jt := { s.jt with jobs := s.jt.jobs.set j { live := false, record := { job with state := .free } } } } job.stream
        ((∃ i, writeJob s n i ∧ i ≠ j) → ¬ starves →
          ∃ t, exec (.finalByteRead addr length now) s = .next t ∧ settled t.mem
            ∧ t = withStale t.re.stale (ended t.mem timed))
        ∧ ((∀ i, writeJob s n i → i = j) → n ∉ s.sc.claims → n ∉ s.sc.waitList →
          (∀ g', SlotState.ready g' ∉ drained.slots ∧ SlotState.opened g' ∉ drained.slots) →
          ∃ t, exec (.finalByteRead addr length now) s = .next t ∧ settled t.mem
            ∧ t = withStale t.re.stale (ended t.mem { drained with
                role := .idle, full := false, closePending := none, lastRelease := none, interval := none })))
    ∧ ((∃ g, lane.slots[k]? = some (.opened g))
        ∨ (∃ g g', lane.slots[k]? = some (.ready g) ∧ SlotState.ready g' ∈ lane.slots ∧ g'.toNat < g.toNat) →
      ∃ b, exec (.finalByteRead addr length now) s = .next (withStale b { s with
        readData := read
        timebase := time
        lanes := s.lanes.set n { lane with counters := { lane.counters with
          misordered := if lane.counters.misordered = 0xFFFFFFFF then 0xFFFFFFFF else lane.counters.misordered + 1 } } }))
    ∧ (lane.slots[k]? = some .free ∨ (∃ g, lane.slots[k]? = some (.drained g)) →
      ∃ b, exec (.finalByteRead addr length now) s = .next (withStale b { s with readData := read, timebase := time }))

/-! ## The return path (07) -/

/-- R104: a header is good exactly when its first four bytes are the sync pattern, its format byte is 1, its 20 bytes sum to 0
modulo 256 and its frame index is 0 to 7; the group check, first-segment offset, flags and fill count do not enter; it names a
frame by its group number and index; the successor and the distance are as the rule gives them, a frame is later exactly when
the distance is above 0, and the header the packer writes is good and names its frame. R113: a segment header has the first
fault that holds of it, and the fields of its sixteen bytes when none does. -/
def Obligations.HeaderJudged : Prop :=
  (∀ h : List Byte, h.length = 20 →
    (headerGood h = true ↔ h.take 4 = [0xB5, 0x3C, 0xE2, 0x71] ∧ fieldNat h 15 1 = 1
      ∧ (h.map fun b => b.toNat).sum % 256 = 0 ∧ fieldNat h 14 1 ≤ 7)
    ∧ (headerGood h = true → (headerName h).group.toNat = fieldNat h 4 4 ∧ (headerName h).index.val = fieldNat h 14 1))
  ∧ (∀ x : FrameName,
    (x.index.val < 7 → x.next.group = x.group ∧ x.next.index.val = x.index.val + 1)
    ∧ (x.index.val = 7 → x.next.group = x.group + 1 ∧ x.next.index.val = 0))
  ∧ (∀ x y : FrameName, ∃ g : Int, -2147483648 ≤ g ∧ g ≤ 2147483647 ∧ y.group = x.group + BitVec.ofInt 32 g
    ∧ x.distance y = 8 * g + ((y.index.val : Int) - (x.index.val : Int))
    ∧ (x.later y = true ↔ 0 < x.distance y))
  ∧ (∀ h : List Byte, h.length = 16 →
    (∀ reason, firstHolds reason (headerFaults h) → readSegmentHeader h = .error reason)
    ∧ (noneHolds (headerFaults h) → readSegmentHeader h = .ok (headerFields h)))
  ∧ ∀ (group check : Word) (first : Option Nat) (index : Nat) (padClosed : Bool) (fill : Nat), index ≤ 7 →
    (frameHeader group check first index padClosed fill).length = 20
    ∧ headerGood (frameHeader group check first index padClosed fill) = true
    ∧ (headerName (frameHeader group check first index padClosed fill)).group = group
    ∧ (headerName (frameHeader group check first index padClosed fill)).index.val = index

/-- SYNC_SEARCH_TEST and SYNC_CONFIRM: a good header at the scan mark makes it the candidate; a good successor one frame on
makes it CONFIRM2; a good successor two frames on gains lock with the candidate expected, and LOCK_GAINED is posted; a bad
test moves the scan mark one byte on, to SEARCH. With too few bytes arrived nothing changes. The consumed mark and the accept
limit follow the scan mark (part of R102, R105 and R106). -/
def Obligations.SyncSearchesAndConfirms : Prop :=
  ∀ (s : State) (n : LaneId) (l : Layout), running s → FramerFree s n → s.wd.layout = some l →
    let f := s.framers[n]
    let arrived := (s.wd.ringAperture[n].expected - f.scan).toNat
    let header (x : Word) : List Byte := ringBytes s.mem l.rings[n] (f.scan + x) 20
    let onward (c : Instr) : Prop := ∃ t, exec c s = .next t
      ∧ framerMoves s s t l n { f with sync := .search, scan := f.scan + 1 }
    (f.sync = .search →
      (arrived < 20 → ∃ b, exec (.syncSearchTest n) s = .next (withStale b s))
      ∧ (20 ≤ arrived → headerGood (header 0) = false → onward (.syncSearchTest n))
      ∧ (20 ≤ arrived → headerGood (header 0) = true → ∃ b, exec (.syncSearchTest n) s = .next (withStale b { s with
          framers := s.framers.set n { f with sync := .confirm1 (headerName (header 0)) } })))
    ∧ (∀ x : FrameName, f.sync = .confirm1 x →
      (arrived < 4116 → ∃ b, exec (.syncConfirm n) s = .next (withStale b s))
      ∧ (4116 ≤ arrived → ¬ (headerGood (header 4096) = true ∧ headerName (header 4096) = x.next) → onward (.syncConfirm n))
      ∧ (4116 ≤ arrived → headerGood (header 4096) = true → headerName (header 4096) = x.next →
        ∃ b, exec (.syncConfirm n) s = .next (withStale b { s with
          framers := s.framers.set n { f with sync := .confirm2 x } })))
    ∧ ∀ x : FrameName, f.sync = .confirm2 x →
      (arrived < 8212 → ∃ b, exec (.syncConfirm n) s = .next (withStale b s))
      ∧ (8212 ≤ arrived → ¬ (headerGood (header 8192) = true ∧ headerName (header 8192) = x.next.next) →
          onward (.syncConfirm n))
      ∧ (8212 ≤ arrived → headerGood (header 8192) = true → headerName (header 8192) = x.next.next → s.re.hasRoom = true →
        ∃ t, exec (.syncConfirm n) s = .next t
          ∧ framerMoves s
            { s with re := { s.re with backlog := s.re.backlog ++ [.lockGained n
              (match f.slot with | none => 0 | some k => s.jt.jobs[k].record.tag) f.scan x] } } t l n
            { f with
              sync := .locked, missCount := 0, firstMissed := none, expected := some x, failures := 0, lastAccepted := none
              assembler := match f.assembler with | .hold y => .hold y | _ => .waitStart })

/-- FRAME_TAKE in LOCKED, with a whole frame arrived and no segment held: a bad header is a miss, which breaks the group in
hand and gives up a partial segment; a miss that reaches the loss threshold loses lock, SEARCH resumes one byte past the first
missed position and LOCK_LOST is posted. A good header not later than the expected frame is a repeat; one later is a slip,
counted with its distance, which breaks the group and gives up a partial segment. The frame of a slip and the expected frame
are accepted: the payload enters the check of its group; the first frame of another group settles the one in hand unchecked and
takes its own in hand, ACCUMULATING from its frame 0. The assembler walks the payload, header after header: to the next frame
where none begins; through a segment that ends in it, which joins the decode queue if the job wants it, or waits in HOLD; to a
segment that goes on; or to the SEGMENT_FAULT of R112 to R114. One that finds no room waits, its frame not finished. Then frame
7 settles the group: unchecked if it is broken, else checked, a mismatch posting GROUP_CHECK_FAIL, and the second in a row
losing lock. A VERIFY job's frame beyond its last group, a RESTORE job's last segment and a header beyond it end the taking:
the Framer is STOPPED, its group settled unchecked, the job ENDING and, with nothing of it queued or in flight, its evaluation
due. The marks follow (part of R102, R103, R107 to R110, R112 to R116, R118, R127). Deduced: that the payload enters the group
check before the assembler has it, notes/assumptions/10.md; that SHORT names the frame of the segment's header, 22.md; that
AT_NEXT waits on at data with no segment start, 24.md. The model's choice: that the counter and the assembler change before a
SEGMENT_FAULT that waits has joined, 38.md; that SHORT is posted and counted for a segment that is not wanted too, 50.md. -/
def Obligations.FrameTaken : Prop :=
  ∀ (s : State) (n : LaneId) (k : SlotId) (x : FrameName) (l : Layout), running s → FramerFree s n →
    s.wd.layout = some l → s.framers[n].sync = .locked → s.framers[n].expected = some x → s.framers[n].slot = some k →
    s.jt.jobs[k].record.state = .active → (∀ y, s.framers[n].assembler ≠ .hold y) →
    4096 ≤ (s.wd.ringAperture[n].expected - s.framers[n].scan).toNat →
    let f := s.framers[n]
    let h := ringBytes s.mem l.rings[n] f.scan 20
    let payload := ringBytes s.mem l.rings[n] (f.scan + 20) 4076
    let opens := fieldNat h 12 2
    let dataEnd := 4076 - fieldNat h 17 2
    let job := s.jt.jobs[k].record
    let tag := job.tag
    let counters := job.counters
    let raised (w : Word) : Word := if w = 0xFFFFFFFF then 0xFFFFFFFF else w + 1
    let within (y : FrameName) : Prop := job.kind = .verify → (y.group - job.lastGroup).toInt ≤ 0
    let accepted (b : Framer) (y : FrameName) (a : Assembler) : Framer := { b with
      expected := some y.next, missCount := 0, firstMissed := none, lastAccepted := some y, scan := f.scan + 4096
      assembler := a }
    let counting (c : Counters) : State := { s with jt := { s.jt with jobs := s.jt.jobs.set k { s.jt.jobs[k] with
      record := { job with counters := c } } } }
    let first := if f.missCount = 0 then f.scan else f.firstMissed.getD f.scan
    let missed := counting { counters with framesMissed := raised counters.framesMissed }
    let goes (u : State) (a : Framer) : Prop := ∃ t, exec (.frameTake n) s = .next t ∧ framerMoves s u t l n a
    let at' (c : Nat) : Word := f.scan + 20 + BitVec.ofNat 32 c
    let run (base : State) (b : Framer) (y : FrameName) (slip : Bool) (start : Assembler) : Prop :=
      let after (a : Assembler) : Framer := accepted b y a
      let recorded : Word := BitVec.ofNat 32 (fieldNat h 8 4)
      let posts (u : State) (reports : List Report) : State := { u with re := { u.re with backlog := u.re.backlog ++ reports } }
      let recording (u : State) (r : JobRecord) : State := { u with
        jt := { u.jt with jobs := u.jt.jobs.set k { u.jt.jobs[k] with record := r } } }
      let ends (u : State) (a : Framer) : Prop :=
        (y.index ≠ 7 ∨ (∀ g, b.groupInHand = some g → g.group ≠ y.group) → goes u a)
        ∧ ∀ g, b.groupInHand = some g → y.index = 7 → g.group = y.group →
          let settled : Framer := { a with groupInHand := none, lastSettled := some y.group }
          let checked : Framer := { settled with groupsChecked := raised b.groupsChecked }
          let job' := u.jt.jobs[k].record
          let failed (more : List Report) : State := posts
            (recording u { job' with counters := { job'.counters with
              groupCheckFailures := raised job'.counters.groupCheckFailures } })
            (.groupCheckFail n tag y.group (~~~ g.check) recorded f.scan :: more)
          (g.accumulating = false → goes u { settled with groupsUnchecked := raised b.groupsUnchecked })
          ∧ (g.accumulating = true → ~~~ g.check = recorded → goes u { checked with failures := 0 })
          ∧ (g.accumulating = true → ~~~ g.check ≠ recorded → f.failures = 0 → u.re.hasRoom = true →
            goes (failed []) { checked with failures := 1 })
          ∧ (g.accumulating = true → ~~~ g.check ≠ recorded → f.failures = 1 → roomFor u 2 →
            goes (failed [.lockLost n tag .checks (f.scan + 1) y.group 7]) { checked with
              assembler := .waitStart, failures := 0, sync := .search, scan := f.scan + 1, expected := none
              locksLost := raised f.locksLost })
      let stays (a : Assembler) (c : Nat) (stage : FrameStage) : Framer := { after a with
        scan := f.scan
        frame := some {
          position := f.scan, name := y, firstSegment := opens, dataEnd := dataEnd, recorded := recorded, slip := slip
          cursor := c, stage := stage } }
      let faulted (u : State) (reason : SegmentFaultReason) (position : Word) (name : FrameName) (c : Nat) : Prop :=
        let report : Report := .segmentFault n tag reason position name
        let faults := raised f.segmentFaults
        (s.re.hasRoom = true → ends (posts u [report]) { after .waitStart with segmentFaults := faults })
        ∧ (s.re.hasRoom = false →
          goes { u with re := { s.re with waiters := s.re.waiters ++ [{ unit := .framer n, item := .post report }] } }
            { stays .waitStart c .check with segmentFaults := faults })
      let stops (u : State) (past : Bool) : Prop := jobTableFree s → s.jt.jobs[k].live = true → n ∉ s.de.holding →
        goes { recording u { u.jt.jobs[k].record with state := .ending } with
            de := { u.de with due := evaluationDue u.de k } }
          { unchecked (after .waitStart) with
            phase := .stopped, pastLast := past, scan := s.wd.ringAperture[n].expected }
      let gathers (next : State → Nat → Prop) (u : State) (a : Assembly) (c : Nat) : Prop :=
        let available := dataEnd - c
        let pieces := if a.wanted ∧ 0 < min a.remaining available then
          a.pieces ++ [{ position := at' c, length := min a.remaining available }] else a.pieces
        let entry : DecodeEntry := {
          slot := k, tag := tag, kind := job.kind, lane := n, header := a.header, frame := a.frame, offset := a.offset
          pieces := pieces }
        let joined : State := { u with de := { u.de with queue := u.de.queue ++ [entry] } }
        let last : Prop := job.kind = .restore ∧ a.header.tag = job.sourceTag ∧ job.lastChunk.toNat ≤ a.header.sequence.toNat
        (available < a.remaining → dataEnd = 4076 →
          ends u (after (.collect { a with pieces := pieces, remaining := a.remaining - available })))
        ∧ (available < a.remaining → dataEnd ≠ 4076 → faulted u .short a.position a.frame dataEnd)
        ∧ (a.remaining ≤ available →
          (a.wanted = false → next u (c + a.remaining))
          ∧ (a.wanted = true → u.de.queue.length < 8 → u.de.holding = [] →
            (¬ last → next joined (c + a.remaining)) ∧ (last → stops joined false))
          ∧ (a.wanted = true → 8 ≤ u.de.queue.length ∨ u.de.holding ≠ [] →
            goes { u with de := { u.de with holding := u.de.holding ++ [n] } }
              (stays (.hold { a with pieces := pieces, remaining := 0 }) (c + a.remaining) .assemble)))
      let judged (next : State → Nat → Prop) (u : State) (c : Nat) : Prop :=
        let header := ringBytes s.mem l.rings[n] (at' c) 16
        let fields := headerFields header
        let beyond : Prop := job.kind = .restore ∧ fields.tag = job.sourceTag ∧ job.lastChunk.toNat < fields.sequence.toNat
        (c = dataEnd → ends u (after .atNext))
        ∧ (c ≠ dataEnd → dataEnd < c + 16 → faulted u .split (at' c) y c)
        ∧ (∀ reason, c + 16 ≤ dataEnd → firstHolds reason (headerFaults header) → faulted u reason (at' c) y c)
        ∧ (c + 16 ≤ dataEnd → noneHolds (headerFaults header) →
          (beyond → stops u false)
          ∧ ∀ wanted : Bool, ¬ beyond → (wanted = true ↔ wantedBy job fields) →
            gathers next u {
              wanted := wanted, header := fields, frame := y, offset := c, position := at' c, pieces := []
              remaining := fields.storedLength } (c + 16))
      (within y →
        (start = .waitStart ∨ (start = .atNext ∧ dataEnd ≠ 0) → opens = 0xFFFF → ends base (after .waitStart))
        ∧ (start = .atNext → dataEnd = 0 → ends base (after .atNext))
        ∧ (∀ depth, opens ≠ 0xFFFF → start = .waitStart ∨ (start = .atNext ∧ dataEnd ≠ 0) → unrolled judged depth base opens)
        ∧ ∀ (a : Assembly) (depth : Nat), start = .collect a → gathers (unrolled judged depth) base a 0)
      ∧ (job.kind = .verify → 0 < (y.group - job.lastGroup).toInt → start = .waitStart ∨ start = .atNext → stops base true)
    (headerGood h = false → f.missCount + 1 < s.re.laneSettings[n].lossThreshold →
      ∃ t, exec (.frameTake n) s = .next t
        ∧ framerMoves s missed t l n { f with
          assembler := .waitStart, expected := some x.next, missCount := f.missCount + 1, firstMissed := some first
          groupInHand := f.groupInHand.map fun g => { g with accumulating := false }, scan := f.scan + 4096 })
    ∧ (∀ y : FrameName, headerGood h = false → s.re.laneSettings[n].lossThreshold ≤ f.missCount + 1 → s.re.hasRoom = true →
      f.lastAccepted = some y →
      ∃ t, exec (.frameTake n) s = .next t
        ∧ framerMoves s
          { missed with re := { s.re with backlog := s.re.backlog ++
            [.lockLost n s.jt.jobs[k].record.tag .misses (first + 1) y.group (BitVec.ofNat 8 y.index.val)] } } t l n
          { f with
            sync := .search, scan := first + 1, missCount := 0, firstMissed := none, expected := none, assembler := .waitStart
            groupInHand := none
            lastSettled := (f.groupInHand.map fun g => g.group).or f.lastSettled
            groupsUnchecked := if f.groupInHand = none ∨ f.groupsUnchecked = 0xFFFFFFFF then f.groupsUnchecked
              else f.groupsUnchecked + 1
            locksLost := if f.locksLost = 0xFFFFFFFF then 0xFFFFFFFF else f.locksLost + 1 })
    ∧ (headerGood h = true → headerName h ≠ x → x.distance (headerName h) ≤ 0 →
      ∃ t, exec (.frameTake n) s = .next t
        ∧ framerMoves s s t l n { f with missCount := 0, firstMissed := none, scan := f.scan + 4096 })
    ∧ (∀ y : FrameName, headerGood h = true → headerName h = y → 0 < x.distance y →
      let d := (x.distance y).toNat
      let broken : Framer := { f with groupInHand := f.groupInHand.map fun g => { g with accumulating := false } }
      run (counting { counters with
          slips := if counters.slips.toNat + d < 4294967295 then counters.slips + BitVec.ofNat 32 d else 0xFFFFFFFF })
        (grouped broken y true payload) y true .waitStart)
    ∧ (headerGood h = true → headerName h = x → run s (grouped f x false payload) x false f.assembler)

/-! ## The Decode Engine (06, 08) -/

/-- DECODE_TAKE: the idle engine, with no end evaluation due, takes the oldest entry with the discard mark clear, its pieces in
the return ring of the layout as it then is; a Framer that holds has its segment join the queue then and finishes its frame;
while the engine is busy nothing changes. EXPANSION_COMPLETE: the decode has its result, GOOD exactly when no fault stopped it
and the complemented output check equals the header's raw check; segments rises and, for a fault, faulted rises and the slot's
last faulted decode is recorded; a marked decode is discarded and counts nothing, and a RESTORE decode below the expected
sequence ends the decode at once, the end evaluation of a job in ENDING then being due; the consumed mark of a lane still bound
follows, a STOPPED Framer's as deduced in notes/assumptions/24.md, unless the Framer waits on a post (part of R102, R103, R115,
R118 to R120, R123 to R125, R127, R130). That the expansion buffer and the output check of a faulted or marked decode are kept
at its completion is the model's choice, notes/assumptions/48.md. -/
def Obligations.DecodeProceeds : Prop :=
  (∀ (s : State) (e : DecodeEntry) (rest : List DecodeEntry) (l : Layout), running s → s.de.operation = none →
    s.de.due = [] → s.de.queue = e :: rest → s.de.holding = [] → s.wd.layout = some l →
    ∃ b, exec .decodeTake s = .next (withStale b { s with
      de := { s.de with
        queue := rest, buffer := [], outputCheck := 0xFFFFFFFF
        operation := some (.decode { entry := e, ring := l.rings[e.lane], result := none, discard := false, linked := true }) } }))
  ∧ (∀ (s : State) (e : DecodeEntry) (rest : List DecodeEntry) (m : LaneId) (a : Assembly) (k : SlotId) (l : Layout),
    running s → s.de.operation = none → s.de.due = [] → s.de.queue = e :: rest → rest.length < 8 → s.de.holding = [m] →
    s.wd.layout = some l → s.framers[m].assembler = .hold a → s.framers[m].slot = some k → s.framers[m].phase = .taking →
    s.waiting (.framer m) = false → s.framers[m].pastLast = false →
    (s.jt.jobs[k].record.kind = .restore → a.header.tag = s.jt.jobs[k].record.sourceTag →
      a.header.sequence.toNat < s.jt.jobs[k].record.lastChunk.toNat) →
    let job := s.jt.jobs[k].record
    let taken : State := { s with de := { s.de with
      queue := rest ++ [{
        slot := k, tag := job.tag, kind := job.kind, lane := m, header := a.header, frame := a.frame, offset := a.offset
        pieces := a.pieces }]
      holding := [], buffer := [], outputCheck := 0xFFFFFFFF
      operation := some (.decode { entry := e, ring := l.rings[e.lane], result := none, discard := false, linked := true }) } }
    (s.framers[m].frame = none → ∃ t, exec .decodeTake s = .next t
      ∧ framerMoves s taken t l m { s.framers[m] with assembler := .waitStart })
    ∧ ∀ w : FrameWork, s.framers[m].frame = some w → w.stage = .assemble → w.cursor = w.dataEnd → w.name.index ≠ 7 →
      ∃ t, exec .decodeTake s = .next t
        ∧ framerMoves s taken t l m { s.framers[m] with assembler := .atNext, frame := none, scan := w.position + 4096 })
  ∧ (∀ s : State, running s → s.de.operation ≠ none → ∃ b, exec .decodeTake s = .next (withStale b s))
  ∧ ∀ (s : State) (d : Decode), running s → s.de.operation = some (.decode d) → d.result = none →
    let e := d.entry
    let n := e.lane
    let input := e.pieces.flatMap fun p => ringBytes s.mem d.ring p.position p.length
    let x := expandSegment e.header.mode e.header.rawLength input
    let check := crcUpdate 0xFFFFFFFF x.output.toList
    let result : DecodeResult := match x.fault with
      | some reason => .decodeFault reason
      | none => if ~~~ check = e.header.rawCheck then .good else .checkFault
    let counters := s.jt.jobs[e.slot].record.counters
    let below : Prop := e.kind = .restore ∧ e.header.sequence.toNat < s.de.slots[e.slot].expected
    let de (u : DecodeEngine) : DecodeEngine := { u with
      buffer := x.output.toList, outputCheck := check
      slots := if d.discard ∨ result = .good then s.de.slots else s.de.slots.set e.slot { s.de.slots[e.slot] with
        lastFault := some (result, e.header.sequence) } }
    let after (u : DecodeEngine) : State := { s with
      de := de u
      jt := if d.discard then s.jt else { s.jt with jobs := s.jt.jobs.set e.slot { s.jt.jobs[e.slot] with
        record := { s.jt.jobs[e.slot].record with counters := { counters with
          segments := if counters.segments = 0xFFFFFFFF then 0xFFFFFFFF else counters.segments + 1
          faulted := if result = .good ∨ counters.faulted = 0xFFFFFFFF then counters.faulted else counters.faulted + 1 } } } } }
    let completes (u : State) : Prop :=
      (d.linked = false ∨ s.waiting (.framer n) = true → ∃ b, exec .expansionComplete s = .next (withStale b u))
      ∧ ∀ l : Layout, d.linked = true → s.waiting (.framer n) = false → s.wd.layout = some l →
        (s.framers[n].phase = .taking → s.framers[n].pastLast = false →
          ∃ t, exec .expansionComplete s = .next t ∧ framerMoves s u t l n s.framers[n])
        ∧ (s.framers[n].phase = .stopped →
          ∃ t, exec .expansionComplete s = .next t
            ∧ framerMoves s u t l n { s.framers[n] with scan := s.wd.ringAperture[n].expected })
    (d.discard = true → completes (after { s.de with operation := none }))
    ∧ (d.discard = false → ¬ below →
      completes (after { s.de with operation := some (.decode { d with result := some result, check := check }) }))
    ∧ (d.discard = false → below → completes (after (decodeEnded s e.slot)))

/-- SIGHTING of a VERIFY decode in SETTLING: the first live record in ring order at the segment's tape position, DISCARDED ones
passed over, becomes VERIFIED when the decode was good and the checks agree and VERIFY_FAILED otherwise, with verified or
failed raised; with no such record uncatalogued rises and memory is unchanged; the engine is idle, and the end evaluation of a
job in ENDING with no entry left is due (part of R98, R126, R127). That the expansion buffer and the output check stay as they
are when a decode ends is the model's choice, notes/assumptions/48.md. -/
def Obligations.SightingSettles : Prop :=
  ∀ (s : State) (d : Decode) (r : DecodeResult) (l : Layout) (c : CartRecord), running s →
    s.de.operation = some (.decode d) → d.result = some r → d.entry.kind = .verify → s.sc.operation = none →
    s.wd.layout = some l → s.cd.records[s.jt.jobs[d.entry.slot].record.cart] = some c →
    let e := d.entry
    let finds (q : Word) : Prop := sightedBy c.label e.frame e.offset (recordAt s l q)
    let counters := s.jt.jobs[e.slot].record.counters
    let settled (m : List Host.Cell) (after : Counters) : State := { s with
      mem := m
      de := decodeEnded s e.slot
      jt := { s.jt with jobs := s.jt.jobs.set e.slot { s.jt.jobs[e.slot] with
        record := { s.jt.jobs[e.slot].record with counters := after } } } }
    ((∀ q ∈ s.sc.live, ¬ finds q) →
      ∃ b, exec .sighting s = .next (withStale b (settled s.mem { counters with
        uncatalogued := if counters.uncatalogued = 0xFFFFFFFF then 0xFFFFFFFF else counters.uncatalogued + 1 })))
    ∧ ∀ i : Nat, i < (s.sc.producer - s.sc.consumer).toNat → finds (s.sc.consumer + BitVec.ofNat 32 i) →
      (∀ j : Nat, j < i → ¬ finds (s.sc.consumer + BitVec.ofNat 32 j)) →
      let q := s.sc.consumer + BitVec.ofNat 32 i
      let good := r = .good ∧ (~~~ d.check).toNat = fieldNat (recordAt s l q) 28 4
      ∃ t, exec .sighting s = .next t
        ∧ written s.mem t.mem (recordAddress l q + 11) [if good then 3 else 4]
        ∧ t = withStale t.re.stale (settled t.mem (if good then
            { counters with verified := if counters.verified = 0xFFFFFFFF then 0xFFFFFFFF else counters.verified + 1 }
          else { counters with failed := if counters.failed = 0xFFFFFFFF then 0xFFFFFFFF else counters.failed + 1 }))

/-- RESTORE_ENTRY_WRITE of a RESTORE decode in SETTLING: below the expected sequence it ends with no entry; without room for
the entry nothing changes; above the expected sequence a MISSING descriptor covers the gap and the missing counter rises; at
it, the segment's own entry follows, GOOD with its bytes padded to a multiple of 16 or FAULTED, Pr advances by the entry's size
and the engine is idle, the end evaluation of a job in ENDING with no entry left being due; no other byte of memory changes. Of
an end evaluation in flight it writes the trailing MISSING entry up to the last chunk, once the ring has room, and the job ends
COMPLETE (part of R127, R129 to R132). That the expansion buffer and the output check stay as they are when a decode ends is
the model's choice, notes/assumptions/48.md. -/
def Obligations.RestoreEntryWritten : Prop :=
  (∀ (s : State) (d : Decode) (r : DecodeResult), running s → s.de.operation = some (.decode d) → d.result = some r →
    d.entry.kind = .restore →
    let k := d.entry.slot
    let job := s.jt.jobs[k].record
    let x := s.de.slots[k]
    let seq := d.entry.header.sequence.toNat
    let raw := d.entry.header.rawLength
    let size := job.ringSize.toNat
    let room := size - (x.producer - x.consumer).toNat
    let at' (i : Nat) : Nat := job.ringBase.toNat + (x.producer.toNat + i) % size
    let entry (t : State) (bytes : List Byte) : Prop :=
      (∀ (i : Nat) (h : i < bytes.length), memRead t.mem (at' i) = bytes[i])
        ∧ ∀ a, (∀ i, i < bytes.length → a ≠ at' i) → memRead t.mem a = memRead s.mem a
    seq ≤ job.lastChunk.toNat → 0 < size → x.producer.toNat + 16 + (raw + 15) / 16 * 16 < 4294967296 →
    (seq < x.expected → ∃ b, exec .restoreEntryWrite s = .next (withStale b { s with de := decodeEnded s k }))
    ∧ (x.expected ≤ seq → room < 16 → ∃ b, exec .restoreEntryWrite s = .next (withStale b s))
    ∧ (x.expected < seq → 16 ≤ room →
      ∃ t, exec .restoreEntryWrite s = .next t
        ∧ entry t (descriptorBytes x.expected (seq - x.expected) 0 .missing)
        ∧ t = withStale t.re.stale { s with
            mem := t.mem
            de := { s.de with slots := s.de.slots.set k { x with producer := x.producer + 16, expected := seq } }
            jt := { s.jt with jobs := s.jt.jobs.set k { s.jt.jobs[k] with record := { job with
              counters := { job.counters with missing :=
                if job.counters.missing.toNat + (seq - x.expected) < 4294967295 then
                  job.counters.missing + BitVec.ofNat 32 (seq - x.expected)
                else 0xFFFFFFFF } } } } })
    ∧ (x.expected = seq → r ≠ .good → 16 ≤ room →
      ∃ t, exec .restoreEntryWrite s = .next t ∧ entry t (descriptorBytes seq 1 0 .faulted)
        ∧ t = withStale t.re.stale { s with
            mem := t.mem
            de := { decodeEnded s k with slots := s.de.slots.set k { x with producer := x.producer + 16, expected := seq + 1 } } })
    ∧ (x.expected = seq → r = .good → s.de.buffer.length = raw →
      let need := 16 + (raw + 15) / 16 * 16
      (room < need → ∃ b, exec .restoreEntryWrite s = .next (withStale b s))
      ∧ (need ≤ room →
        ∃ t, exec .restoreEntryWrite s = .next t
          ∧ entry t (descriptorBytes seq 1 raw .good ++ s.de.buffer ++ zeroBytes ((raw + 15) / 16 * 16 - raw))
          ∧ t = withStale t.re.stale { s with
              mem := t.mem
              de := { decodeEnded s k with
                slots := s.de.slots.set k { x with producer := x.producer + BitVec.ofNat 32 need, expected := seq + 1 } }
              jt := { s.jt with jobs := s.jt.jobs.set k { s.jt.jobs[k] with record := { job with
                counters := { job.counters with rawBytes := job.counters.rawBytes + BitVec.ofNat 64 raw } } } } })))
  ∧ ∀ (s : State) (k : SlotId), running s → s.de.operation = some (.evaluation k) → jobTableFree s →
    s.jt.jobs[k].live = true → s.jt.jobs[k].record.kind = .restore → s.re.hasRoom = true →
    s.waiting (.framer s.jt.jobs[k].record.lane) = false →
    let job := s.jt.jobs[k].record
    let x := s.de.slots[k]
    let size := job.ringSize.toNat
    let room := size - (x.producer - x.consumer).toNat
    let count := job.lastChunk.toNat + 1 - x.expected
    x.expected ≤ job.lastChunk.toNat → count < 4294967296 → 0 < size → x.producer.toNat + 16 < 4294967296 →
    (room < 16 → ∃ b, exec .restoreEntryWrite s = .next (withStale b s))
    ∧ (16 ≤ room → ∃ t, exec .restoreEntryWrite s = .next t ∧ missingWritten s t k count
      ∧ restoreEnded s t k { job with counters := { job.counters with missing := countedMissing job count } })

/-- END_EVALUATION: nothing while the engine is busy or no evaluation is due. A VERIFY job at the head of the due list: its
cartridge's ON_TAPE records of the range become MISSING and are counted; a clean result that begins at or below V raises V to
beyond the last group, an unclean one makes the cartridge SUSPECT; the job ends COMPLETE, its JOB_DONE posted, its slot free,
its lane IDLE and its Framer UNBOUND. A RESTORE job that has delivered its last chunk ends COMPLETE at once, memory unchanged;
one that has not has the trailing MISSING entry written first, or, without room for it, the evaluation stays in flight (part
of R42, R46, R97, R127, R128, R132). -/
def Obligations.EvaluationEndsJob : Prop :=
  (∀ s : State, running s → s.de.operation ≠ none ∨ s.de.due = [] → ∃ b, exec .endEvaluation s = .next (withStale b s))
  ∧ ∀ (s : State) (k : SlotId) (due : List SlotId) (l : Layout), running s → s.de.operation = none → s.de.due = k :: due →
    jobTableFree s → s.jt.jobs[k].live = true → s.wd.layout = some l → catalogBounded s l → s.re.hasRoom = true →
    s.waiting (.framer s.jt.jobs[k].record.lane) = false →
    let job := s.jt.jobs[k].record
    let ended (t : State) (record : JobRecord) : Prop :=
      exec .endEvaluation s = .next t ∧ t.jt.jobs = s.jt.jobs.set k { live := false, record := { record with state := .free } }
        ∧ t.re.backlog = s.re.backlog ++ [.jobDone k record .complete]
        ∧ t.de.operation = none ∧ t.de.due = due ∧ t.de.queue = s.de.queue
        ∧ t.lanes[job.lane].role = .idle ∧ t.framers[job.lane].phase = .unbound ∧ t.lc = s.lc ∧ t.streams = s.streams
    (∀ c : CartRecord, job.kind = .verify → s.cd.records[job.cart] = some c →
      let gone (y : List Byte) : Prop := inRange c.label job.firstGroup job.lastGroup y ∧ fieldNat y 11 1 = 2
      ∃ (t : State) (missing : Nat) (record : JobRecord), ended t record
        ∧ (∀ f : List Byte → Option Nat, (∀ y, gone y → f y = some 5) → (∀ y, ¬ gone y → f y = none) →
            recordsSet s l f t.mem ∧ missing = (s.sc.live.filterMap fun q => f (recordAt s l q)).length)
        ∧ record = { job with counters := { job.counters with missing :=
            if job.counters.missing.toNat + missing < 4294967295 then job.counters.missing + BitVec.ofNat 32 missing
            else 0xFFFFFFFF } }
        ∧ t.cd = { s.cd with records := s.cd.records.set job.cart (some
            (if record.counters.failed = 0 ∧ record.counters.missing = 0 ∧ record.counters.groupCheckFailures = 0 then
              (if job.firstGroup.toNat ≤ c.verified.toNat ∧ c.verified.toNat ≤ job.lastGroup.toNat then
                { c with verified := job.lastGroup + 1 } else c)
            else { c with condition := .suspect })) })
    ∧ (job.kind = .restore → job.lastChunk.toNat < s.de.slots[k].expected →
      ∃ t, ended t job ∧ t.mem = s.mem ∧ t.cd = s.cd)
    ∧ (job.kind = .restore → s.de.slots[k].expected ≤ job.lastChunk.toNat →
      let x := s.de.slots[k]
      let room := job.ringSize.toNat - (x.producer - x.consumer).toNat
      let count := job.lastChunk.toNat + 1 - x.expected
      (room < 16 → ∃ b, exec .endEvaluation s = .next (withStale b { s with
        de := { s.de with due := due, operation := some (.evaluation k) } }))
      ∧ (16 ≤ room → count < 4294967296 → 0 < job.ringSize.toNat → x.producer.toNat + 16 < 4294967296 →
        ∃ t, ended t { job with counters := { job.counters with missing := countedMissing job count } }
          ∧ missingWritten s t k count ∧ t.cd = s.cd))

/-! ## Doors and the loader (09, 10) -/

/-- DOOR_CLOSING_EDGE changes the door's level and nothing else. DOOR_OPENING_EDGE of a CLOSED door: the level is OPEN and the
latch set, every place behind the door is UNKNOWN, the records of those that were OCCUPIED are free and no others, and
DOOR_OPENED with their number is posted. With no order active, or one that names no place behind the door, the pending-order
fields are kept and nothing else changes. An active order that names a place behind the door ends DOOR_OPENED: the loader is
UNHOMED when it was homing or travelling and IDLE at its station otherwise, at the safe levels, a label read stops, the place
at which a gripper step works, behind the door or not, becomes UNKNOWN and its record free, the order's fields are cleared and
its ORDER_DONE comes before DOOR_OPENED (that order is deduced, notes/assumptions/11.md; that an order in the retract step
before a travel counts as travelling is the model's choice, notes/assumptions/39.md; part of R144, R149, R153, R160, R162).
That an IDLE label link shows attempt 0 and no bytes is the model's choice, notes/assumptions/49.md. -/
def Obligations.DoorEdgesTaken : Prop :=
  (∀ (s : State) (d : Door), running s →
    ∃ b, exec (.doorClosingEdge d) s = .next (withStale b { s with cd := match d with
      | .a => { s.cd with doorA := { s.cd.doorA with isOpen := false } }
      | .b => { s.cd with doorB := { s.cd.doorB with isOpen := false } }
      | .mail => { s.cd with doorMail := { s.cd.doorMail with isOpen := false } } }))
  ∧ (∀ (s : State) (d : Door) (x : Sample), running s →
    (match d with | .a => s.cd.doorA | .b => s.cd.doorB | .mail => s.cd.doorMail).isOpen = true →
    ∃ b, exec (.doorOpeningEdge d x) s = .next (withStale b (s.observe x)))
  ∧ ∀ (s : State) (d : Door) (x : Sample), running s →
    (match d with | .a => s.cd.doorA | .b => s.cd.doorB | .mail => s.cd.doorMail).isOpen = false →
    s.waiting .directory = false → loaderFree s →
    let doors (t : State) : Directory := {
      places := t.cd.places, records := t.cd.records, held := s.cd.held
      doorA := if d = .a then { isOpen := true, latch := true } else s.cd.doorA
      doorB := if d = .b then { isOpen := true, latch := true } else s.cd.doorB
      doorMail := if d = .mail then { isOpen := true, latch := true } else s.cd.doorMail }
    ((∀ o rest, s.lc.queue = o :: rest → o.active = false ∨ ∀ p, behind d p → ¬ orderNames s o p) → s.re.hasRoom = true →
      ∃ t freed, exec (.doorOpeningEdge d x) s = .next t
        ∧ t = withStale t.re.stale { s.observe x with
            re := { s.re with backlog := s.re.backlog ++ [.doorOpened d freed] }
            cd := doors t }
        ∧ placesLost s t (behind d) ∧ occupiedBehind s d freed
        ∧ ∀ p : PlaceId, t.cd.places[p].pending = s.cd.places[p].pending)
    ∧ ∀ (o : Order) (rest : List Order) (step : ActiveStep), s.lc.queue = o :: rest → o.active = true → orderFormed o →
      s.lc.step = some step → ¬ worksAt step o pickerPlace → (∃ p, orderNames s o p ∧ behind d p) →
      (pickerLoaded s ↔ x.lines.cartridgePresent = true) → s.cd.held = [] → roomFor s 2 →
      let moving := step.kind = .homing ∨ step.kind = .travel
      let state : LoaderState := if moving then .unhomed else .idle
      let station := if moving then none else s.lc.station
      ∃ t freed, exec (.doorOpeningEdge d x) s = .next t ∧ placesLost s t (fun p => behind d p ∨ worksAt step o p)
        ∧ occupiedBehind s d freed
        ∧ (∀ p : PlaceId, (orderNames s o p → t.cd.places[p].pending = none)
            ∧ (¬ orderNames s o p → t.cd.places[p].pending = s.cd.places[p].pending))
        ∧ t.lc.queue = rest ∧ t.lc.state = state ∧ t.lc.station = station ∧ t.lc.step = none ∧ loaderQuiet s.lc t.lc
        ∧ t.lc.outputs = { s.lc.outputs with motorRun := false, gripperExtend := false, gripperRetract := true }
        ∧ t = withStale t.re.stale { s.observe x with
            re := { s.re with backlog := s.re.backlog ++ [
              .orderDone o.tag o.kind (.fault .doorOpened) (some step.kind) (some step.station) state station,
              .doorOpened d freed] }
            cd := doors t, lc := t.lc }

/-- MOVE, MOUNT, DISMOUNT, INVENTORY and PICKER_PUT, when no check of R152 fails: the order joins the tail of a queue that is
not empty with its places' pending-order fields set, and nothing else changes but the answer and the lines sampled. Into the
empty queue of an IDLE loader it becomes ACTIVE, the loader BUSY, and the travel to its first place begins, or, where the picker
stands there, the GET's open step, the PUT's extend step or the survey's label read; into that of an UNHOMED one, away from home
with the gripper retracted, it becomes ACTIVE and homing begins (part of R150, R152 to R155, R157, R158, R161). That it becomes
ACTIVE in the same step is deduced, notes/assumptions/16.md, and so are the step station -1 while homing and the step SURVEY
of a label read, notes/assumptions/15.md. -/
def Obligations.OrderAccepted : Prop :=
  ∀ (c : Instr) (s : State) (r : List Byte) (o : Order), requestRow c = some (orderRow o.kind) →
    RequestNext s (some (orderRow o.kind)) r → 1 ≤ recordTag r → recordTag r ≤ 255 → loaderFree s → describes s r o →
    noneHolds (orderRefusals s o) →
    let a := answered .done r (sampled c s)
    (s.lc.queue ≠ [] →
      ∃ t, exec c s = .next t ∧ pendingSet s o (some o.tag) t.cd.places
        ∧ t = withStale t.re.stale { a with
            cd := { s.cd with places := t.cd.places }
            lc := { a.lc with queue := s.lc.queue ++ [o] } })
    ∧ (∀ (p : PlaceId) (i : Int), s.lc.queue = [] → s.lc.state = .idle → s.lc.station = some i → firstPlace s o p →
      let busy : State := { a with lc := { a.lc with queue := [{ o with active := true }], state := .busy } }
      let begins (after : Loader) : Prop := ∃ t, exec c s = .next t ∧ pendingSet s o (some o.tag) t.cd.places
        ∧ t = withStale t.re.stale { busy with cd := { s.cd with places := t.cd.places }, lc := after }
      let timer : Timer := { started := a.timebase, length := s.re.loaderSettings.stepTimeout * 1000 }
      (i ≠ p.val → begins (travelBegun busy i p))
      ∧ (i = p.val → o.source = some p → a.lc.lines.jawOpen = false → begins { busy.lc with
          step := some { kind := .get, station := i, part := .jawOpening }, stepTimer := some timer
          outputs := { s.lc.outputs with jawOpen := true, jawClose := false } })
      ∧ (i = p.val → o.source = none → o.scope = none → a.lc.lines.slotPresence = false → a.lc.lines.extended = false →
        begins { busy.lc with
          step := some { kind := .put, station := i, part := .extending }, stepTimer := some timer
          outputs := { s.lc.outputs with gripperExtend := true, gripperRetract := false } })
      ∧ (i = p.val → o.scope ≠ none → a.lc.lines.slotPresence = true → s.lc.exchange = none → begins { busy.lc with
          step := some { kind := .survey, station := i, part := .reading }
          exchanging := true, attempt := 1, received := [], retryTimer := none
          exchange := some { sent := 0x4C, limit := { started := a.timebase, length := 5000 } } }))
    ∧ (s.lc.queue = [] → s.lc.state = .unhomed → a.lc.lines.retracted = true → a.lc.lines.home = false →
      ∃ t, exec c s = .next t ∧ pendingSet s o (some o.tag) t.cd.places
        ∧ t = withStale t.re.stale { a with
            cd := { s.cd with places := t.cd.places }
            lc := { a.lc with
              queue := [{ o with active := true }], state := .homing, travelCount := 0
              step := some { kind := .homing, station := -1, part := .moving }
              outputs := { s.lc.outputs with motorRun := true, towardHome := true }
              markTimer := some { started := a.timebase, length := s.re.loaderSettings.markTimeout * 1000 } } })

/-- An order request is refused with the first code of R152 whose condition holds, its label looked up within the first check,
and has no other effect but the lines sampled. The order of the tests inside check 1 is the model's choice,
notes/assumptions/29.md: a MOUNT by label tests its target first, then whether a record has the label (part of
R151 and R152). -/
def Obligations.OrderRefused : Prop :=
  ∀ (c : Instr) (s : State) (r : List Byte) (kind : OrderKind), requestRow c = some (orderRow kind) →
    RequestNext s (some (orderRow kind)) r → 1 ≤ recordTag r → recordTag r ≤ 255 → loaderFree s →
    (orderArgumentBad s (orderRow kind) r →
      ∃ b, exec c s = .next (withStale b (answered .badArgument r (sampled c s))))
    ∧ (kind = .mount → driveByte s (argByte r 5) → argByte r 4 = 0xFF → (∀ d y, ¬ labelled s (argLabel r 8) d y) →
      ∃ b, exec c s = .next (withStale b (answered .placeUnknown r (sampled c s))))
    ∧ ∀ (o : Order) (code : Code), o.kind = kind → describes s r o → firstHolds code (orderRefusals s o) →
      ∃ b, exec c s = .next (withStale b (answered code r (sampled c s)))

/-- LOADER_HALT: nothing but the answer and the lines sampled in a HALTED loader; in any other, with the PICKER as sensed, the
loader is HALTED with its station absent, its timers stopped and the safe levels, a label read stops, after the exchange in
progress if there is one, the queue and its pending-order fields are empty, and after the answer the active order's ORDER_DONE
with HALTED and the others' with CANCELLED follow in queue order. A gripper step in progress leaves the place it works at
UNKNOWN and its record free; without one, places and records are as they were. That a CANCELLED order's ORDER_DONE carries no
step and no station is deduced, notes/assumptions/15.md (part of R149, R160, R163). That an IDLE label link shows attempt 0 and
no bytes is the model's choice, notes/assumptions/49.md. -/
def Obligations.LoaderHalts : Prop :=
  ∀ (s : State) (r : List Byte) (x : Sample), RequestNext s (some .loaderHalt) r → loaderFree s →
    let a := answered .done r (s.observe x)
    (s.lc.state = .halted → ∃ b, exec (.loaderHalt x) s = .next (withStale b a))
    ∧ (s.lc.state ≠ .halted → (∀ y, s.lc.step = some y → y.kind ≠ .get ∧ y.kind ≠ .put) →
      (pickerLoaded s ↔ x.lines.cartridgePresent = true) → roomFor s s.lc.queue.length → (∀ o ∈ s.lc.queue, orderFormed o) →
      ∃ t, exec (.loaderHalt x) s = .next t
        ∧ (∀ p : PlaceId, ((∃ o ∈ s.lc.queue, orderNames s o p) → t.cd.places[p] = { s.cd.places[p] with pending := none })
            ∧ ((∀ o ∈ s.lc.queue, ¬ orderNames s o p) → t.cd.places[p] = s.cd.places[p]))
        ∧ t.cd.records = s.cd.records ∧ t.lc.queue = [] ∧ t.lc.state = .halted ∧ t.lc.station = none ∧ t.lc.step = none
        ∧ loaderQuiet s.lc t.lc
        ∧ t.lc.outputs = { s.lc.outputs with motorRun := false, gripperExtend := false, gripperRetract := true }
        ∧ t.re.backlog = a.re.backlog ++ (s.lc.queue.map fun o =>
            if o.active then Report.orderDone o.tag o.kind (.fault .halted) (s.lc.step.map fun y => y.kind)
              (s.lc.step.map fun y => y.station) .halted none
            else Report.orderDone o.tag o.kind (.fault .cancelled) none none .halted none)
        ∧ t.mem = s.mem ∧ t.jt = s.jt ∧ t.streams = s.streams ∧ t.ce = s.ce ∧ t.lanes = s.lanes ∧ t.sc = s.sc
        ∧ t.framers = s.framers ∧ t.de = s.de ∧ t.wd = s.wd)
    ∧ ∀ (o : Order) (rest : List Order) (y : ActiveStep) (q : PlaceId), s.lc.state ≠ .halted → s.lc.queue = o :: rest →
      o.active = true → s.lc.step = some y →
      (y.kind = .get ∧ o.source = some q) ∨ (y.kind = .put ∧ o.target = some q) → q ≠ pickerPlace →
      (pickerLoaded s ↔ x.lines.cartridgePresent = true) → roomFor s s.lc.queue.length →
      ∃ t, exec (.loaderHalt x) s = .next t ∧ t.cd.places[q].state = .unknown
        ∧ (∀ p : PlaceId, p ≠ q → t.cd.places[p].state = s.cd.places[p].state)
        ∧ (∀ c : CartId, (s.cd.places[q].state = .occupied c → t.cd.records[c] = none)
            ∧ (s.cd.places[q].state ≠ .occupied c → t.cd.records[c] = s.cd.records[c]))
        ∧ t.lc.queue = [] ∧ t.lc.state = .halted ∧ t.lc.station = none ∧ t.lc.step = none ∧ t.lc.stepTimer = none
        ∧ t.lc.outputs = { s.lc.outputs with motorRun := false, gripperExtend := false, gripperRetract := true }
        ∧ t.re.backlog = a.re.backlog
            ++ .orderDone o.tag o.kind (.fault .halted) (some y.kind) (some y.station) .halted none
            :: (rest.map fun o => if o.active then Report.orderDone o.tag o.kind (.fault .halted) (some y.kind)
                (some y.station) .halted none else Report.orderDone o.tag o.kind (.fault .cancelled) none none .halted none)

/-- LOADER_RESUME: a HALTED loader is UNHOMED with its station absent and the safe levels; in any other state nothing changes but
the answer (part of R164). -/
def Obligations.LoaderResumes : Prop :=
  ∀ (s : State) (r : List Byte), RequestNext s (some .loaderResume) r → loaderFree s →
    let a := answered .done r s
    (s.lc.state = .halted → ∃ b, exec .loaderResume s = .next (withStale b { a with lc := { s.lc with
      state := .unhomed, station := none
      outputs := { s.lc.outputs with motorRun := false, gripperExtend := false, gripperRetract := true } } }))
    ∧ (s.lc.state ≠ .halted → ∃ b, exec .loaderResume s = .next (withStale b a))

/-- ORDER_ACTIVATE of a head order that is QUEUED, the loader IDLE or UNHOMED: with the first check of its re-validation that
fails the order ends with that code, the loader state unchanged; otherwise it is ACTIVE, and from UNHOMED, away from home with
the gripper retracted, homing starts at the creep duty; from IDLE the travel to its first place starts. In any other loader
state nothing changes but the lines sampled (part of R153, R154, R155). The step station -1 while homing, and the step and step
station in the ORDER_DONE of an order that ends at re-validation, are deduced, notes/assumptions/15.md. That an IDLE label link
shows attempt 0 and no bytes is the model's choice, notes/assumptions/49.md. -/
def Obligations.OrderActivates : Prop :=
  (∀ (s : State) (x : Sample), running s → s.lc.state ≠ .idle → s.lc.state ≠ .unhomed →
    ∃ b, exec (.orderActivate x) s = .next (withStale b (s.observe x)))
  ∧ ∀ (s : State) (x : Sample) (o : Order) (rest : List Order), running s → loaderFree s →
    (s.lc.state = .idle ∨ s.lc.state = .unhomed) → s.lc.queue = o :: rest → o.active = false → orderFormed o →
    let a := s.observe x
    (∀ code, firstHolds code (placeRefusals s o (some o.tag) ++ loadRefusals s o) → s.re.hasRoom = true →
      ∃ t, exec (.orderActivate x) s = .next t ∧ orderEnded a t o rest (.refused code) s.lc.state s.lc.station)
    ∧ (noneHolds (placeRefusals s o (some o.tag) ++ loadRefusals s o) → s.lc.state = .unhomed → x.lines.retracted = true →
      x.lines.home = false →
      ∃ t, exec (.orderActivate x) s = .next t ∧ t.motorDuty = s.re.loaderSettings.creepDuty
        ∧ t = withStale t.re.stale { a with lc := { a.lc with
            queue := { o with active := true } :: rest, state := .homing, travelCount := 0
            step := some { kind := .homing, station := -1, part := .moving }
            outputs := { s.lc.outputs with motorRun := true, towardHome := true }
            markTimer := some { started := a.timebase, length := s.re.loaderSettings.markTimeout * 1000 } } })
    ∧ ∀ (p : PlaceId) (i : Int), noneHolds (placeRefusals s o (some o.tag) ++ loadRefusals s o) → s.lc.state = .idle →
      o.scope = none → o.source = some p ∨ (o.source = none ∧ o.target = some p) → s.lc.station = some i → i ≠ p.val →
      x.lines.retracted = true →
      ∃ b, exec (.orderActivate x) s = .next (withStale b { a with lc := { a.lc with
        queue := { o with active := true } :: rest, state := .busy, travelCount := ((p.val : Int) - i).natAbs
        step := some { kind := .travel, station := p.val, part := .moving }
        outputs := { s.lc.outputs with motorRun := true, towardHome := decide ((p.val : Int) < i) }
        markTimer := some { started := a.timebase, length := s.re.loaderSettings.markTimeout * 1000 } } })

/-- The rail's events with the motor running under the active order. HOME_INPUT ends homing at station -1 and the travel to the
first place starts away from home; in a travel it ends the order OVERTRAVEL. STATION_MARK restarts the mark timer and, in a
travel, lowers the count; the last mark before a source stops the motor there and GET begins with an open step; before a target
PUT begins with an extend step, or, with slot presence, the order ends TARGET_OCCUPIED with the place UNKNOWN and its record
free; at a station of an INVENTORY's scope the survey begins: with slot presence a label read's first exchange, without it the
place is EMPTY and, at the scope's last station, the order ends DONE and clears the latch of its scope's door if that is
CLOSED. MARK_TIMEOUT, once the timer has run out, ends the order HOME_FAIL or STALL, and RETRACTED_DEASSERT ends it STALL, each
with the loader UNHOMED and its station absent. With the motor stopped a mark or the home input changes nothing but the lines
sampled (part of R143, R144, R149, R153 to R158, R160, R161). That the survey's label read is shown as the step SURVEY is
deduced, notes/assumptions/15.md. That an IDLE label link shows attempt 0 and no bytes is the model's choice,
notes/assumptions/49.md. -/
def Obligations.RailEventsTaken : Prop :=
  ∀ (s : State) (x : Sample) (o : Order) (rest : List Order) (step : ActiveStep), running s → loaderFree s →
    s.re.hasRoom = true → s.lc.queue = o :: rest → o.active = true → s.lc.step = some step → orderFormed o →
    let a := s.observe x
    let timer : Timer := { started := a.timebase, length := s.re.loaderSettings.markTimeout * 1000 }
    (s.lc.outputs.motorRun = false → ∀ c ∈ [Instr.homeInput x, .stationMark x],
      ∃ b, exec c s = .next (withStale b a))
    ∧ (∀ p : PlaceId, s.lc.outputs.motorRun = true → x.lines.home = true → x.lines.retracted = true → s.lc.state = .homing →
      o.scope = none → o.source = some p ∨ (o.source = none ∧ o.target = some p) →
      ∃ b, exec (.homeInput x) s = .next (withStale b { a with lc := { a.lc with
        state := .busy, station := some (-1), travelCount := p.val + 1
        step := some { kind := .travel, station := p.val, part := .moving }
        outputs := { s.lc.outputs with motorRun := true, towardHome := false }
        markTimer := some timer } }))
    ∧ (s.lc.outputs.motorRun = true → x.lines.home = true → s.lc.state = .busy →
      ∃ t, exec (.homeInput x) s = .next t ∧ orderEnded a t o rest (.fault .overtravel) .unhomed none)
    ∧ (s.lc.outputs.motorRun = true → x.lines.stationMark = true → s.lc.state = .homing →
      ∃ b, exec (.stationMark x) s = .next (withStale b { a with lc := { a.lc with markTimer := some timer } }))
    ∧ (s.lc.outputs.motorRun = true → x.lines.stationMark = true → s.lc.state = .busy → 2 ≤ s.lc.travelCount →
      ∃ b, exec (.stationMark x) s = .next (withStale b { a with lc := { a.lc with
        markTimer := some timer, travelCount := s.lc.travelCount - 1 } }))
    ∧ (∀ p : PlaceId, s.lc.outputs.motorRun = true → x.lines.stationMark = true → s.lc.state = .busy →
      s.lc.travelCount = 1 → step.kind = .travel → step.station = p.val → o.scope = none → o.source = some p →
      x.lines.jawOpen = false →
      ∃ b, exec (.stationMark x) s = .next (withStale b { a with lc := { a.lc with
        markTimer := none, travelCount := 0, station := some (p.val : Int)
        step := some { kind := .get, station := p.val, part := .jawOpening }
        outputs := { s.lc.outputs with motorRun := false, jawOpen := true, jawClose := false }
        stepTimer := some { started := a.timebase, length := s.re.loaderSettings.stepTimeout * 1000 } } }))
    ∧ (∀ p : PlaceId, s.lc.outputs.motorRun = true → x.lines.stationMark = true → s.lc.state = .busy →
      s.lc.travelCount = 1 → step.kind = .travel → step.station = p.val → o.scope = none → o.source ≠ some p →
      o.target = some p →
      let put : ActiveStep := { kind := .put, station := p.val, part := .extending }
      (x.lines.slotPresence = false → x.lines.extended = false →
        ∃ b, exec (.stationMark x) s = .next (withStale b { a with lc := { a.lc with
          markTimer := none, travelCount := 0, station := some (p.val : Int), step := some put
          outputs := { s.lc.outputs with motorRun := false, gripperExtend := true, gripperRetract := false }
          stepTimer := some { started := a.timebase, length := s.re.loaderSettings.stepTimeout * 1000 } } }))
      ∧ (x.lines.slotPresence = true →
        let sampled : State := { a with
          lc := { a.lc with step := some put }
          cd := { s.cd with
            places := s.cd.places.set p { s.cd.places[p] with state := .unknown }
            records := match s.cd.places[p].state with
              | .occupied c => s.cd.records.set c none
              | _ => s.cd.records } }
        ∃ t, exec (.stationMark x) s = .next t
          ∧ orderEnded sampled t o rest (.fault .targetOccupied) .idle (some (p.val : Int))))
    ∧ (∀ (p : PlaceId) (scope : Scope), s.lc.outputs.motorRun = true → x.lines.stationMark = true → s.lc.state = .busy →
      s.lc.travelCount = 1 → step.kind = .travel → step.station = p.val → o.scope = some scope → s.lc.exchange = none →
      let survey : ActiveStep := { kind := .survey, station := p.val, part := .reading }
      (x.lines.slotPresence = true →
        ∃ b, exec (.stationMark x) s = .next (withStale b { a with lc := { a.lc with
          markTimer := none, travelCount := 0, station := some (p.val : Int), step := some survey
          outputs := { s.lc.outputs with motorRun := false }
          exchanging := true, attempt := 1, received := [], retryTimer := none
          exchange := some { sent := 0x4C, limit := { started := a.timebase, length := 5000 } } } }))
      ∧ (x.lines.slotPresence = false → (∀ q, orderNames s o q → q.val ≤ p.val) →
        let sampled : State := { a with
          lc := { a.lc with step := some survey }
          cd := { s.cd with
            places := s.cd.places.set p { s.cd.places[p] with state := .empty }
            records := match s.cd.places[p].state with
              | .occupied c => s.cd.records.set c none
              | _ => s.cd.records } }
        ∃ t, exec (.stationMark x) s = .next t ∧ orderEnded sampled t o rest .done .idle (some (p.val : Int))
          ∧ (let cleared (y : Scope) (d : DoorState) : DoorState :=
              if scope = y ∧ d.isOpen = false then { d with latch := false } else d
            t.cd.doorA = cleared .a s.cd.doorA ∧ t.cd.doorB = cleared .b s.cd.doorB
              ∧ t.cd.doorMail = cleared .mail s.cd.doorMail)))
    ∧ (∀ m : Timer, s.lc.markTimer = some m → a.timebase < m.started + m.length →
      ∃ b, exec (.markTimeout x) s = .next (withStale b a))
    ∧ (∀ m : Timer, s.lc.markTimer = some m → m.started + m.length ≤ a.timebase →
      ∃ t, exec (.markTimeout x) s = .next t
        ∧ orderEnded a t o rest (.fault (if s.lc.state = .homing then .homeFail else .stall)) .unhomed none)
    ∧ (s.lc.outputs.motorRun = true → x.lines.retracted = false →
      ∃ t, exec (.retractedDeassert x) s = .next t ∧ orderEnded a t o rest (.fault .stall) .unhomed none)

/-- The gripper's events under the active order. GRIPPER_STEP_END: each step of a GET (open, extend, close, retract) and of a
PUT (extend, open, retract) is followed by the next, its output driven and its timer started, where that step's input is not
asserted yet; a retract step before a travel or before homing starts the motor; the retracted gripper of a GET empties the
source, moves the record to the PICKER, with no origin from a drive, and begins the label read; a jaw that closes on nothing
ends the order SOURCE_EMPTY with the source EMPTY and its record free; the retracted gripper of a PUT moves the PICKER's record
to the target, a MOUNT setting its origin, and the order ends DONE. STEP_TIMEOUT, once the timer has run out in a GET or PUT,
ends the order GRIP_TIMEOUT, IDLE at its station, with the source of the GET or the target of the PUT UNKNOWN, the record of
one that was OCCUPIED free, and the PICKER as its cartridge-present input shows it (part of R137, R143, R149, R153 to R160).
That an IDLE label link shows attempt 0 and no bytes is the model's choice, notes/assumptions/49.md. -/
def Obligations.GripperEventsTaken : Prop :=
  ∀ (s : State) (x : Sample) (o : Order) (rest : List Order) (step : ActiveStep), running s → loaderFree s →
    s.re.hasRoom = true → s.lc.queue = o :: rest → o.active = true → s.lc.step = some step → orderFormed o →
    let a := s.observe x
    let ended (t u : State) (outcome : OrderOutcome) : Prop :=
      exec (if outcome = .fault .gripTimeout then .stepTimeout x else .gripperStepEnd x) s = .next t
        ∧ t.cd.records = u.cd.records ∧ t.lc.queue = rest ∧ t.lc.state = .idle ∧ t.lc.station = s.lc.station
        ∧ t.lc.step = none ∧ loaderQuiet s.lc t.lc
        ∧ (∀ q : PlaceId, t.cd.places[q].state = u.cd.places[q].state
            ∧ (orderNames s o q → t.cd.places[q].pending = none)
            ∧ (¬ orderNames s o q → t.cd.places[q].pending = s.cd.places[q].pending))
        ∧ t.re.backlog = s.re.backlog ++ [.orderDone o.tag o.kind outcome (some step.kind) (some step.station) .idle s.lc.station]
        ∧ t.mem = s.mem ∧ t.lanes = s.lanes ∧ t.jt = s.jt
    let placed (q : PlaceId) (y : PlaceState) (v : Vector PlaceRecord 30) : Vector PlaceRecord 30 :=
      v.set q { v[q] with state := y }
    (s.lc.stepTimer = none ∨ (step.kind = .get ∧ step.part = .extending ∧ x.lines.extended = false) →
      ∃ b, exec (.gripperStepEnd x) s = .next (withStale b a))
    ∧ (s.lc.stepTimer ≠ none →
      let out := s.lc.outputs
      let extending : Outputs := { out with gripperExtend := true, gripperRetract := false }
      let retracting : Outputs := { out with gripperExtend := false, gripperRetract := true }
      let goesOn (kind : StepKind) (part : StepPart) (input : Bool) (after : StepPart) (asserted : Bool) (driven : Outputs) : Prop :=
        step.kind = kind → step.part = part → input = true → asserted = false →
        ∃ b, exec (.gripperStepEnd x) s = .next (withStale b { a with lc := { a.lc with
          step := some { step with part := after }
          outputs := driven
          stepTimer := some { started := a.timebase, length := s.re.loaderSettings.stepTimeout * 1000 } } })
      (goesOn .get .jawOpening x.lines.jawOpen .extending x.lines.extended extending
        ∧ goesOn .get .extending x.lines.extended .jawClosing x.lines.gripped { out with jawOpen := false, jawClose := true }
        ∧ goesOn .get .jawClosing (x.lines.gripped && x.lines.cartridgePresent) .retracting x.lines.retracted retracting
        ∧ goesOn .put .extending x.lines.extended .jawOpening x.lines.jawOpen { out with jawOpen := true, jawClose := false }
        ∧ goesOn .put .jawOpening x.lines.jawOpen .retracting x.lines.retracted retracting)
      ∧ (∀ i : Int, step.kind = .travel → step.part = .retractFirst → x.lines.retracted = true → s.lc.station = some i →
        ∃ b, exec (.gripperStepEnd x) s = .next (withStale b { a with lc := { a.lc with
          step := some { step with part := .moving }
          stepTimer := none
          travelCount := (step.station - i).natAbs
          outputs := { out with motorRun := true, towardHome := decide (step.station < i) }
          markTimer := some { started := a.timebase, length := s.re.loaderSettings.markTimeout * 1000 } } }))
      ∧ (step.kind = .homing → step.part = .retractFirst → x.lines.retracted = true → x.lines.home = false →
        ∃ b, exec (.gripperStepEnd x) s = .next (withStale b { a with lc := { a.lc with
          step := some { step with part := .moving }
          stepTimer := none
          travelCount := 0
          outputs := { out with motorRun := true, towardHome := true }
          markTimer := some { started := a.timebase, length := s.re.loaderSettings.markTimeout * 1000 } } }))
      ∧ ∀ (p : PlaceId) (c : CartId) (y : CartRecord) (i : Int), step.kind = .get → step.part = .retracting →
        x.lines.retracted = true → o.source = some p → p ≠ pickerPlace → s.cd.places[p].state = .occupied c →
        s.cd.records[c] = some y → s.lc.station = some i → s.lc.exchange = none →
        ∃ b, exec (.gripperStepEnd x) s = .next (withStale b { a with
          cd := { s.cd with
            places := placed pickerPlace (.occupied c) (placed p .empty s.cd.places)
            records := s.cd.records.set c (some { y with
              place := pickerPlace, origin := if p.val < 4 then none else y.origin }) }
          lc := { a.lc with
            step := some { kind := .labelRead, station := i, part := .reading }
            stepTimer := none, retryTimer := none, exchanging := true, attempt := 1, received := []
            exchange := some { sent := 0x4C, limit := { started := a.timebase, length := 5000 } } } }))
    ∧ (∀ (p : PlaceId) (c : CartId), s.lc.stepTimer ≠ none → step.kind = .get → step.part = .jawClosing →
      x.lines.gripped = true → x.lines.cartridgePresent = false → o.source = some p → s.cd.places[p].state = .occupied c →
      ∃ t, ended t { s with cd := { s.cd with places := placed p .empty s.cd.places, records := s.cd.records.set c none } }
        (.fault .sourceEmpty))
    ∧ (∀ (p : PlaceId) (c : CartId) (y : CartRecord), s.lc.stepTimer ≠ none → step.kind = .put → step.part = .retracting →
      x.lines.retracted = true → o.target = some p → p ≠ pickerPlace →
      s.cd.places[pickerPlace].state = .occupied c → s.cd.records[c] = some y →
      ∃ t, ended t { s with cd := { s.cd with
        places := placed p (.occupied c) (placed pickerPlace .empty s.cd.places)
        records := s.cd.records.set c (some { y with
          place := p, origin := if o.kind = .mount then o.source else y.origin }) } } .done)
    ∧ (∀ m : Timer, s.lc.stepTimer = some m → m.started + m.length ≤ a.timebase → step.part = .retractFirst →
      (pickerLoaded s ↔ x.lines.cartridgePresent = true) →
      (step.kind = .travel → ∃ t, exec (.stepTimeout x) s = .next t
        ∧ orderEnded a t o rest (.fault .gripTimeout) .idle s.lc.station)
      ∧ (step.kind = .homing → ∃ t, exec (.stepTimeout x) s = .next t
        ∧ orderEnded a t o rest (.fault .gripTimeout) .unhomed none))
    ∧ ∀ (p : PlaceId) (m : Timer), s.lc.stepTimer = some m → m.started + m.length ≤ a.timebase → worksAt step o p →
      p ≠ pickerPlace →
      let left : Directory := { s.cd with
        places := placed p .unknown s.cd.places
        records := match s.cd.places[p].state with
          | .occupied c => s.cd.records.set c none
          | _ => s.cd.records }
      ∃ t cd, pickerSensed x.lines.cartridgePresent left cd ∧ ended t { s with cd := cd } (.fault .gripTimeout)
        ∧ t.lc.outputs.motorRun = false ∧ t.lc.outputs.gripperRetract = true ∧ t.lc.outputs.gripperExtend = false

/-- The label link. LABEL_EXCHANGE: status READY starts the next exchange, and so does each byte up to the eighth character,
the byte sent being 0; another status but NO_LABEL, a wrong check byte, and EXCHANGE_TIMEOUT once 5 ms have passed make the
attempt unsuccessful: the retry timer runs 20 ms. RETRY_TIMER, once it has run out, begins the next attempt with an exchange
that sends 0x4C. The read ends with the label, absent where a character lies outside 0x20 to 0x7E, at a good check byte, and
with none at status NO_LABEL and at the fifth unsuccessful attempt. The directory takes it. While the directory's post waits it
holds every result, that for a place without a record too, which is deduced, notes/assumptions/17.md. Else a record with
another label takes it, its counts 0 and condition UNSET, and LABEL_CHANGED is posted; one with the same label is left; a place
without a record takes a new one. A GET then travels to its target; an INVENTORY to the next station of its scope, or, at the
last, the order ends DONE and clears the latch of its scope's door if that is CLOSED. That a LABEL_CHANGED comes before the
ORDER_DONE is deduced, notes/assumptions/11.md. An exchange that outlived its read ends with its byte or its 5 ms: the link is
IDLE, or the read that waits for it begins, while the Loader Controller waits on a post too, which is the model's choice,
notes/assumptions/36.md (part of R142 to R145, R153, R155, R157, R160, R161). The model's choice too: that an attempt that has ended leaves no bytes, and an IDLE link shows attempt
0, notes/assumptions/49.md. -/
def Obligations.LabelLinkEventsTaken : Prop :=
  ∀ (s : State) (x : Sample), running s →
    let a := s.observe x
    let exchange (byte : Byte) : Exchange := { sent := byte, limit := { started := a.timebase, length := 5000 } }
    let open' : Prop := ∃ m, s.lc.exchange = some m ∧ m.stopped = false
    let sum (label : Label) : Nat := (label.toList.map fun u => u.toNat).sum % 256
    let unsuccessful (c : Instr) : Prop :=
      (∃ b, c = .labelExchange b x ∧ open' ∧ s.lc.received = [] ∧ b ≠ 1 ∧ b ≠ 2)
        ∨ (∃ b label, c = .labelExchange b x ∧ open' ∧ s.lc.received = 1 :: label.toList ∧ b.toNat ≠ sum label)
        ∨ (c = .exchangeTimeout x ∧ ∃ m : Exchange, s.lc.exchange = some m ∧ m.stopped = false
            ∧ m.limit.started + m.limit.length ≤ a.timebase)
    let reads (c : Instr) (result : Option Label) : Prop :=
      (∃ b label, c = .labelExchange b x ∧ open' ∧ s.lc.received = 1 :: label.toList ∧ b.toNat = sum label
          ∧ ((∀ u ∈ label.toList, 0x20 ≤ u.toNat ∧ u.toNat ≤ 0x7E) → result = some label)
          ∧ ((∃ u ∈ label.toList, u.toNat < 0x20 ∨ 0x7E < u.toNat) → result = none))
        ∨ (c = .labelExchange 2 x ∧ open' ∧ s.lc.received = [] ∧ result = none)
        ∨ (unsuccessful c ∧ 5 ≤ s.lc.attempt ∧ result = none)
    let idle : Loader := { a.lc with received := [], exchange := none, exchanging := false, attempt := 0, retryTimer := none }
    (∀ b, s.lc.exchange = none → ∃ z, exec (.labelExchange b x) s = .next (withStale z a))
    ∧ (open' → s.lc.received = [] →
      ∃ z, exec (.labelExchange 1 x) s = .next (withStale z { a with lc := { a.lc with
        received := [1], exchange := some (exchange 0) } }))
    ∧ (∀ b : Byte, open' → s.lc.received ≠ [] → s.lc.received.length < 9 →
      ∃ z, exec (.labelExchange b x) s = .next (withStale z { a with lc := { a.lc with
        received := s.lc.received ++ [b], exchange := some (exchange 0) } }))
    ∧ (∀ c, unsuccessful c → s.lc.attempt < 5 → ∃ z, exec c s = .next (withStale z { a with lc := { a.lc with
        received := [], exchange := none, retryTimer := some { started := a.timebase, length := 20000 } } }))
    ∧ (∀ m : Timer, s.lc.retryTimer = some m → m.started + m.length ≤ a.timebase →
      ∃ z, exec (.retryTimer x) s = .next (withStale z { a with lc := { a.lc with
        attempt := s.lc.attempt + 1, received := [], exchange := some (exchange 0x4C), retryTimer := none } }))
    ∧ (∀ (m : Exchange) (b : Byte), s.lc.exchange = some m → m.stopped = true →
      let ends (c : Instr) : Prop :=
        ((∀ y, s.lc.step = some y → y.part ≠ .reading) → ∃ z, exec c s = .next (withStale z { a with lc := { a.lc with
          exchange := none, exchanging := false, attempt := 0, received := [] } }))
        ∧ ((∃ y, s.lc.step = some y ∧ y.part = .reading) → ∃ z, exec c s = .next (withStale z { a with lc := { a.lc with
          attempt := s.lc.attempt + 1, received := [], exchange := some (exchange 0x4C), retryTimer := none } }))
      ends (.labelExchange b x)
        ∧ (m.limit.started + m.limit.length ≤ a.timebase → ends (.exchangeTimeout x)))
    ∧ ∀ (c : Instr) (result : Option Label) (o : Order) (rest : List Order) (step : ActiveStep) (p : PlaceId) (i : Int),
      reads c result → s.lc.step = some step → step.part = .reading → s.lc.queue = o :: rest → o.active = true →
      orderFormed o → s.lc.station = some i →
      (step.kind = .labelRead ∧ p = pickerPlace) ∨ (step.kind = .survey ∧ i = p.val) →
      let handed : Loader := { idle with step := some { step with part := .labelHanded } }
      (s.waiting .directory = true → ∃ z, exec c s = .next (withStale z { a with
        lc := handed, cd := { s.cd with held := s.cd.held ++ [.label p result] } }))
      ∧ ∀ (cd : Directory) (reports : List Report), s.waiting .directory = false → labelTakenBy s.cd p result cd reports →
        let taken : State := { a with lc := handed, cd := cd, re := { s.re with backlog := s.re.backlog ++ reports } }
        (∀ q : PlaceId, s.re.hasRoom = true → i ≠ q.val →
          (step.kind = .labelRead ∧ o.target = some q) ∨ (step.kind = .survey ∧ o.scope ≠ none ∧ orderNames s o q ∧ p.val < q.val
            ∧ ∀ r, orderNames s o r → p.val < r.val → q.val ≤ r.val) →
          ∃ z, exec c s = .next (withStale z { taken with lc := travelBegun taken i q }))
        ∧ ∀ scope : Scope, step.kind = .survey → o.scope = some scope → (∀ r, orderNames s o r → r.val ≤ p.val) →
          loaderFree s → roomFor s 2 →
          ∃ t, exec c s = .next t ∧ orderEnded taken t o rest .done .idle (some i)
            ∧ (let cleared (y : Scope) (d : DoorState) : DoorState :=
                if scope = y ∧ d.isOpen = false then { d with latch := false } else d
              t.cd.doorA = cleared .a s.cd.doorA ∧ t.cd.doorB = cleared .b s.cd.doorB
                ∧ t.cd.doorMail = cleared .mail s.cd.doorMail)

/-! ## Encoding and expansion (04, 08) -/

/-- R61: the packed size is ceil(T / 8) + K + 2 × M for T tokens, K literals and M matches, T = K + M; K and the match lengths
make up the chunk; the size is largest, n + ceil(n / 8), when every token is a literal, and a chunk's token stream fits in
18,432 bytes. -/
def Obligations.PackedSizeCounted : Prop :=
  ∀ data : List Byte,
    let tokens := (encodeChunk data).1
    let n := data.length
    let literals := tokens.countP fun t => match t with | .literal _ => true | .copy _ _ => false
    let matches' := tokens.countP fun t => match t with | .literal _ => false | .copy _ _ => true
    (tokenStream tokens).length = (tokens.length + 7) / 8 + literals + 2 * matches'
      ∧ tokens.length = literals + matches'
      ∧ literals + (tokens.map fun t => match t with | .literal _ => 0 | .copy _ l => l).sum = n
      ∧ (tokenStream tokens).length ≤ n + (n + 7) / 8
      ∧ (matches' = 0 → (tokenStream tokens).length = n + (n + 7) / 8)
      ∧ (n ≤ 16384 → (tokenStream tokens).length ≤ 18432)

/-- R66: a match at output position p has a distance of at most p; expanding the tokens of a chunk gives the chunk exactly, with
no byte of the stream missing or left over; and the segment depends only on the chunk's bytes, its raw length and the entry's
tag, sequence and raw check. -/
def Obligations.ExpansionReproducesChunk : Prop :=
  (∀ data : List Byte, 1 ≤ data.length → data.length ≤ 16384 →
    let tokens := (encodeChunk data).1
    (∀ (before after : List Token) (d l : Nat), tokens = before ++ .copy d l :: after →
      1 ≤ d ∧ d ≤ (before.map fun t => match t with | .literal _ => 1 | .copy _ l => l).sum ∧ d ≤ 4096 ∧ 3 ≤ l ∧ l ≤ 18)
    ∧ expandSegment .packed data.length (tokenStream tokens) = { output := data.toArray, fault := none }
    ∧ ∀ e : ChunkEntry, e.rawLength = data.length →
      expandSegment (e.segment data).1.mode (e.segment data).1.rawLength (e.segment data).2
          = { output := data.toArray, fault := none }
        ∧ (e.segment data).2.length = (e.segment data).1.storedLength)
  ∧ ∀ (data : List Byte) (e e' : ChunkEntry), e.rawLength = e'.rawLength → e.tag = e'.tag → e.sequence = e'.sequence →
    e.rawCheck = e'.rawCheck →
    segmentHeaderBytes (e.segment data).1 ++ (e.segment data).2 = segmentHeaderBytes (e'.segment data).1 ++ (e'.segment data).2
end

