-- ==== Sys2Proof/Laws/State.lean ====
section
/-! SUPPORT. One lemma per field for each update of the state: the fields an update leaves alone. -/

namespace Sys2Proof.Laws

open Sys2Proof Sys2Proof.Machine

/-! `State.store` -/

@[simp] theorem store_pending (s : State) (a : Nat) (bs : List Byte) : (State.store s a bs).pending = s.pending := rfl
@[simp] theorem store_resetAsserted (s : State) (a : Nat) (bs : List Byte) : (State.store s a bs).resetAsserted = s.resetAsserted := rfl
@[simp] theorem store_driveCount (s : State) (a : Nat) (bs : List Byte) : (State.store s a bs).driveCount = s.driveCount := rfl
@[simp] theorem store_readData (s : State) (a : Nat) (bs : List Byte) : (State.store s a bs).readData = s.readData := rfl
@[simp] theorem store_timebase (s : State) (a : Nat) (bs : List Byte) : (State.store s a bs).timebase = s.timebase := rfl
@[simp] theorem store_freeCount (s : State) (a : Nat) (bs : List Byte) : (State.store s a bs).freeCount = s.freeCount := rfl
@[simp] theorem store_wd (s : State) (a : Nat) (bs : List Byte) : (State.store s a bs).wd = s.wd := rfl
@[simp] theorem store_re (s : State) (a : Nat) (bs : List Byte) : (State.store s a bs).re = s.re := rfl
@[simp] theorem store_jt (s : State) (a : Nat) (bs : List Byte) : (State.store s a bs).jt = s.jt := rfl
@[simp] theorem store_streams (s : State) (a : Nat) (bs : List Byte) : (State.store s a bs).streams = s.streams := rfl
@[simp] theorem store_ce (s : State) (a : Nat) (bs : List Byte) : (State.store s a bs).ce = s.ce := rfl
@[simp] theorem store_lanes (s : State) (a : Nat) (bs : List Byte) : (State.store s a bs).lanes = s.lanes := rfl
@[simp] theorem store_sc (s : State) (a : Nat) (bs : List Byte) : (State.store s a bs).sc = s.sc := rfl
@[simp] theorem store_framers (s : State) (a : Nat) (bs : List Byte) : (State.store s a bs).framers = s.framers := rfl
@[simp] theorem store_de (s : State) (a : Nat) (bs : List Byte) : (State.store s a bs).de = s.de := rfl
@[simp] theorem store_cd (s : State) (a : Nat) (bs : List Byte) : (State.store s a bs).cd = s.cd := rfl
@[simp] theorem store_lc (s : State) (a : Nat) (bs : List Byte) : (State.store s a bs).lc = s.lc := rfl

/-! `State.modLane` -/

@[simp] theorem modLane_pending (s : State) (n : LaneId) (f : Lane → Lane) : (State.modLane s n f).pending = s.pending := rfl
@[simp] theorem modLane_resetAsserted (s : State) (n : LaneId) (f : Lane → Lane) : (State.modLane s n f).resetAsserted = s.resetAsserted := rfl
@[simp] theorem modLane_driveCount (s : State) (n : LaneId) (f : Lane → Lane) : (State.modLane s n f).driveCount = s.driveCount := rfl
@[simp] theorem modLane_readData (s : State) (n : LaneId) (f : Lane → Lane) : (State.modLane s n f).readData = s.readData := rfl
@[simp] theorem modLane_timebase (s : State) (n : LaneId) (f : Lane → Lane) : (State.modLane s n f).timebase = s.timebase := rfl
@[simp] theorem modLane_freeCount (s : State) (n : LaneId) (f : Lane → Lane) : (State.modLane s n f).freeCount = s.freeCount := rfl
@[simp] theorem modLane_mem (s : State) (n : LaneId) (f : Lane → Lane) : (State.modLane s n f).mem = s.mem := rfl
@[simp] theorem modLane_wd (s : State) (n : LaneId) (f : Lane → Lane) : (State.modLane s n f).wd = s.wd := rfl
@[simp] theorem modLane_re (s : State) (n : LaneId) (f : Lane → Lane) : (State.modLane s n f).re = s.re := rfl
@[simp] theorem modLane_jt (s : State) (n : LaneId) (f : Lane → Lane) : (State.modLane s n f).jt = s.jt := rfl
@[simp] theorem modLane_streams (s : State) (n : LaneId) (f : Lane → Lane) : (State.modLane s n f).streams = s.streams := rfl
@[simp] theorem modLane_ce (s : State) (n : LaneId) (f : Lane → Lane) : (State.modLane s n f).ce = s.ce := rfl
@[simp] theorem modLane_sc (s : State) (n : LaneId) (f : Lane → Lane) : (State.modLane s n f).sc = s.sc := rfl
@[simp] theorem modLane_framers (s : State) (n : LaneId) (f : Lane → Lane) : (State.modLane s n f).framers = s.framers := rfl
@[simp] theorem modLane_de (s : State) (n : LaneId) (f : Lane → Lane) : (State.modLane s n f).de = s.de := rfl
@[simp] theorem modLane_cd (s : State) (n : LaneId) (f : Lane → Lane) : (State.modLane s n f).cd = s.cd := rfl
@[simp] theorem modLane_lc (s : State) (n : LaneId) (f : Lane → Lane) : (State.modLane s n f).lc = s.lc := rfl

/-! `State.modFramer` -/

@[simp] theorem modFramer_pending (s : State) (n : LaneId) (f : Framer → Framer) : (State.modFramer s n f).pending = s.pending := rfl
@[simp] theorem modFramer_resetAsserted (s : State) (n : LaneId) (f : Framer → Framer) : (State.modFramer s n f).resetAsserted = s.resetAsserted := rfl
@[simp] theorem modFramer_driveCount (s : State) (n : LaneId) (f : Framer → Framer) : (State.modFramer s n f).driveCount = s.driveCount := rfl
@[simp] theorem modFramer_readData (s : State) (n : LaneId) (f : Framer → Framer) : (State.modFramer s n f).readData = s.readData := rfl
@[simp] theorem modFramer_timebase (s : State) (n : LaneId) (f : Framer → Framer) : (State.modFramer s n f).timebase = s.timebase := rfl
@[simp] theorem modFramer_freeCount (s : State) (n : LaneId) (f : Framer → Framer) : (State.modFramer s n f).freeCount = s.freeCount := rfl
@[simp] theorem modFramer_mem (s : State) (n : LaneId) (f : Framer → Framer) : (State.modFramer s n f).mem = s.mem := rfl
@[simp] theorem modFramer_wd (s : State) (n : LaneId) (f : Framer → Framer) : (State.modFramer s n f).wd = s.wd := rfl
@[simp] theorem modFramer_re (s : State) (n : LaneId) (f : Framer → Framer) : (State.modFramer s n f).re = s.re := rfl
@[simp] theorem modFramer_jt (s : State) (n : LaneId) (f : Framer → Framer) : (State.modFramer s n f).jt = s.jt := rfl
@[simp] theorem modFramer_streams (s : State) (n : LaneId) (f : Framer → Framer) : (State.modFramer s n f).streams = s.streams := rfl
@[simp] theorem modFramer_ce (s : State) (n : LaneId) (f : Framer → Framer) : (State.modFramer s n f).ce = s.ce := rfl
@[simp] theorem modFramer_lanes (s : State) (n : LaneId) (f : Framer → Framer) : (State.modFramer s n f).lanes = s.lanes := rfl
@[simp] theorem modFramer_sc (s : State) (n : LaneId) (f : Framer → Framer) : (State.modFramer s n f).sc = s.sc := rfl
@[simp] theorem modFramer_de (s : State) (n : LaneId) (f : Framer → Framer) : (State.modFramer s n f).de = s.de := rfl
@[simp] theorem modFramer_cd (s : State) (n : LaneId) (f : Framer → Framer) : (State.modFramer s n f).cd = s.cd := rfl
@[simp] theorem modFramer_lc (s : State) (n : LaneId) (f : Framer → Framer) : (State.modFramer s n f).lc = s.lc := rfl

/-! `State.modStream` -/

@[simp] theorem modStream_pending (s : State) (i : StreamId) (f : Stream → Stream) : (State.modStream s i f).pending = s.pending := rfl
@[simp] theorem modStream_resetAsserted (s : State) (i : StreamId) (f : Stream → Stream) : (State.modStream s i f).resetAsserted = s.resetAsserted := rfl
@[simp] theorem modStream_driveCount (s : State) (i : StreamId) (f : Stream → Stream) : (State.modStream s i f).driveCount = s.driveCount := rfl
@[simp] theorem modStream_readData (s : State) (i : StreamId) (f : Stream → Stream) : (State.modStream s i f).readData = s.readData := rfl
@[simp] theorem modStream_timebase (s : State) (i : StreamId) (f : Stream → Stream) : (State.modStream s i f).timebase = s.timebase := rfl
@[simp] theorem modStream_freeCount (s : State) (i : StreamId) (f : Stream → Stream) : (State.modStream s i f).freeCount = s.freeCount := rfl
@[simp] theorem modStream_mem (s : State) (i : StreamId) (f : Stream → Stream) : (State.modStream s i f).mem = s.mem := rfl
@[simp] theorem modStream_wd (s : State) (i : StreamId) (f : Stream → Stream) : (State.modStream s i f).wd = s.wd := rfl
@[simp] theorem modStream_re (s : State) (i : StreamId) (f : Stream → Stream) : (State.modStream s i f).re = s.re := rfl
@[simp] theorem modStream_jt (s : State) (i : StreamId) (f : Stream → Stream) : (State.modStream s i f).jt = s.jt := rfl
@[simp] theorem modStream_ce (s : State) (i : StreamId) (f : Stream → Stream) : (State.modStream s i f).ce = s.ce := rfl
@[simp] theorem modStream_lanes (s : State) (i : StreamId) (f : Stream → Stream) : (State.modStream s i f).lanes = s.lanes := rfl
@[simp] theorem modStream_sc (s : State) (i : StreamId) (f : Stream → Stream) : (State.modStream s i f).sc = s.sc := rfl
@[simp] theorem modStream_framers (s : State) (i : StreamId) (f : Stream → Stream) : (State.modStream s i f).framers = s.framers := rfl
@[simp] theorem modStream_de (s : State) (i : StreamId) (f : Stream → Stream) : (State.modStream s i f).de = s.de := rfl
@[simp] theorem modStream_cd (s : State) (i : StreamId) (f : Stream → Stream) : (State.modStream s i f).cd = s.cd := rfl
@[simp] theorem modStream_lc (s : State) (i : StreamId) (f : Stream → Stream) : (State.modStream s i f).lc = s.lc := rfl

/-! `State.modBuffer` -/

@[simp] theorem modBuffer_pending (s : State) (i : StreamId) (b : Fin 2) (f : Buffer → Buffer) : (State.modBuffer s i b f).pending = s.pending := rfl
@[simp] theorem modBuffer_resetAsserted (s : State) (i : StreamId) (b : Fin 2) (f : Buffer → Buffer) : (State.modBuffer s i b f).resetAsserted = s.resetAsserted := rfl
@[simp] theorem modBuffer_driveCount (s : State) (i : StreamId) (b : Fin 2) (f : Buffer → Buffer) : (State.modBuffer s i b f).driveCount = s.driveCount := rfl
@[simp] theorem modBuffer_readData (s : State) (i : StreamId) (b : Fin 2) (f : Buffer → Buffer) : (State.modBuffer s i b f).readData = s.readData := rfl
@[simp] theorem modBuffer_timebase (s : State) (i : StreamId) (b : Fin 2) (f : Buffer → Buffer) : (State.modBuffer s i b f).timebase = s.timebase := rfl
@[simp] theorem modBuffer_freeCount (s : State) (i : StreamId) (b : Fin 2) (f : Buffer → Buffer) : (State.modBuffer s i b f).freeCount = s.freeCount := rfl
@[simp] theorem modBuffer_mem (s : State) (i : StreamId) (b : Fin 2) (f : Buffer → Buffer) : (State.modBuffer s i b f).mem = s.mem := rfl
@[simp] theorem modBuffer_wd (s : State) (i : StreamId) (b : Fin 2) (f : Buffer → Buffer) : (State.modBuffer s i b f).wd = s.wd := rfl
@[simp] theorem modBuffer_re (s : State) (i : StreamId) (b : Fin 2) (f : Buffer → Buffer) : (State.modBuffer s i b f).re = s.re := rfl
@[simp] theorem modBuffer_jt (s : State) (i : StreamId) (b : Fin 2) (f : Buffer → Buffer) : (State.modBuffer s i b f).jt = s.jt := rfl
@[simp] theorem modBuffer_ce (s : State) (i : StreamId) (b : Fin 2) (f : Buffer → Buffer) : (State.modBuffer s i b f).ce = s.ce := rfl
@[simp] theorem modBuffer_lanes (s : State) (i : StreamId) (b : Fin 2) (f : Buffer → Buffer) : (State.modBuffer s i b f).lanes = s.lanes := rfl
@[simp] theorem modBuffer_sc (s : State) (i : StreamId) (b : Fin 2) (f : Buffer → Buffer) : (State.modBuffer s i b f).sc = s.sc := rfl
@[simp] theorem modBuffer_framers (s : State) (i : StreamId) (b : Fin 2) (f : Buffer → Buffer) : (State.modBuffer s i b f).framers = s.framers := rfl
@[simp] theorem modBuffer_de (s : State) (i : StreamId) (b : Fin 2) (f : Buffer → Buffer) : (State.modBuffer s i b f).de = s.de := rfl
@[simp] theorem modBuffer_cd (s : State) (i : StreamId) (b : Fin 2) (f : Buffer → Buffer) : (State.modBuffer s i b f).cd = s.cd := rfl
@[simp] theorem modBuffer_lc (s : State) (i : StreamId) (b : Fin 2) (f : Buffer → Buffer) : (State.modBuffer s i b f).lc = s.lc := rfl

/-! `State.modJob` -/

@[simp] theorem modJob_pending (s : State) (k : SlotId) (f : JobRecord → JobRecord) : (State.modJob s k f).pending = s.pending := rfl
@[simp] theorem modJob_resetAsserted (s : State) (k : SlotId) (f : JobRecord → JobRecord) : (State.modJob s k f).resetAsserted = s.resetAsserted := rfl
@[simp] theorem modJob_driveCount (s : State) (k : SlotId) (f : JobRecord → JobRecord) : (State.modJob s k f).driveCount = s.driveCount := rfl
@[simp] theorem modJob_readData (s : State) (k : SlotId) (f : JobRecord → JobRecord) : (State.modJob s k f).readData = s.readData := rfl
@[simp] theorem modJob_timebase (s : State) (k : SlotId) (f : JobRecord → JobRecord) : (State.modJob s k f).timebase = s.timebase := rfl
@[simp] theorem modJob_freeCount (s : State) (k : SlotId) (f : JobRecord → JobRecord) : (State.modJob s k f).freeCount = s.freeCount := rfl
@[simp] theorem modJob_mem (s : State) (k : SlotId) (f : JobRecord → JobRecord) : (State.modJob s k f).mem = s.mem := rfl
@[simp] theorem modJob_wd (s : State) (k : SlotId) (f : JobRecord → JobRecord) : (State.modJob s k f).wd = s.wd := rfl
@[simp] theorem modJob_re (s : State) (k : SlotId) (f : JobRecord → JobRecord) : (State.modJob s k f).re = s.re := rfl
@[simp] theorem modJob_streams (s : State) (k : SlotId) (f : JobRecord → JobRecord) : (State.modJob s k f).streams = s.streams := rfl
@[simp] theorem modJob_ce (s : State) (k : SlotId) (f : JobRecord → JobRecord) : (State.modJob s k f).ce = s.ce := rfl
@[simp] theorem modJob_lanes (s : State) (k : SlotId) (f : JobRecord → JobRecord) : (State.modJob s k f).lanes = s.lanes := rfl
@[simp] theorem modJob_sc (s : State) (k : SlotId) (f : JobRecord → JobRecord) : (State.modJob s k f).sc = s.sc := rfl
@[simp] theorem modJob_framers (s : State) (k : SlotId) (f : JobRecord → JobRecord) : (State.modJob s k f).framers = s.framers := rfl
@[simp] theorem modJob_de (s : State) (k : SlotId) (f : JobRecord → JobRecord) : (State.modJob s k f).de = s.de := rfl
@[simp] theorem modJob_cd (s : State) (k : SlotId) (f : JobRecord → JobRecord) : (State.modJob s k f).cd = s.cd := rfl
@[simp] theorem modJob_lc (s : State) (k : SlotId) (f : JobRecord → JobRecord) : (State.modJob s k f).lc = s.lc := rfl

/-! `State.modCounters` -/

@[simp] theorem modCounters_pending (s : State) (k : SlotId) (f : Counters → Counters) : (State.modCounters s k f).pending = s.pending := rfl
@[simp] theorem modCounters_resetAsserted (s : State) (k : SlotId) (f : Counters → Counters) : (State.modCounters s k f).resetAsserted = s.resetAsserted := rfl
@[simp] theorem modCounters_driveCount (s : State) (k : SlotId) (f : Counters → Counters) : (State.modCounters s k f).driveCount = s.driveCount := rfl
@[simp] theorem modCounters_readData (s : State) (k : SlotId) (f : Counters → Counters) : (State.modCounters s k f).readData = s.readData := rfl
@[simp] theorem modCounters_timebase (s : State) (k : SlotId) (f : Counters → Counters) : (State.modCounters s k f).timebase = s.timebase := rfl
@[simp] theorem modCounters_freeCount (s : State) (k : SlotId) (f : Counters → Counters) : (State.modCounters s k f).freeCount = s.freeCount := rfl
@[simp] theorem modCounters_mem (s : State) (k : SlotId) (f : Counters → Counters) : (State.modCounters s k f).mem = s.mem := rfl
@[simp] theorem modCounters_wd (s : State) (k : SlotId) (f : Counters → Counters) : (State.modCounters s k f).wd = s.wd := rfl
@[simp] theorem modCounters_re (s : State) (k : SlotId) (f : Counters → Counters) : (State.modCounters s k f).re = s.re := rfl
@[simp] theorem modCounters_streams (s : State) (k : SlotId) (f : Counters → Counters) : (State.modCounters s k f).streams = s.streams := rfl
@[simp] theorem modCounters_ce (s : State) (k : SlotId) (f : Counters → Counters) : (State.modCounters s k f).ce = s.ce := rfl
@[simp] theorem modCounters_lanes (s : State) (k : SlotId) (f : Counters → Counters) : (State.modCounters s k f).lanes = s.lanes := rfl
@[simp] theorem modCounters_sc (s : State) (k : SlotId) (f : Counters → Counters) : (State.modCounters s k f).sc = s.sc := rfl
@[simp] theorem modCounters_framers (s : State) (k : SlotId) (f : Counters → Counters) : (State.modCounters s k f).framers = s.framers := rfl
@[simp] theorem modCounters_de (s : State) (k : SlotId) (f : Counters → Counters) : (State.modCounters s k f).de = s.de := rfl
@[simp] theorem modCounters_cd (s : State) (k : SlotId) (f : Counters → Counters) : (State.modCounters s k f).cd = s.cd := rfl
@[simp] theorem modCounters_lc (s : State) (k : SlotId) (f : Counters → Counters) : (State.modCounters s k f).lc = s.lc := rfl

/-! `State.setStreamAperture` -/

@[simp] theorem setStreamAperture_pending (s : State) (i : StreamId) (a : Aperture) : (State.setStreamAperture s i a).pending = s.pending := rfl
@[simp] theorem setStreamAperture_resetAsserted (s : State) (i : StreamId) (a : Aperture) : (State.setStreamAperture s i a).resetAsserted = s.resetAsserted := rfl
@[simp] theorem setStreamAperture_driveCount (s : State) (i : StreamId) (a : Aperture) : (State.setStreamAperture s i a).driveCount = s.driveCount := rfl
@[simp] theorem setStreamAperture_readData (s : State) (i : StreamId) (a : Aperture) : (State.setStreamAperture s i a).readData = s.readData := rfl
@[simp] theorem setStreamAperture_timebase (s : State) (i : StreamId) (a : Aperture) : (State.setStreamAperture s i a).timebase = s.timebase := rfl
@[simp] theorem setStreamAperture_freeCount (s : State) (i : StreamId) (a : Aperture) : (State.setStreamAperture s i a).freeCount = s.freeCount := rfl
@[simp] theorem setStreamAperture_mem (s : State) (i : StreamId) (a : Aperture) : (State.setStreamAperture s i a).mem = s.mem := rfl
@[simp] theorem setStreamAperture_re (s : State) (i : StreamId) (a : Aperture) : (State.setStreamAperture s i a).re = s.re := rfl
@[simp] theorem setStreamAperture_jt (s : State) (i : StreamId) (a : Aperture) : (State.setStreamAperture s i a).jt = s.jt := rfl
@[simp] theorem setStreamAperture_streams (s : State) (i : StreamId) (a : Aperture) : (State.setStreamAperture s i a).streams = s.streams := rfl
@[simp] theorem setStreamAperture_ce (s : State) (i : StreamId) (a : Aperture) : (State.setStreamAperture s i a).ce = s.ce := rfl
@[simp] theorem setStreamAperture_lanes (s : State) (i : StreamId) (a : Aperture) : (State.setStreamAperture s i a).lanes = s.lanes := rfl
@[simp] theorem setStreamAperture_sc (s : State) (i : StreamId) (a : Aperture) : (State.setStreamAperture s i a).sc = s.sc := rfl
@[simp] theorem setStreamAperture_framers (s : State) (i : StreamId) (a : Aperture) : (State.setStreamAperture s i a).framers = s.framers := rfl
@[simp] theorem setStreamAperture_de (s : State) (i : StreamId) (a : Aperture) : (State.setStreamAperture s i a).de = s.de := rfl
@[simp] theorem setStreamAperture_cd (s : State) (i : StreamId) (a : Aperture) : (State.setStreamAperture s i a).cd = s.cd := rfl
@[simp] theorem setStreamAperture_lc (s : State) (i : StreamId) (a : Aperture) : (State.setStreamAperture s i a).lc = s.lc := rfl

/-! `State.setRingAperture` -/

@[simp] theorem setRingAperture_pending (s : State) (n : LaneId) (a : Aperture) : (State.setRingAperture s n a).pending = s.pending := rfl
@[simp] theorem setRingAperture_resetAsserted (s : State) (n : LaneId) (a : Aperture) : (State.setRingAperture s n a).resetAsserted = s.resetAsserted := rfl
@[simp] theorem setRingAperture_driveCount (s : State) (n : LaneId) (a : Aperture) : (State.setRingAperture s n a).driveCount = s.driveCount := rfl
@[simp] theorem setRingAperture_readData (s : State) (n : LaneId) (a : Aperture) : (State.setRingAperture s n a).readData = s.readData := rfl
@[simp] theorem setRingAperture_timebase (s : State) (n : LaneId) (a : Aperture) : (State.setRingAperture s n a).timebase = s.timebase := rfl
@[simp] theorem setRingAperture_freeCount (s : State) (n : LaneId) (a : Aperture) : (State.setRingAperture s n a).freeCount = s.freeCount := rfl
@[simp] theorem setRingAperture_mem (s : State) (n : LaneId) (a : Aperture) : (State.setRingAperture s n a).mem = s.mem := rfl
@[simp] theorem setRingAperture_re (s : State) (n : LaneId) (a : Aperture) : (State.setRingAperture s n a).re = s.re := rfl
@[simp] theorem setRingAperture_jt (s : State) (n : LaneId) (a : Aperture) : (State.setRingAperture s n a).jt = s.jt := rfl
@[simp] theorem setRingAperture_streams (s : State) (n : LaneId) (a : Aperture) : (State.setRingAperture s n a).streams = s.streams := rfl
@[simp] theorem setRingAperture_ce (s : State) (n : LaneId) (a : Aperture) : (State.setRingAperture s n a).ce = s.ce := rfl
@[simp] theorem setRingAperture_lanes (s : State) (n : LaneId) (a : Aperture) : (State.setRingAperture s n a).lanes = s.lanes := rfl
@[simp] theorem setRingAperture_sc (s : State) (n : LaneId) (a : Aperture) : (State.setRingAperture s n a).sc = s.sc := rfl
@[simp] theorem setRingAperture_framers (s : State) (n : LaneId) (a : Aperture) : (State.setRingAperture s n a).framers = s.framers := rfl
@[simp] theorem setRingAperture_de (s : State) (n : LaneId) (a : Aperture) : (State.setRingAperture s n a).de = s.de := rfl
@[simp] theorem setRingAperture_cd (s : State) (n : LaneId) (a : Aperture) : (State.setRingAperture s n a).cd = s.cd := rfl
@[simp] theorem setRingAperture_lc (s : State) (n : LaneId) (a : Aperture) : (State.setRingAperture s n a).lc = s.lc := rfl

/-! `State.modRestore` -/

@[simp] theorem modRestore_pending (s : State) (k : SlotId) (f : RestoreSlot → RestoreSlot) : (State.modRestore s k f).pending = s.pending := rfl
@[simp] theorem modRestore_resetAsserted (s : State) (k : SlotId) (f : RestoreSlot → RestoreSlot) : (State.modRestore s k f).resetAsserted = s.resetAsserted := rfl
@[simp] theorem modRestore_driveCount (s : State) (k : SlotId) (f : RestoreSlot → RestoreSlot) : (State.modRestore s k f).driveCount = s.driveCount := rfl
@[simp] theorem modRestore_readData (s : State) (k : SlotId) (f : RestoreSlot → RestoreSlot) : (State.modRestore s k f).readData = s.readData := rfl
@[simp] theorem modRestore_timebase (s : State) (k : SlotId) (f : RestoreSlot → RestoreSlot) : (State.modRestore s k f).timebase = s.timebase := rfl
@[simp] theorem modRestore_freeCount (s : State) (k : SlotId) (f : RestoreSlot → RestoreSlot) : (State.modRestore s k f).freeCount = s.freeCount := rfl
@[simp] theorem modRestore_mem (s : State) (k : SlotId) (f : RestoreSlot → RestoreSlot) : (State.modRestore s k f).mem = s.mem := rfl
@[simp] theorem modRestore_wd (s : State) (k : SlotId) (f : RestoreSlot → RestoreSlot) : (State.modRestore s k f).wd = s.wd := rfl
@[simp] theorem modRestore_re (s : State) (k : SlotId) (f : RestoreSlot → RestoreSlot) : (State.modRestore s k f).re = s.re := rfl
@[simp] theorem modRestore_jt (s : State) (k : SlotId) (f : RestoreSlot → RestoreSlot) : (State.modRestore s k f).jt = s.jt := rfl
@[simp] theorem modRestore_streams (s : State) (k : SlotId) (f : RestoreSlot → RestoreSlot) : (State.modRestore s k f).streams = s.streams := rfl
@[simp] theorem modRestore_ce (s : State) (k : SlotId) (f : RestoreSlot → RestoreSlot) : (State.modRestore s k f).ce = s.ce := rfl
@[simp] theorem modRestore_lanes (s : State) (k : SlotId) (f : RestoreSlot → RestoreSlot) : (State.modRestore s k f).lanes = s.lanes := rfl
@[simp] theorem modRestore_sc (s : State) (k : SlotId) (f : RestoreSlot → RestoreSlot) : (State.modRestore s k f).sc = s.sc := rfl
@[simp] theorem modRestore_framers (s : State) (k : SlotId) (f : RestoreSlot → RestoreSlot) : (State.modRestore s k f).framers = s.framers := rfl
@[simp] theorem modRestore_cd (s : State) (k : SlotId) (f : RestoreSlot → RestoreSlot) : (State.modRestore s k f).cd = s.cd := rfl
@[simp] theorem modRestore_lc (s : State) (k : SlotId) (f : RestoreSlot → RestoreSlot) : (State.modRestore s k f).lc = s.lc := rfl

/-! `State.modCart` -/

@[simp] theorem modCart_pending (s : State) (c : CartId) (f : CartRecord → CartRecord) : (State.modCart s c f).pending = s.pending := rfl
@[simp] theorem modCart_resetAsserted (s : State) (c : CartId) (f : CartRecord → CartRecord) : (State.modCart s c f).resetAsserted = s.resetAsserted := rfl
@[simp] theorem modCart_driveCount (s : State) (c : CartId) (f : CartRecord → CartRecord) : (State.modCart s c f).driveCount = s.driveCount := rfl
@[simp] theorem modCart_readData (s : State) (c : CartId) (f : CartRecord → CartRecord) : (State.modCart s c f).readData = s.readData := rfl
@[simp] theorem modCart_timebase (s : State) (c : CartId) (f : CartRecord → CartRecord) : (State.modCart s c f).timebase = s.timebase := rfl
@[simp] theorem modCart_freeCount (s : State) (c : CartId) (f : CartRecord → CartRecord) : (State.modCart s c f).freeCount = s.freeCount := rfl
@[simp] theorem modCart_mem (s : State) (c : CartId) (f : CartRecord → CartRecord) : (State.modCart s c f).mem = s.mem := rfl
@[simp] theorem modCart_wd (s : State) (c : CartId) (f : CartRecord → CartRecord) : (State.modCart s c f).wd = s.wd := rfl
@[simp] theorem modCart_re (s : State) (c : CartId) (f : CartRecord → CartRecord) : (State.modCart s c f).re = s.re := rfl
@[simp] theorem modCart_jt (s : State) (c : CartId) (f : CartRecord → CartRecord) : (State.modCart s c f).jt = s.jt := rfl
@[simp] theorem modCart_streams (s : State) (c : CartId) (f : CartRecord → CartRecord) : (State.modCart s c f).streams = s.streams := rfl
@[simp] theorem modCart_ce (s : State) (c : CartId) (f : CartRecord → CartRecord) : (State.modCart s c f).ce = s.ce := rfl
@[simp] theorem modCart_lanes (s : State) (c : CartId) (f : CartRecord → CartRecord) : (State.modCart s c f).lanes = s.lanes := rfl
@[simp] theorem modCart_sc (s : State) (c : CartId) (f : CartRecord → CartRecord) : (State.modCart s c f).sc = s.sc := rfl
@[simp] theorem modCart_framers (s : State) (c : CartId) (f : CartRecord → CartRecord) : (State.modCart s c f).framers = s.framers := rfl
@[simp] theorem modCart_de (s : State) (c : CartId) (f : CartRecord → CartRecord) : (State.modCart s c f).de = s.de := rfl
@[simp] theorem modCart_lc (s : State) (c : CartId) (f : CartRecord → CartRecord) : (State.modCart s c f).lc = s.lc := rfl

/-! `State.observeTime` -/

@[simp] theorem observeTime_pending (s : State) (t : Nat) : (State.observeTime s t).pending = s.pending := rfl
@[simp] theorem observeTime_resetAsserted (s : State) (t : Nat) : (State.observeTime s t).resetAsserted = s.resetAsserted := rfl
@[simp] theorem observeTime_driveCount (s : State) (t : Nat) : (State.observeTime s t).driveCount = s.driveCount := rfl
@[simp] theorem observeTime_readData (s : State) (t : Nat) : (State.observeTime s t).readData = s.readData := rfl
@[simp] theorem observeTime_freeCount (s : State) (t : Nat) : (State.observeTime s t).freeCount = s.freeCount := rfl
@[simp] theorem observeTime_mem (s : State) (t : Nat) : (State.observeTime s t).mem = s.mem := rfl
@[simp] theorem observeTime_wd (s : State) (t : Nat) : (State.observeTime s t).wd = s.wd := rfl
@[simp] theorem observeTime_re (s : State) (t : Nat) : (State.observeTime s t).re = s.re := rfl
@[simp] theorem observeTime_jt (s : State) (t : Nat) : (State.observeTime s t).jt = s.jt := rfl
@[simp] theorem observeTime_streams (s : State) (t : Nat) : (State.observeTime s t).streams = s.streams := rfl
@[simp] theorem observeTime_ce (s : State) (t : Nat) : (State.observeTime s t).ce = s.ce := rfl
@[simp] theorem observeTime_lanes (s : State) (t : Nat) : (State.observeTime s t).lanes = s.lanes := rfl
@[simp] theorem observeTime_sc (s : State) (t : Nat) : (State.observeTime s t).sc = s.sc := rfl
@[simp] theorem observeTime_framers (s : State) (t : Nat) : (State.observeTime s t).framers = s.framers := rfl
@[simp] theorem observeTime_de (s : State) (t : Nat) : (State.observeTime s t).de = s.de := rfl
@[simp] theorem observeTime_cd (s : State) (t : Nat) : (State.observeTime s t).cd = s.cd := rfl
@[simp] theorem observeTime_lc (s : State) (t : Nat) : (State.observeTime s t).lc = s.lc := rfl

/-! `State.observe` -/

@[simp] theorem observe_pending (s : State) (x : Sample) : (State.observe s x).pending = s.pending := rfl
@[simp] theorem observe_resetAsserted (s : State) (x : Sample) : (State.observe s x).resetAsserted = s.resetAsserted := rfl
@[simp] theorem observe_driveCount (s : State) (x : Sample) : (State.observe s x).driveCount = s.driveCount := rfl
@[simp] theorem observe_readData (s : State) (x : Sample) : (State.observe s x).readData = s.readData := rfl
@[simp] theorem observe_freeCount (s : State) (x : Sample) : (State.observe s x).freeCount = s.freeCount := rfl
@[simp] theorem observe_mem (s : State) (x : Sample) : (State.observe s x).mem = s.mem := rfl
@[simp] theorem observe_wd (s : State) (x : Sample) : (State.observe s x).wd = s.wd := rfl
@[simp] theorem observe_re (s : State) (x : Sample) : (State.observe s x).re = s.re := rfl
@[simp] theorem observe_jt (s : State) (x : Sample) : (State.observe s x).jt = s.jt := rfl
@[simp] theorem observe_streams (s : State) (x : Sample) : (State.observe s x).streams = s.streams := rfl
@[simp] theorem observe_ce (s : State) (x : Sample) : (State.observe s x).ce = s.ce := rfl
@[simp] theorem observe_lanes (s : State) (x : Sample) : (State.observe s x).lanes = s.lanes := rfl
@[simp] theorem observe_sc (s : State) (x : Sample) : (State.observe s x).sc = s.sc := rfl
@[simp] theorem observe_framers (s : State) (x : Sample) : (State.observe s x).framers = s.framers := rfl
@[simp] theorem observe_de (s : State) (x : Sample) : (State.observe s x).de = s.de := rfl
@[simp] theorem observe_cd (s : State) (x : Sample) : (State.observe s x).cd = s.cd := rfl

/-! `State.freeUsed` -/

@[simp] theorem freeUsed_pending (s : State) : (State.freeUsed s).pending = s.pending := rfl
@[simp] theorem freeUsed_resetAsserted (s : State) : (State.freeUsed s).resetAsserted = s.resetAsserted := rfl
@[simp] theorem freeUsed_driveCount (s : State) : (State.freeUsed s).driveCount = s.driveCount := rfl
@[simp] theorem freeUsed_readData (s : State) : (State.freeUsed s).readData = s.readData := rfl
@[simp] theorem freeUsed_timebase (s : State) : (State.freeUsed s).timebase = s.timebase := rfl
@[simp] theorem freeUsed_mem (s : State) : (State.freeUsed s).mem = s.mem := rfl
@[simp] theorem freeUsed_wd (s : State) : (State.freeUsed s).wd = s.wd := rfl
@[simp] theorem freeUsed_re (s : State) : (State.freeUsed s).re = s.re := rfl
@[simp] theorem freeUsed_jt (s : State) : (State.freeUsed s).jt = s.jt := rfl
@[simp] theorem freeUsed_streams (s : State) : (State.freeUsed s).streams = s.streams := rfl
@[simp] theorem freeUsed_ce (s : State) : (State.freeUsed s).ce = s.ce := rfl
@[simp] theorem freeUsed_lanes (s : State) : (State.freeUsed s).lanes = s.lanes := rfl
@[simp] theorem freeUsed_sc (s : State) : (State.freeUsed s).sc = s.sc := rfl
@[simp] theorem freeUsed_framers (s : State) : (State.freeUsed s).framers = s.framers := rfl
@[simp] theorem freeUsed_de (s : State) : (State.freeUsed s).de = s.de := rfl
@[simp] theorem freeUsed_cd (s : State) : (State.freeUsed s).cd = s.cd := rfl
@[simp] theorem freeUsed_lc (s : State) : (State.freeUsed s).lc = s.lc := rfl

/-! `setPlaceState` -/

@[simp] theorem setPlaceState_pending (p : PlaceId) (x : PlaceState) (s : State) : (setPlaceState p x s).pending = s.pending := rfl
@[simp] theorem setPlaceState_resetAsserted (p : PlaceId) (x : PlaceState) (s : State) : (setPlaceState p x s).resetAsserted = s.resetAsserted := rfl
@[simp] theorem setPlaceState_driveCount (p : PlaceId) (x : PlaceState) (s : State) : (setPlaceState p x s).driveCount = s.driveCount := rfl
@[simp] theorem setPlaceState_readData (p : PlaceId) (x : PlaceState) (s : State) : (setPlaceState p x s).readData = s.readData := rfl
@[simp] theorem setPlaceState_timebase (p : PlaceId) (x : PlaceState) (s : State) : (setPlaceState p x s).timebase = s.timebase := rfl
@[simp] theorem setPlaceState_freeCount (p : PlaceId) (x : PlaceState) (s : State) : (setPlaceState p x s).freeCount = s.freeCount := rfl
@[simp] theorem setPlaceState_mem (p : PlaceId) (x : PlaceState) (s : State) : (setPlaceState p x s).mem = s.mem := rfl
@[simp] theorem setPlaceState_wd (p : PlaceId) (x : PlaceState) (s : State) : (setPlaceState p x s).wd = s.wd := rfl
@[simp] theorem setPlaceState_re (p : PlaceId) (x : PlaceState) (s : State) : (setPlaceState p x s).re = s.re := rfl
@[simp] theorem setPlaceState_jt (p : PlaceId) (x : PlaceState) (s : State) : (setPlaceState p x s).jt = s.jt := rfl
@[simp] theorem setPlaceState_streams (p : PlaceId) (x : PlaceState) (s : State) : (setPlaceState p x s).streams = s.streams := rfl
@[simp] theorem setPlaceState_ce (p : PlaceId) (x : PlaceState) (s : State) : (setPlaceState p x s).ce = s.ce := rfl
@[simp] theorem setPlaceState_lanes (p : PlaceId) (x : PlaceState) (s : State) : (setPlaceState p x s).lanes = s.lanes := rfl
@[simp] theorem setPlaceState_sc (p : PlaceId) (x : PlaceState) (s : State) : (setPlaceState p x s).sc = s.sc := rfl
@[simp] theorem setPlaceState_framers (p : PlaceId) (x : PlaceState) (s : State) : (setPlaceState p x s).framers = s.framers := rfl
@[simp] theorem setPlaceState_de (p : PlaceId) (x : PlaceState) (s : State) : (setPlaceState p x s).de = s.de := rfl
@[simp] theorem setPlaceState_lc (p : PlaceId) (x : PlaceState) (s : State) : (setPlaceState p x s).lc = s.lc := rfl

/-! `setPending` -/

@[simp] theorem setPending_pending (p : PlaceId) (t : Option Byte) (s : State) : (setPending p t s).pending = s.pending := rfl
@[simp] theorem setPending_resetAsserted (p : PlaceId) (t : Option Byte) (s : State) : (setPending p t s).resetAsserted = s.resetAsserted := rfl
@[simp] theorem setPending_driveCount (p : PlaceId) (t : Option Byte) (s : State) : (setPending p t s).driveCount = s.driveCount := rfl
@[simp] theorem setPending_readData (p : PlaceId) (t : Option Byte) (s : State) : (setPending p t s).readData = s.readData := rfl
@[simp] theorem setPending_timebase (p : PlaceId) (t : Option Byte) (s : State) : (setPending p t s).timebase = s.timebase := rfl
@[simp] theorem setPending_freeCount (p : PlaceId) (t : Option Byte) (s : State) : (setPending p t s).freeCount = s.freeCount := rfl
@[simp] theorem setPending_mem (p : PlaceId) (t : Option Byte) (s : State) : (setPending p t s).mem = s.mem := rfl
@[simp] theorem setPending_wd (p : PlaceId) (t : Option Byte) (s : State) : (setPending p t s).wd = s.wd := rfl
@[simp] theorem setPending_re (p : PlaceId) (t : Option Byte) (s : State) : (setPending p t s).re = s.re := rfl
@[simp] theorem setPending_jt (p : PlaceId) (t : Option Byte) (s : State) : (setPending p t s).jt = s.jt := rfl
@[simp] theorem setPending_streams (p : PlaceId) (t : Option Byte) (s : State) : (setPending p t s).streams = s.streams := rfl
@[simp] theorem setPending_ce (p : PlaceId) (t : Option Byte) (s : State) : (setPending p t s).ce = s.ce := rfl
@[simp] theorem setPending_lanes (p : PlaceId) (t : Option Byte) (s : State) : (setPending p t s).lanes = s.lanes := rfl
@[simp] theorem setPending_sc (p : PlaceId) (t : Option Byte) (s : State) : (setPending p t s).sc = s.sc := rfl
@[simp] theorem setPending_framers (p : PlaceId) (t : Option Byte) (s : State) : (setPending p t s).framers = s.framers := rfl
@[simp] theorem setPending_de (p : PlaceId) (t : Option Byte) (s : State) : (setPending p t s).de = s.de := rfl
@[simp] theorem setPending_lc (p : PlaceId) (t : Option Byte) (s : State) : (setPending p t s).lc = s.lc := rfl

/-! `modLoader` -/

@[simp] theorem modLoader_pending (f : Loader → Loader) (s : State) : (modLoader f s).pending = s.pending := rfl
@[simp] theorem modLoader_resetAsserted (f : Loader → Loader) (s : State) : (modLoader f s).resetAsserted = s.resetAsserted := rfl
@[simp] theorem modLoader_driveCount (f : Loader → Loader) (s : State) : (modLoader f s).driveCount = s.driveCount := rfl
@[simp] theorem modLoader_readData (f : Loader → Loader) (s : State) : (modLoader f s).readData = s.readData := rfl
@[simp] theorem modLoader_timebase (f : Loader → Loader) (s : State) : (modLoader f s).timebase = s.timebase := rfl
@[simp] theorem modLoader_freeCount (f : Loader → Loader) (s : State) : (modLoader f s).freeCount = s.freeCount := rfl
@[simp] theorem modLoader_mem (f : Loader → Loader) (s : State) : (modLoader f s).mem = s.mem := rfl
@[simp] theorem modLoader_wd (f : Loader → Loader) (s : State) : (modLoader f s).wd = s.wd := rfl
@[simp] theorem modLoader_re (f : Loader → Loader) (s : State) : (modLoader f s).re = s.re := rfl
@[simp] theorem modLoader_jt (f : Loader → Loader) (s : State) : (modLoader f s).jt = s.jt := rfl
@[simp] theorem modLoader_streams (f : Loader → Loader) (s : State) : (modLoader f s).streams = s.streams := rfl
@[simp] theorem modLoader_ce (f : Loader → Loader) (s : State) : (modLoader f s).ce = s.ce := rfl
@[simp] theorem modLoader_lanes (f : Loader → Loader) (s : State) : (modLoader f s).lanes = s.lanes := rfl
@[simp] theorem modLoader_sc (f : Loader → Loader) (s : State) : (modLoader f s).sc = s.sc := rfl
@[simp] theorem modLoader_framers (f : Loader → Loader) (s : State) : (modLoader f s).framers = s.framers := rfl
@[simp] theorem modLoader_de (f : Loader → Loader) (s : State) : (modLoader f s).de = s.de := rfl
@[simp] theorem modLoader_cd (f : Loader → Loader) (s : State) : (modLoader f s).cd = s.cd := rfl

/-! `recomputeLimit` -/

@[simp] theorem recomputeLimit_pending (i : StreamId) (s : State) : (recomputeLimit i s).pending = s.pending := rfl
@[simp] theorem recomputeLimit_resetAsserted (i : StreamId) (s : State) : (recomputeLimit i s).resetAsserted = s.resetAsserted := rfl
@[simp] theorem recomputeLimit_driveCount (i : StreamId) (s : State) : (recomputeLimit i s).driveCount = s.driveCount := rfl
@[simp] theorem recomputeLimit_readData (i : StreamId) (s : State) : (recomputeLimit i s).readData = s.readData := rfl
@[simp] theorem recomputeLimit_timebase (i : StreamId) (s : State) : (recomputeLimit i s).timebase = s.timebase := rfl
@[simp] theorem recomputeLimit_freeCount (i : StreamId) (s : State) : (recomputeLimit i s).freeCount = s.freeCount := rfl
@[simp] theorem recomputeLimit_mem (i : StreamId) (s : State) : (recomputeLimit i s).mem = s.mem := rfl
@[simp] theorem recomputeLimit_re (i : StreamId) (s : State) : (recomputeLimit i s).re = s.re := rfl
@[simp] theorem recomputeLimit_jt (i : StreamId) (s : State) : (recomputeLimit i s).jt = s.jt := rfl
@[simp] theorem recomputeLimit_streams (i : StreamId) (s : State) : (recomputeLimit i s).streams = s.streams := rfl
@[simp] theorem recomputeLimit_ce (i : StreamId) (s : State) : (recomputeLimit i s).ce = s.ce := rfl
@[simp] theorem recomputeLimit_lanes (i : StreamId) (s : State) : (recomputeLimit i s).lanes = s.lanes := rfl
@[simp] theorem recomputeLimit_sc (i : StreamId) (s : State) : (recomputeLimit i s).sc = s.sc := rfl
@[simp] theorem recomputeLimit_framers (i : StreamId) (s : State) : (recomputeLimit i s).framers = s.framers := rfl
@[simp] theorem recomputeLimit_de (i : StreamId) (s : State) : (recomputeLimit i s).de = s.de := rfl
@[simp] theorem recomputeLimit_cd (i : StreamId) (s : State) : (recomputeLimit i s).cd = s.cd := rfl
@[simp] theorem recomputeLimit_lc (i : StreamId) (s : State) : (recomputeLimit i s).lc = s.lc := rfl

/-! `leaveHolding` -/

@[simp] theorem leaveHolding_pending (n : LaneId) (s : State) : (leaveHolding n s).pending = s.pending := rfl
@[simp] theorem leaveHolding_resetAsserted (n : LaneId) (s : State) : (leaveHolding n s).resetAsserted = s.resetAsserted := rfl
@[simp] theorem leaveHolding_driveCount (n : LaneId) (s : State) : (leaveHolding n s).driveCount = s.driveCount := rfl
@[simp] theorem leaveHolding_readData (n : LaneId) (s : State) : (leaveHolding n s).readData = s.readData := rfl
@[simp] theorem leaveHolding_timebase (n : LaneId) (s : State) : (leaveHolding n s).timebase = s.timebase := rfl
@[simp] theorem leaveHolding_freeCount (n : LaneId) (s : State) : (leaveHolding n s).freeCount = s.freeCount := rfl
@[simp] theorem leaveHolding_mem (n : LaneId) (s : State) : (leaveHolding n s).mem = s.mem := rfl
@[simp] theorem leaveHolding_wd (n : LaneId) (s : State) : (leaveHolding n s).wd = s.wd := rfl
@[simp] theorem leaveHolding_re (n : LaneId) (s : State) : (leaveHolding n s).re = s.re := rfl
@[simp] theorem leaveHolding_jt (n : LaneId) (s : State) : (leaveHolding n s).jt = s.jt := rfl
@[simp] theorem leaveHolding_streams (n : LaneId) (s : State) : (leaveHolding n s).streams = s.streams := rfl
@[simp] theorem leaveHolding_ce (n : LaneId) (s : State) : (leaveHolding n s).ce = s.ce := rfl
@[simp] theorem leaveHolding_lanes (n : LaneId) (s : State) : (leaveHolding n s).lanes = s.lanes := rfl
@[simp] theorem leaveHolding_sc (n : LaneId) (s : State) : (leaveHolding n s).sc = s.sc := rfl
@[simp] theorem leaveHolding_framers (n : LaneId) (s : State) : (leaveHolding n s).framers = s.framers := rfl
@[simp] theorem leaveHolding_cd (n : LaneId) (s : State) : (leaveHolding n s).cd = s.cd := rfl
@[simp] theorem leaveHolding_lc (n : LaneId) (s : State) : (leaveHolding n s).lc = s.lc := rfl

/-! `openSlot` -/

@[simp] theorem openSlot_pending (n : LaneId) (s : State) : (openSlot n s).pending = s.pending := rfl
@[simp] theorem openSlot_resetAsserted (n : LaneId) (s : State) : (openSlot n s).resetAsserted = s.resetAsserted := rfl
@[simp] theorem openSlot_driveCount (n : LaneId) (s : State) : (openSlot n s).driveCount = s.driveCount := rfl
@[simp] theorem openSlot_readData (n : LaneId) (s : State) : (openSlot n s).readData = s.readData := rfl
@[simp] theorem openSlot_timebase (n : LaneId) (s : State) : (openSlot n s).timebase = s.timebase := rfl
@[simp] theorem openSlot_freeCount (n : LaneId) (s : State) : (openSlot n s).freeCount = s.freeCount := rfl
@[simp] theorem openSlot_mem (n : LaneId) (s : State) : (openSlot n s).mem = s.mem := rfl
@[simp] theorem openSlot_wd (n : LaneId) (s : State) : (openSlot n s).wd = s.wd := rfl
@[simp] theorem openSlot_re (n : LaneId) (s : State) : (openSlot n s).re = s.re := rfl
@[simp] theorem openSlot_jt (n : LaneId) (s : State) : (openSlot n s).jt = s.jt := rfl
@[simp] theorem openSlot_streams (n : LaneId) (s : State) : (openSlot n s).streams = s.streams := rfl
@[simp] theorem openSlot_ce (n : LaneId) (s : State) : (openSlot n s).ce = s.ce := rfl
@[simp] theorem openSlot_sc (n : LaneId) (s : State) : (openSlot n s).sc = s.sc := rfl
@[simp] theorem openSlot_framers (n : LaneId) (s : State) : (openSlot n s).framers = s.framers := rfl
@[simp] theorem openSlot_de (n : LaneId) (s : State) : (openSlot n s).de = s.de := rfl
@[simp] theorem openSlot_cd (n : LaneId) (s : State) : (openSlot n s).cd = s.cd := rfl
@[simp] theorem openSlot_lc (n : LaneId) (s : State) : (openSlot n s).lc = s.lc := rfl

/-! `markStale` -/

@[simp] theorem markStale_pending (u s : State) : (markStale u s).pending = s.pending := rfl
@[simp] theorem markStale_resetAsserted (u s : State) : (markStale u s).resetAsserted = s.resetAsserted := rfl
@[simp] theorem markStale_driveCount (u s : State) : (markStale u s).driveCount = s.driveCount := rfl
@[simp] theorem markStale_readData (u s : State) : (markStale u s).readData = s.readData := rfl
@[simp] theorem markStale_timebase (u s : State) : (markStale u s).timebase = s.timebase := rfl
@[simp] theorem markStale_freeCount (u s : State) : (markStale u s).freeCount = s.freeCount := rfl
@[simp] theorem markStale_mem (u s : State) : (markStale u s).mem = s.mem := rfl
@[simp] theorem markStale_wd (u s : State) : (markStale u s).wd = s.wd := rfl
@[simp] theorem markStale_jt (u s : State) : (markStale u s).jt = s.jt := rfl
@[simp] theorem markStale_streams (u s : State) : (markStale u s).streams = s.streams := rfl
@[simp] theorem markStale_ce (u s : State) : (markStale u s).ce = s.ce := rfl
@[simp] theorem markStale_lanes (u s : State) : (markStale u s).lanes = s.lanes := rfl
@[simp] theorem markStale_sc (u s : State) : (markStale u s).sc = s.sc := rfl
@[simp] theorem markStale_framers (u s : State) : (markStale u s).framers = s.framers := rfl
@[simp] theorem markStale_de (u s : State) : (markStale u s).de = s.de := rfl
@[simp] theorem markStale_cd (u s : State) : (markStale u s).cd = s.cd := rfl
@[simp] theorem markStale_lc (u s : State) : (markStale u s).lc = s.lc := rfl

/-! `answer` -/

@[simp] theorem answer_pending (c : Code) (r : List Byte) (s : State) : (answer c r s).pending = s.pending := rfl
@[simp] theorem answer_resetAsserted (c : Code) (r : List Byte) (s : State) : (answer c r s).resetAsserted = s.resetAsserted := rfl
@[simp] theorem answer_driveCount (c : Code) (r : List Byte) (s : State) : (answer c r s).driveCount = s.driveCount := rfl
@[simp] theorem answer_readData (c : Code) (r : List Byte) (s : State) : (answer c r s).readData = s.readData := rfl
@[simp] theorem answer_timebase (c : Code) (r : List Byte) (s : State) : (answer c r s).timebase = s.timebase := rfl
@[simp] theorem answer_freeCount (c : Code) (r : List Byte) (s : State) : (answer c r s).freeCount = s.freeCount := rfl
@[simp] theorem answer_mem (c : Code) (r : List Byte) (s : State) : (answer c r s).mem = s.mem := rfl
@[simp] theorem answer_wd (c : Code) (r : List Byte) (s : State) : (answer c r s).wd = s.wd := rfl
@[simp] theorem answer_jt (c : Code) (r : List Byte) (s : State) : (answer c r s).jt = s.jt := rfl
@[simp] theorem answer_streams (c : Code) (r : List Byte) (s : State) : (answer c r s).streams = s.streams := rfl
@[simp] theorem answer_ce (c : Code) (r : List Byte) (s : State) : (answer c r s).ce = s.ce := rfl
@[simp] theorem answer_lanes (c : Code) (r : List Byte) (s : State) : (answer c r s).lanes = s.lanes := rfl
@[simp] theorem answer_sc (c : Code) (r : List Byte) (s : State) : (answer c r s).sc = s.sc := rfl
@[simp] theorem answer_framers (c : Code) (r : List Byte) (s : State) : (answer c r s).framers = s.framers := rfl
@[simp] theorem answer_de (c : Code) (r : List Byte) (s : State) : (answer c r s).de = s.de := rfl
@[simp] theorem answer_cd (c : Code) (r : List Byte) (s : State) : (answer c r s).cd = s.cd := rfl
@[simp] theorem answer_lc (c : Code) (r : List Byte) (s : State) : (answer c r s).lc = s.lc := rfl

/-! `post` -/

@[simp] theorem post_pending (unit : Poster) (r : Report) (s : State) : (post unit r s).pending = s.pending := by unfold post; split <;> rfl
@[simp] theorem post_resetAsserted (unit : Poster) (r : Report) (s : State) : (post unit r s).resetAsserted = s.resetAsserted := by unfold post; split <;> rfl
@[simp] theorem post_driveCount (unit : Poster) (r : Report) (s : State) : (post unit r s).driveCount = s.driveCount := by unfold post; split <;> rfl
@[simp] theorem post_readData (unit : Poster) (r : Report) (s : State) : (post unit r s).readData = s.readData := by unfold post; split <;> rfl
@[simp] theorem post_timebase (unit : Poster) (r : Report) (s : State) : (post unit r s).timebase = s.timebase := by unfold post; split <;> rfl
@[simp] theorem post_freeCount (unit : Poster) (r : Report) (s : State) : (post unit r s).freeCount = s.freeCount := by unfold post; split <;> rfl
@[simp] theorem post_mem (unit : Poster) (r : Report) (s : State) : (post unit r s).mem = s.mem := by unfold post; split <;> rfl
@[simp] theorem post_wd (unit : Poster) (r : Report) (s : State) : (post unit r s).wd = s.wd := by unfold post; split <;> rfl
@[simp] theorem post_jt (unit : Poster) (r : Report) (s : State) : (post unit r s).jt = s.jt := by unfold post; split <;> rfl
@[simp] theorem post_streams (unit : Poster) (r : Report) (s : State) : (post unit r s).streams = s.streams := by unfold post; split <;> rfl
@[simp] theorem post_ce (unit : Poster) (r : Report) (s : State) : (post unit r s).ce = s.ce := by unfold post; split <;> rfl
@[simp] theorem post_lanes (unit : Poster) (r : Report) (s : State) : (post unit r s).lanes = s.lanes := by unfold post; split <;> rfl
@[simp] theorem post_sc (unit : Poster) (r : Report) (s : State) : (post unit r s).sc = s.sc := by unfold post; split <;> rfl
@[simp] theorem post_framers (unit : Poster) (r : Report) (s : State) : (post unit r s).framers = s.framers := by unfold post; split <;> rfl
@[simp] theorem post_de (unit : Poster) (r : Report) (s : State) : (post unit r s).de = s.de := by unfold post; split <;> rfl
@[simp] theorem post_cd (unit : Poster) (r : Report) (s : State) : (post unit r s).cd = s.cd := by unfold post; split <;> rfl
@[simp] theorem post_lc (unit : Poster) (r : Report) (s : State) : (post unit r s).lc = s.lc := by unfold post; split <;> rfl

/-! The changed fields -/

@[simp] theorem store_mem (s : State) (a : Nat) (bs : List Byte) : (s.store a bs).mem = memWrite s.mem a bs := rfl
@[simp] theorem modLane_self (s : State) (n : LaneId) (f : Lane → Lane) : (s.modLane n f).lanes[n] = f s.lanes[n] := by
  simp [State.modLane]
@[simp] theorem modFramer_self (s : State) (n : LaneId) (f : Framer → Framer) : (s.modFramer n f).framers[n] = f s.framers[n] := by
  simp [State.modFramer]
@[simp] theorem modStream_self (s : State) (i : StreamId) (f : Stream → Stream) : (s.modStream i f).streams[i] = f s.streams[i] := by
  simp [State.modStream]
@[simp] theorem modRestore_self (s : State) (k : SlotId) (f : RestoreSlot → RestoreSlot) : (s.modRestore k f).de.slots[k] = f s.de.slots[k] := by
  simp [State.modRestore]
@[simp] theorem modCart_self (s : State) (c : CartId) (f : CartRecord → CartRecord) :
    (s.modCart c f).cd.records[c] = s.cd.records[c].map f := by
  simp [State.modCart]
@[simp] theorem observe_timebase (s : State) (x : Sample) : (s.observe x).timebase = max s.timebase x.now := rfl
@[simp] theorem observe_lines (s : State) (x : Sample) : (s.observe x).lc.lines = x.lines := rfl
@[simp] theorem observeTime_timebase (s : State) (t : Nat) : (s.observeTime t).timebase = max s.timebase t := rfl

end Sys2Proof.Laws
end

