-- ==== Sys2Proof/Laws/Memory.lean ====
section
/-! SUPPORT. Staging memory: a read after a write, and that every memory operation keeps the canonical form. -/

namespace Sys2Proof.Laws

open Sys2Proof Sys2Proof.Machine

/-! ## Reads -/

theorem memRead_append (m n : List Host.Cell) (x : Nat) (h : ∀ c ∈ m, c.1 ≠ x) : memRead (m ++ n) x = memRead n x := by
  induction m with
  | nil => rfl
  | cons c m ih =>
    have hc : c.1 ≠ x := h c (by simp)
    obtain ⟨k, b⟩ := c
    simp only [List.cons_append, memRead]
    rw [if_neg hc, ih fun c hm => h c (by simp [hm])]

theorem memRead_none (m : List Host.Cell) (x : Nat) (h : ∀ c ∈ m, c.1 ≠ x) : memRead m x = unlistedByte := by
  have := memRead_append m [] x h
  simpa [memRead] using this

theorem memRead_filter (m : List Host.Cell) (p : Nat → Bool) (x : Nat) (h : p x = true) :
    memRead (m.filter fun c => p c.1) x = memRead m x := by
  induction m with
  | nil => rfl
  | cons c m ih =>
    obtain ⟨k, b⟩ := c
    by_cases hk : k = x
    · subst hk; simp [h, memRead]
    · by_cases hp : p k = true <;> simp [hp, memRead, hk, ih]

theorem cellsFrom_range (bs : List Byte) (a : Nat) : ∀ c ∈ cellsFrom a bs, a ≤ c.1 ∧ c.1 < a + bs.length := by
  induction bs generalizing a with
  | nil => simp [cellsFrom]
  | cons b bs ih =>
    intro c hc
    by_cases hb : b = unlistedByte
    · rw [cellsFrom, if_pos hb] at hc
      have := ih _ c hc
      simp only [List.length_cons]; omega
    · rw [cellsFrom, if_neg hb, List.mem_cons] at hc
      rcases hc with rfl | hc
      · simp
      · have := ih _ c hc
        simp only [List.length_cons]; omega

theorem memRead_cellsFrom (bs : List Byte) (a i : Nat) (rest : List Host.Cell) (h : i < bs.length)
    (hr : memRead rest (a + i) = unlistedByte) : memRead (cellsFrom a bs ++ rest) (a + i) = bs[i] := by
  induction bs generalizing a i with
  | nil => simp at h
  | cons b bs ih =>
    cases i with
    | zero =>
      by_cases hb : b = unlistedByte
      · rw [cellsFrom, if_pos hb, memRead_append, hr]
        · simp [hb]
        · intro c hc
          have := cellsFrom_range bs (a + 1) c hc
          omega
      · rw [cellsFrom, if_neg hb]; simp [memRead]
    | succ i =>
      have e : a + (i + 1) = (a + 1) + i := by omega
      have h' : i < bs.length := by simpa using h
      have hr' : memRead rest (a + 1 + i) = unlistedByte := by rw [← e]; exact hr
      by_cases hb : b = unlistedByte
      · rw [cellsFrom, if_pos hb, e, ih (a + 1) i h' hr']; simp
      · rw [cellsFrom, if_neg hb, e]
        have : a ≠ a + 1 + i := by omega
        simp only [List.cons_append, memRead, if_neg this]
        rw [ih (a + 1) i h' hr']; simp

/-- A byte that a write covers reads as the byte written. -/
theorem memRead_memWrite_inside (m : List Host.Cell) (a : Nat) (bs : List Byte) (i : Nat) (h : i < bs.length) :
    memRead (memWrite m a bs) (a + i) = bs[i] := by
  rw [memWrite, List.append_assoc, memRead_append, memRead_cellsFrom _ _ _ _ h]
  · apply memRead_none
    intro c hc
    have := (List.mem_filter.1 hc).2
    simp at this
    omega
  · intro c hc
    have := (List.mem_filter.1 hc).2
    simp at this
    omega

/-- A byte that a write does not cover reads as before. -/
theorem memRead_memWrite_outside (m : List Host.Cell) (a : Nat) (bs : List Byte) (x : Nat)
    (h : x < a ∨ a + bs.length ≤ x) : memRead (memWrite m a bs) x = memRead m x := by
  have hc : ∀ c ∈ cellsFrom a bs, c.1 ≠ x := fun c hc => by
    have := cellsFrom_range bs a c hc
    omega
  rcases h with h | h
  · have hf : memRead (m.filter fun c => decide (c.1 < a)) x = memRead m x :=
      memRead_filter m (fun k => decide (k < a)) x (by simpa using h)
    have key : ∀ (l n : List Host.Cell), (∀ c ∈ n, c.1 ≠ x) → memRead (l ++ n) x = memRead l x := by
      intro l n hn
      induction l with
      | nil => exact memRead_none n x hn
      | cons c l ih =>
        obtain ⟨k, b⟩ := c
        simp only [List.cons_append, memRead, ih]
    rw [memWrite, key, key, hf]
    · exact hc
    · intro c hm
      have := (List.mem_filter.1 hm).2
      simp at this
      omega
  · rw [memWrite, List.append_assoc, memRead_append, memRead_append _ _ _ hc]
    · exact memRead_filter m (fun k => decide (a + bs.length ≤ k)) x (by simpa using h)
    · intro c hm
      have := (List.mem_filter.1 hm).2
      simp at this
      omega

/-! ## The canonical form -/

theorem memSorted_mono (m : List Host.Cell) (a b : Nat) (h : a ≤ b) (hm : memSorted b m = true) : memSorted a m = true := by
  cases m with
  | nil => rfl
  | cons c m =>
    simp only [memSorted, Bool.and_eq_true, decide_eq_true_eq] at *
    exact ⟨by omega, hm.2⟩

theorem memSorted_filter (m : List Host.Cell) (p : Host.Cell → Bool) (a : Nat) (h : memSorted a m = true) :
    memSorted a (m.filter p) = true := by
  induction m generalizing a with
  | nil => rfl
  | cons c m ih =>
    simp only [memSorted, Bool.and_eq_true, decide_eq_true_eq] at h
    by_cases hp : p c = true
    · simp only [List.filter_cons, hp, if_true, memSorted, Bool.and_eq_true, decide_eq_true_eq]
      exact ⟨h.1, ih _ h.2⟩
    · simp only [List.filter_cons, hp]
      exact memSorted_mono _ _ _ (by omega) (ih _ h.2)

theorem memSorted_append (l m : List Host.Cell) (a b : Nat) (hl : memSorted a l = true) (hm : memSorted b m = true)
    (hab : a ≤ b) (h : ∀ c ∈ l, c.1 < b) : memSorted a (l ++ m) = true := by
  induction l generalizing a with
  | nil => exact memSorted_mono _ _ _ hab hm
  | cons c l ih =>
    simp only [List.cons_append, memSorted, Bool.and_eq_true, decide_eq_true_eq] at *
    have := h c (by simp)
    exact ⟨hl.1, ih _ hl.2 (by omega) fun d hd => h d (by simp [hd])⟩

theorem memSorted_cellsFrom (bs : List Byte) (a : Nat) : memSorted a (cellsFrom a bs) = true := by
  induction bs generalizing a with
  | nil => rfl
  | cons b bs ih =>
    by_cases hb : b = unlistedByte
    · rw [cellsFrom, if_pos hb]; exact memSorted_mono _ _ _ (by omega) (ih (a + 1))
    · rw [cellsFrom, if_neg hb]; simp [memSorted, ih]

theorem memSorted_filter_above (m : List Host.Cell) (a b : Nat) (h : memSorted a m = true) :
    memSorted b (m.filter fun c => decide (b ≤ c.1)) = true := by
  induction m generalizing a with
  | nil => rfl
  | cons c m ih =>
    simp only [memSorted, Bool.and_eq_true, decide_eq_true_eq] at h
    by_cases hp : b ≤ c.1
    · rw [List.filter_cons_of_pos (by simpa using hp)]
      simp only [memSorted, Bool.and_eq_true, decide_eq_true_eq]
      exact ⟨hp, memSorted_filter _ _ _ h.2⟩
    · rw [List.filter_cons_of_neg (by simpa using hp)]
      exact ih _ h.2

/-- A write keeps the canonical form. -/
theorem memWrite_wf (m : List Host.Cell) (a : Nat) (bs : List Byte) (h : Memory.wf m = true) :
    Memory.wf (memWrite m a bs) = true := by
  simp only [Memory.wf, Bool.and_eq_true, List.all_eq_true, decide_eq_true_eq] at *
  refine ⟨?_, ?_⟩
  · rw [memWrite, List.append_assoc]
    refine memSorted_append _ _ 0 a (memSorted_filter _ _ _ h.1) ?_ (by omega) ?_
    · refine memSorted_append _ _ a (a + bs.length) (memSorted_cellsFrom bs a) (memSorted_filter_above m 0 _ h.1) (by omega) ?_
      intro c hc
      exact (cellsFrom_range bs a c hc).2
    · intro c hc
      simpa using (List.mem_filter.1 hc).2
  · intro c hc
    simp only [memWrite, List.mem_append, List.mem_filter] at hc
    rcases hc with (hc | hc) | hc
    · exact h.2 c hc.1
    · clear h
      induction bs generalizing a with
      | nil => simp [cellsFrom] at hc
      | cons b bs ih =>
        by_cases hb : b = unlistedByte
        · rw [cellsFrom, if_pos hb] at hc; exact ih _ hc
        · rw [cellsFrom, if_neg hb, List.mem_cons] at hc
          rcases hc with rfl | hc
          · exact hb
          · exact ih _ hc
    · exact h.2 c hc.1

/-- A write of the part or a passed write keeps the canonical form. -/
theorem store_wf (s : State) (a : Nat) (bs : List Byte) (h : Memory.wf s.mem = true) : Memory.wf (s.store a bs).mem = true :=
  memWrite_wf _ _ _ h

/-- Writing into a byte ring keeps the canonical form. -/
theorem ringWrite_wf (w : Window) (bs : List Byte) (m : List Host.Cell) (x : Word) (h : Memory.wf m = true) :
    Memory.wf (ringWrite m w x bs) = true := by
  induction bs generalizing m x with
  | nil => exact h
  | cons b bs ih => exact ih _ _ (memWrite_wf _ _ _ h)

/-- Writing status records keeps the canonical form. -/
theorem writeRecords_wf (rs : List (Nat × List Byte)) (m : List Host.Cell) (h : Memory.wf m = true) :
    Memory.wf (writeRecords m rs) = true := by
  unfold writeRecords
  induction rs generalizing m with
  | nil => exact h
  | cons r rs ih => exact ih _ (memWrite_wf _ _ _ h)

/-- A refresh of the status image keeps the canonical form. -/
theorem refresh_wf (s : State) (h : Memory.wf s.mem = true) : Memory.wf (refresh s).mem = true :=
  memWrite_wf _ _ _ (writeRecords_wf _ _ (memWrite_wf _ _ _ h))

/-- Setting the states of catalog records keeps the canonical form. -/
theorem sweepRecords_wf (l : Layout) (f : List Byte → Option RecordState) (cs : List Word) (m : List Host.Cell) (n : Nat)
    (h : Memory.wf m = true) : Memory.wf (sweepRecords l f cs m n).1 = true := by
  induction cs generalizing m n with
  | nil => exact h
  | cons c cs ih =>
    simp only [sweepRecords]
    split
    · exact ih _ _ h
    · exact ih _ _ (memWrite_wf _ _ _ h)

theorem catalogSweep_wf (f : List Byte → Option RecordState) (s : State) (h : Memory.wf s.mem = true) :
    Memory.wf (catalogSweep f s).1.mem = true := by
  unfold catalogSweep
  split
  · exact h
  · exact sweepRecords_wf _ _ _ _ _ h

/-- Memory in power-on reset lists nothing, which is canonical. -/
theorem reset_mem_empty : State.reset.mem = [] := rfl

theorem empty_wf : Memory.wf [] = true := rfl

end Sys2Proof.Laws
end

