-- ==== Sys2Proof/Laws/Operations.lean ====
section
/-! SUPPORT. What the shared operations can do, said once for each: the frame of a command, posting, answering a request,
saturating counts, freeing a stream, stopping a label read, the group check, the end of a decode. -/

namespace Sys2Proof.Laws

open Sys2Proof Sys2Proof.Machine Sys2Proof.Safety

/-- A command out of reset answers the state of its effect, with some stale mark. -/
theorem runStep_next (s u : State) (f : State → State) (h : s.resetAsserted = false) (e : f s = u) :
    ∃ b, runStep s f = .next (withStale b u) := by
  subst e
  exact ⟨(f s).re.stale || decide (imageRecords (f s) ≠ imageRecords s), by simp [runStep, h, markStale, withStale]⟩

/-- A command in power-on reset changes nothing. -/
theorem runStep_reset (s : State) (f : State → State) (h : s.resetAsserted = true) : runStep s f = .next s := by
  simp [runStep, h]

/-- A command never stops: it answers a next state. -/
theorem runStep_spec (s : State) (f : State → State) :
    runStep s f = .next (if s.resetAsserted then s else markStale s (f s)) := by
  unfold runStep; split <;> rfl

/-- A post joins the tail of the backlog, or its unit joins the tail of the waiters; nothing else changes. -/
theorem post_spec (unit : Poster) (r : Report) (s : State) :
    (s.re.hasRoom = true ∧ post unit r s = { s with re := { s.re with backlog := s.re.backlog ++ [r] } })
    ∨ (s.re.hasRoom = false
        ∧ post unit r s = { s with re := { s.re with waiters := s.re.waiters ++ [{ unit := unit, item := .post r }] } }) := by
  unfold post
  cases h : s.re.hasRoom <;> simp

/-- A Framer's report in the middle of an event joins the backlog, or waits with the marks recomputed before it (R102, R103). -/
theorem framerPost_spec (n : LaneId) (r : Report) (s : State) :
    (s.re.hasRoom = true ∧ framerPost n r s = { s with re := { s.re with backlog := s.re.backlog ++ [r] } })
    ∨ (s.re.hasRoom = false ∧ framerPost n r s = post (.framer n) r (recomputeConsumed n s)) := by
  unfold framerPost
  cases h : s.re.hasRoom <;> simp [post, h]

/-- An entry of a stream is the chunk of one of its two buffers. -/
theorem entry_at (s : State) (i : StreamId) (e : ChunkEntry) (x : BufferState) :
    (decide (e.stream = i) && decide (s.streams[e.stream].buffers[e.buffer].state = x))
      = (e.names i 0 && decide (s.streams[i].buffers[0].state = x)
        || e.names i 1 && decide (s.streams[i].buffers[1].state = x)) := by
  unfold ChunkEntry.names
  by_cases hi : e.stream = i
  · subst hi
    have : e.buffer = 0 ∨ e.buffer = 1 := by omega
    rcases this with h | h <;> simp [h]
  · simp [hi]

/-- What is left of a Compressor once a stream's chunks have been given up, buffer by buffer. -/
theorem compressorLeft_eq (s : State) (i : StreamId) :
    compressorLeft s (fun j => decide (j = i)) =
      let at' (e : ChunkEntry) (x : BufferState) : Bool := e.names i 0 && decide (s.streams[i].buffers[0].state = x)
        || e.names i 1 && decide (s.streams[i].buffers[1].state = x)
      { s.ce with
        queue := s.ce.queue.filter fun e => !at' e .closed
        inFlight := s.ce.inFlight.map fun c => if at' c.entry .compressing then { c with discard := true } else c } := by
  unfold compressorLeft
  simp only [entry_at]

/-- A stream that becomes FREE has none of its chunks left but one being compressed for discard (R46, R54). -/
theorem freeStream_eq (i : StreamId) (s : State) : freeStream i s = streamFreed s s i := by
  have hv : ∀ v : Vector Buffer 2, v = #v[v[0], v[1]] := fun v => by
    ext j hj
    match j, hj with | 0, _ => rfl | 1, _ => rfl
  unfold streamFreed
  rw [compressorLeft_eq]
  obtain ⟨i, hi⟩ := i
  obtain ⟨x, y, hb⟩ : ∃ x y, s.streams[i].buffers = #v[x, y] := ⟨_, _, hv _⟩
  cases hx : x.state <;> cases hy : y.state <;>
    simp [freeStream, giveUpStream, giveUpBuffer, freeBuffer, State.modBuffer, State.modStream,
      State.setStreamAperture, buffersLeft, hb, hx, hy]
  · simp only [Bool.and_comm]
  · cases s.ce.inFlight with
    | none => rfl
    | some c =>
      cases h0 : c.entry.names ⟨i, hi⟩ 0 <;> cases h1 : c.entry.names ⟨i, hi⟩ 1 <;> simp [h0, h1]
/-- Answering a request is what R19 and R21 say. -/
theorem answer_eq (code : Code) (r : List Byte) (s : State) : answer code r s = answered code r s := rfl

/-- A saturating count rises by 1 or stays at its maximum. -/
theorem satInc_eq (w : Word) : satInc w = if w = 0xFFFFFFFF then 0xFFFFFFFF else w + 1 := by
  have hw := w.isLt
  unfold satInc satAdd
  by_cases h' : w = 0xFFFFFFFF
  · subst h'; rfl
  · have h2 : w.toNat ≠ 4294967295 := fun e => h' (BitVec.eq_of_toNat_eq (by simp [e]))
    rw [if_neg h']
    split
    · apply BitVec.eq_of_toNat_eq; simp
    · apply BitVec.eq_of_toNat_eq
      have : w.toNat = 4294967294 := by omega
      simp [this]

/-- Memory after a write is written as R3 says. -/
theorem memWrite_written (m : List Host.Cell) (a : Nat) (bs : List Byte) :
    (∀ (i : Nat) (h : i < bs.length), memRead (memWrite m a bs) (a + i) = bs[i])
      ∧ ∀ x : Nat, x < a ∨ a + bs.length ≤ x → memRead (memWrite m a bs) x = memRead m x :=
  ⟨fun i h => memRead_memWrite_inside m a bs i h, fun x h => memRead_memWrite_outside m a bs x h⟩

/-- A write of no bytes leaves every byte as it reads. -/
theorem memRead_memWrite_nil (m : List Host.Cell) (a x : Nat) : memRead (memWrite m a []) x = memRead m x :=
  memRead_memWrite_outside m a [] x (by simp only [List.length_nil]; omega)

/-- Copying bytes to the packer position moves the position on and writes memory there; nothing else changes (R75). -/
theorem writePayload_spec (n : LaneId) (bs : List Byte) (s : State) {p : Position} (h : s.lanes[n].position = some p) :
    writePayload n bs s = { s with
      mem := memWrite s.mem (s.slotAddress n p.slot + 4096 * p.frame + 20 + p.offset) bs
      lanes := s.lanes.set n { s.lanes[n] with
        position := some { p with offset := p.offset + bs.length, check := crcUpdate p.check bs } } } := by
  unfold writePayload
  rw [h]
  rfl

/-- Deciding the request in hand: a refusal before the owner, a wait for the owner, or the owner's decision. -/
theorem decideRequest_spec (r : List Byte) (kind : RequestKind) (s : State) (hk : recordKind r = some kind) :
    decideRequest r s =
      if s.preCheck kind r then
        if s.ownerReady kind r then
          match s.decision kind r with
          | .error c => answered c r s
          | .ok f => f (answered .done r s)
        else s
      else answered .badArgument r s := by
  unfold decideRequest; rw [hk]; rfl

/-- A request that obtains its reservation keeps its bytes and holds the reservation. -/
@[simp] theorem reserve_bytes (h : InHand) (s : State) : (h.reserve s).bytes = h.bytes := rfl
@[simp] theorem reserve_reserved (h : InHand) (s : State) : (h.reserve s).reserved = true := rfl

/-- While the Job Table waits on no post, no RESTORE evaluation is done whose job has not ended (R46). -/
theorem restoreEvaluatedOn_free {s : State} (h : s.waiting .jobTable = false) (n : LaneId) :
    s.restoreEvaluatedOn n = false := by
  simp only [State.restoreEvaluatedOn, h, Bool.false_and]

/-- A RESTORE evaluation of a lane is done before its job has ended exactly when the Job Table, while it waits on a post, holds
the Decode Engine's signal for such a job, or the job's own JOB_DONE is what waits (R132). -/
theorem restoreEvaluatedOn_iff (s : State) (n : LaneId) :
    s.restoreEvaluatedOn n = true ↔ s.waiting .jobTable = true ∧
      ((∃ k, JobSignal.evaluationDone k ∈ s.jt.held ∧ s.jt.jobs[k].record.restoresOn n = true)
        ∨ ∃ w ∈ s.re.waiters, ∃ k r, w.item = .post (.jobDone k r .complete) ∧ r.restoresOn n = true) := by
  simp only [State.restoreEvaluatedOn, Bool.and_eq_true, Bool.or_eq_true, List.any_eq_true]
  refine and_congr_right fun _ => or_congr ⟨?_, ?_⟩ ⟨?_, ?_⟩
  · rintro ⟨x, hx, h⟩
    split at h
    next k => exact ⟨k, hx, h⟩
    next => cases h
  · exact fun ⟨k, hk, h⟩ => ⟨_, hk, h⟩
  · rintro ⟨w, hw, h⟩
    split at h
    next k r hi => exact ⟨w, hw, k, r, hi, h⟩
    next => cases h
  · exact fun ⟨w, hw, k, r, hi, h⟩ => ⟨w, hw, by rw [hi]; exact h⟩

/-- A LANE_RESET that obtains its reservation while no RESTORE job of a lane is left to end acts as R87 says, a VERIFY job's
JOB_DONE waiting or not. -/
theorem reserve_not_restore (h : InHand) {s : State} (hs : ∀ n, s.restoreEvaluatedOn n = false) :
    h.reserve s = { h with reserved := true } := by
  simp [InHand.reserve, hs]

/-- While the Job Table waits on no post, a request that obtains its reservation changes in nothing else. -/
theorem reserve_free (h : InHand) {s : State} (hj : s.waiting .jobTable = false) : h.reserve s = { h with reserved := true } := by
  exact reserve_not_restore h (restoreEvaluatedOn_free hj)

/-- A request that obtains its reservation has met an evaluation exactly when it had before, or is a LANE_RESET of a lane whose
RESTORE job's evaluation is done while the job has not ended (R132). -/
theorem reserve_metEvaluation (h : InHand) (s : State) :
    (h.reserve s).metEvaluation = true ↔
      h.metEvaluation = true ∨ ∃ n : LaneId, recordKind h.bytes = some .laneReset ∧ argByte h.bytes 4 = n.val
        ∧ s.restoreEvaluatedOn n = true := by
  simp [InHand.reserve, InHand.resetsLane, and_assoc]

/-- The request that is next is decided with its reservation held. -/
theorem requestCommand_next (s : State) (kind : Option RequestKind) (r : List Byte) (h : RequestNext s kind r) :
    requestCommand kind s =
      decideRequest r { s with re := { s.re with
        reservation := true, inHand := some (({ bytes := r, reserved := false } : InHand).reserve s) } } := by
  simp [requestCommand, h.engineFree, h.nothingInHand, h.untaken, h.isRecord, h.isKind, h.room]

/-- The lane's drive holds a cartridge whose record is known. -/
theorem inDrive_iff {s : State} {n : LaneId} {c : CartId} {x : CartRecord} {p : CartRecord → Prop}
    (hp : s.cd.places[drivePlace n].state = .occupied c) (hc : s.cd.records[c] = some x) :
    inDrive s n p ↔ p x := by
  constructor
  · rintro ⟨d, y, h1, h2, h3⟩
    rw [hp] at h1; cases h1
    rw [hc] at h2; cases h2
    exact h3
  · exact fun h => ⟨c, x, hp, hc, h⟩

/-- A stopped unit keeps its place, its queue and its outputs. -/
@[simp] theorem quiet_state (l : Loader) : l.quiet.state = l.state := rfl
@[simp] theorem quiet_station (l : Loader) : l.quiet.station = l.station := rfl
@[simp] theorem quiet_queue (l : Loader) : l.quiet.queue = l.queue := rfl
@[simp] theorem quiet_step (l : Loader) : l.quiet.step = l.step := rfl
@[simp] theorem quiet_markTimer (l : Loader) : l.quiet.markTimer = none := rfl
@[simp] theorem quiet_stepTimer (l : Loader) : l.quiet.stepTimer = none := rfl
@[simp] theorem quiet_retryTimer (l : Loader) : l.quiet.retryTimer = none := rfl
@[simp] theorem quiet_outputs (l : Loader) : l.quiet.outputs = l.outputs := rfl
@[simp] theorem quiet_exchanging (l : Loader) : l.quiet.exchanging = l.exchange.isSome := rfl

/-- A label read that stops is IDLE at once, or EXCHANGING until the exchange in progress is over (R160). -/
theorem quiet_link (l : Loader) :
    (l.exchange = none ∧ l.quiet.exchange = none ∧ l.quiet.exchanging = false ∧ l.quiet.attempt = 0 ∧ l.quiet.received = [])
    ∨ ∃ e, l.exchange = some e ∧ l.quiet.exchange = some { e with stopped := true } ∧ l.quiet.exchanging = true
        ∧ l.quiet.attempt = l.attempt ∧ l.quiet.received = l.received := by
  cases h : l.exchange <;> simp [Loader.quiet, h]

/-- The end of a stopped exchange begins the read that waits for it, or leaves the link IDLE (R160). -/
theorem stoppedExchangeOver_spec (s : State) :
    ((s.lc.step.any fun x => decide (x.part = .reading)) = true ∧ stoppedExchangeOver s = startAttempt s)
    ∨ ((s.lc.step.any fun x => decide (x.part = .reading)) = false
        ∧ stoppedExchangeOver s
            = { s with lc := { s.lc with exchange := none, exchanging := false, attempt := 0, received := [] } }) := by
  unfold stoppedExchangeOver
  cases h : s.lc.step.any fun x => decide (x.part = .reading) <;> simp [modLoader]

/-- Changes to a Framer that agree at what it is agree. -/
theorem modFramer_congr {s : State} {n : LaneId} {f g : Framer → Framer} (h : f s.framers[n] = g s.framers[n]) :
    s.modFramer n f = s.modFramer n g := by
  unfold State.modFramer
  rw [h]

/-- A Framer that changes to what it was has not changed. -/
theorem modFramer_id (s : State) (n : LaneId) : s.modFramer n id = s := by
  simp [State.modFramer]

/-- Two changes to a Framer are one. -/
theorem modFramer_modFramer (s : State) (n : LaneId) (f g : Framer → Framer) :
    (s.modFramer n f).modFramer n g = s.modFramer n fun x => g (f x) := by
  simp [State.modFramer]

/-- Settling a group in hand unchecked changes the Framer alone (R109). -/
theorem settleUnchecked_eq (n : LaneId) (s : State) : settleUnchecked n s = s.modFramer n unchecked := by
  unfold settleUnchecked
  split
  next h => exact (modFramer_id s n).symm.trans (modFramer_congr (by unfold unchecked; rw [h]; rfl))
  next g h => exact modFramer_congr (by simp only [unchecked, h, satInc_eq])

/-- One group is later than another exactly when the other is not at or beyond it (R109). -/
theorem groupLater_not (a b : Word) : (!groupLater a b) = decide ((a - b).toInt ≤ 0) := by
  unfold groupLater
  by_cases h : 0 < (a - b).toInt
  · rw [decide_eq_true h, decide_eq_false (by omega)]; rfl
  · rw [decide_eq_false h, decide_eq_true (by omega)]; rfl

/-- A frame's part in the group check changes the Framer alone (R109). -/
theorem groupFrame_eq (n : LaneId) (x : FrameName) (slip : Bool) (payload : List Byte) (s : State) :
    groupFrame n x slip payload s = s.modFramer n fun f => grouped f x slip payload := by
  unfold groupFrame
  simp only [settleUnchecked_eq, groupLater_not, modFramer_modFramer]
  split
  next hs => exact (modFramer_id s n).symm.trans (modFramer_congr (by simp only [grouped, hs, id]))
  next hs =>
    replace hs := Bool.eq_false_iff.mpr hs
    split
    next hg =>
      obtain ⟨g, h, he⟩ := (Option.any_eq_true _ _).mp hg
      exact modFramer_congr (by simp only [grouped, hs, h, of_decide_eq_true he, if_true, Option.map_some])
    next hg =>
      refine modFramer_congr ?_
      cases h : s.framers[n].groupInHand with
      | none => simp only [grouped, unchecked, hs, h, crcStart, Bool.not_eq_true']
      | some g =>
        have he : g.group ≠ x.group := fun e => hg (by rw [h]; exact decide_eq_true e)
        simp only [grouped, unchecked, hs, h, he, if_false, crcStart, Bool.not_eq_true']

/-- The due list once a job may have met its end condition (R127). -/
theorem dueCheck_eq (k : SlotId) (s : State) :
    dueCheck k s = { s with de := { s.de with
      due := if s.jt.jobs[k].live = true ∧ s.jt.jobs[k].record.state = .ending then evaluationDue s.de k else s.de.due } } := by
  let due : Prop := (∀ e ∈ s.de.queue, e.slot ≠ k) ∧ s.decodingFor k = false ∧ k ∉ s.de.due
  let ends : Prop := s.jt.jobs[k].live = true ∧ s.jt.jobs[k].record.state = .ending
  have key : ((s.jt.jobs[k].live = true ∧ s.jt.jobs[k].record.state = .ending
      ∧ (s.de.queue.all fun e => decide (e.slot ≠ k)) = true ∧ (!s.decodingFor k) = true ∧ (!s.de.due.contains k) = true))
      ↔ ends ∧ due := by
    simp [ends, due, and_assoc]
  show (if _ then _ else s) = { s with de := { s.de with due := if ends then (if due then s.de.due ++ [k] else s.de.due) else s.de.due } }
  by_cases h : ends ∧ due
  · rw [if_pos (key.mpr h), if_pos h.1, if_pos h.2]
  · rw [if_neg (mt key.mp h)]
    split
    next he => rw [if_neg fun hd => h ⟨he, hd⟩]
    next => rfl

/-- A decode that ends leaves the Decode Engine as R123 and R127 say and nothing else changed. -/
theorem finishDecode_eq (k : SlotId) (s : State) : finishDecode k s = { s with de := decodeEnded s k } := by
  unfold finishDecode decodeEnded
  rw [dueCheck_eq]
  by_cases h : s.jt.jobs[k].live = true ∧ s.jt.jobs[k].record.state = .ending
  · simp only [h, and_self, if_true]
  · simp only [h, if_false]

/-- With no request in hand an end evaluation meets none (R127). -/
theorem meetEvaluation_none (n : LaneId) (s : State) (h : s.re.inHand = none) : meetEvaluation n s = s := by
  unfold meetEvaluation
  rw [h]
  exact congrArg (fun x => { s with re := { s.re with inHand := x } }) h.symm

/-- The request in hand keeps its bytes and its reservation when an end evaluation meets it, and nothing else changes (R127). -/
theorem meetEvaluation_some (n : LaneId) (s : State) (x : InHand) (h : s.re.inHand = some x) :
    meetEvaluation n s = { s with re := { s.re with
      inHand := some { x with metEvaluation := x.resetsLane n || x.metEvaluation } } } := by
  unfold meetEvaluation
  rw [h]
  cases hx : x.resetsLane n <;> simp [hx]

end Sys2Proof.Laws
end

