-- ==== Sys2Proof/Laws/Packer.lean ====
section
/-! SUPPORT. What the packer's shared operations can do, said once for each: completing a frame, filling it, closing a group,
the pad-close, going on in a new group; and one Job Table signal taken at once. -/

namespace Sys2Proof.Laws

open Sys2Proof Sys2Proof.Machine Sys2Proof.Safety

/-! ## Small lemmas -/

/-- A frame header has 20 bytes (R70). -/
theorem frameHeader_length (g c : Word) (o : Option Nat) (i : Nat) (b : Bool) (f : Nat) :
    (frameHeader g c o i b f).length = 20 := by
  unfold frameHeader; simp [syncPattern, word, half, byte1, leBytes]

/-- The running check over bytes in two parts. -/
theorem crcUpdate_append (c : Word) (a b : List Byte) : crcUpdate c (a ++ b) = crcUpdate (crcUpdate c a) b := by
  unfold crcUpdate; rw [List.foldl_append]

/-- Filler in two parts. -/
theorem zeroBytes_add (a b : Nat) : zeroBytes (a + b) = zeroBytes a ++ zeroBytes b := by
  unfold zeroBytes; rw [List.replicate_add]

/-- The length of filler. -/
theorem zeroBytes_length (a : Nat) : (zeroBytes a).length = a := by unfold zeroBytes; simp

/-- Bytes that all read as before are read as before. -/
theorem memBytes_congr (m m' : List Host.Cell) (a n : Nat) (h : ∀ x, a ≤ x → x < a + n → memRead m' x = memRead m x) :
    memBytes m' a n = memBytes m a n := by
  unfold memBytes
  apply List.map_congr_left
  intro i hi
  have := List.mem_range.mp hi
  exact h _ (by omega) (by omega)

/-- Where a slot begins in the lane's pool (R82). -/
theorem slotAddress_eq {s : State} {n : LaneId} {l : Layout} (h : s.wd.layout = some l) (k : Nat) :
    s.slotAddress n k = l.pools[n].base + 32768 * k := by
  unfold State.slotAddress; rw [h]

/-- The group of an OPEN slot. -/
theorem slotGroup_eq {lane : Lane} {j : Nat} {g : Word} (h : lane.slots[j]? = some (.opened g)) : lane.slotGroup j = g := by
  unfold Lane.slotGroup; rw [h]

/-- Copying goes on when the segment has begun and no post waits (R74, R82). -/
theorem copying_eq {s : State} {n : LaneId} {k : Packing} (h : s.lanes[n].packing = some k) (hs : k.starting = false)
    (hw : s.waiting (.laneUnit n) = false) : s.copying n = some k := by
  unfold State.copying; rw [h]; simp [hs, hw]

/-! ## Frames (R70, R75, R77) -/

/-- A completed frame has its header written, and the position of a frame 0 to 6 moves to the next; nothing else changes. -/
theorem completeFrame_spec (n : LaneId) (pc : Bool) (fill : Nat) (s : State) {p : Position} {g : Word}
    (h : s.lanes[n].position = some p) (hg : s.lanes[n].slots[p.slot]? = some (.opened g)) :
    completeFrame n pc fill s = { s with
      mem := memWrite s.mem (s.slotAddress n p.slot + 4096 * p.frame)
        (frameHeader g (if p.frame = 7 then ~~~ p.check else 0) p.firstSegment p.frame pc fill)
      lanes := if p.frame < 7 then s.lanes.set n { s.lanes[n] with
        position := some { p with frame := p.frame + 1, offset := 0, firstSegment := none } } else s.lanes } := by
  unfold completeFrame
  rw [h]
  simp only [slotGroup_eq hg]
  split <;> simp_all [State.store, State.modLane]

/-- Memory once payload bytes and then a frame's header have been written. -/
theorem framed_mem (m : List Host.Cell) (A o : Nat) (bs h : List Byte) (hl : h.length = 20) :
    (∀ (i : Nat) (hi : i < bs.length), memRead (memWrite (memWrite m (A + 20 + o) bs) A h) (A + 20 + o + i) = bs[i])
    ∧ memBytes (memWrite (memWrite m (A + 20 + o) bs) A h) A 20 = h
    ∧ ∀ a, ¬ (A ≤ a ∧ a < A + 20) → ¬ (A + 20 + o ≤ a ∧ a < A + 20 + o + bs.length) →
      memRead (memWrite (memWrite m (A + 20 + o) bs) A h) a = memRead m a := by
  refine ⟨fun i hi => ?_, ?_, fun a h1 h2 => ?_⟩
  · rw [memRead_memWrite_outside _ _ _ _ (by omega), memRead_memWrite_inside _ _ _ _ hi]
  · unfold memBytes
    apply List.ext_getElem
    · simp [hl]
    · intro i h1 h2
      simp only [List.getElem_map, List.getElem_range]
      exact memRead_memWrite_inside _ _ _ _ h2
  · rw [memRead_memWrite_outside _ _ _ _ (by omega), memRead_memWrite_outside _ _ _ _ (by omega)]

/-- Memory once the rest of a frame, at address `A`, is filler and its header is written (R70, R77). -/
def filledMem (m : List Host.Cell) (A : Nat) (g : Word) (p : Position) : List Host.Cell :=
  let check := crcUpdate p.check (zeroBytes (4076 - p.offset))
  memWrite (memWrite m (A + 20 + p.offset) (zeroBytes (4076 - p.offset))) A
    (frameHeader g (if p.frame = 7 then ~~~ check else 0) p.firstSegment p.frame true (4076 - p.offset))

/-- The position once the rest of a frame is filler (R75, R77). -/
def filledPosition (p : Position) : Position :=
  let check := crcUpdate p.check (zeroBytes (4076 - p.offset))
  if p.frame < 7 then { p with frame := p.frame + 1, offset := 0, firstSegment := none, check := check }
  else { p with offset := 4076, check := check }

/-- The rest of a frame becomes filler and the frame is complete; nothing else changes. -/
theorem fillFrame_spec (n : LaneId) (s : State) {p : Position} {g : Word} {l : Layout} (hl : s.wd.layout = some l)
    (h : s.lanes[n].position = some p) (hg : s.lanes[n].slots[p.slot]? = some (.opened g)) (ho : p.offset ≤ 4076) :
    fillFrame n true s = { s with
      mem := filledMem s.mem (l.pools[n].base + 32768 * p.slot + 4096 * p.frame) g p
      lanes := s.lanes.set n { s.lanes[n] with position := some (filledPosition p) } } := by
  unfold fillFrame filledMem filledPosition
  rw [h]
  simp only
  rw [writePayload_spec n _ s h, completeFrame_spec n true _ _ (g := g) (p := { p with
      offset := p.offset + (zeroBytes (4076 - p.offset)).length, check := crcUpdate p.check (zeroBytes (4076 - p.offset)) })
    (by simp) (by simpa using hg)]
  simp only [slotAddress_eq hl]
  rw [slotAddress_eq (l := l) (by exact hl)]
  by_cases hf : p.frame < 7
  · simp [hf]
  · simp [hf, zeroBytes_length, show p.offset + (4076 - p.offset) = 4076 by omega]

/-- A filled frame: its header, its filler, and every other byte as before. -/
theorem filledMem_spec (m : List Host.Cell) (A : Nat) (g : Word) (p : Position) :
    memBytes (filledMem m A g p) A 20 = frameHeader g
        (if p.frame = 7 then ~~~ crcUpdate p.check (zeroBytes (4076 - p.offset)) else 0) p.firstSegment p.frame true (4076 - p.offset)
      ∧ (∀ o : Nat, p.offset ≤ o → o < 4076 → memRead (filledMem m A g p) (A + 20 + o) = 0)
      ∧ ∀ a : Nat, a < A ∨ A + 4096 ≤ a ∨ (A + 20 ≤ a ∧ a < A + 20 + p.offset) → memRead (filledMem m A g p) a = memRead m a := by
  obtain ⟨F1, F2, F3⟩ := framed_mem m A p.offset (zeroBytes (4076 - p.offset)) (frameHeader g
    (if p.frame = 7 then ~~~ crcUpdate p.check (zeroBytes (4076 - p.offset)) else 0) p.firstSegment p.frame true (4076 - p.offset))
    (frameHeader_length ..)
  have FL := zeroBytes_length (4076 - p.offset)
  refine ⟨F2, fun o h1 h2 => ?_, fun a ha => F3 a (by omega) (by omega)⟩
  have := F1 (o - p.offset) (by omega)
  rw [show A + 20 + p.offset + (o - p.offset) = A + 20 + o by omega] at this
  exact this.trans (by simp [zeroBytes])

/-- From the current frame on, every frame of the group becomes filler and is complete. -/
theorem fillFrames_spec (n : LaneId) (l : Layout) (g : Word) (d : Nat) : ∀ (s : State) (p : Position),
    s.wd.layout = some l → s.lanes[n].position = some p → s.lanes[n].slots[p.slot]? = some (.opened g) → p.offset ≤ 4076 →
    p.frame + d = 7 → ∃ m, padClosed s.mem m (l.pools[n].base + 32768 * p.slot) g p
      ∧ fillFrames n (d + 1) s = { s with
        mem := m
        lanes := s.lanes.set n { s.lanes[n] with position := some { p with
          frame := 7, offset := 4076, firstSegment := if d = 0 then p.firstSegment else none
          check := crcUpdate p.check (zeroBytes (4076 - p.offset + d * 4076)) } } } := by
  induction d with
  | zero =>
    intro s p hl h hg ho hf
    have hf : p.frame = 7 := by omega
    have e := fillFrame_spec n s hl h hg ho
    simp only [filledPosition, hf, Nat.lt_irrefl, if_false] at e
    refine ⟨_, ?_, e⟩
    generalize l.pools[n].base + 32768 * p.slot = A
    obtain ⟨F1, F2, F3⟩ := filledMem_spec s.mem (A + 4096 * 7) g p
    simp only [hf, if_true] at F1
    refine ⟨fun f h1 h2 => ?_, fun a ha => F3 a (by omega)⟩
    obtain rfl : f = 7 := by omega
    simpa only [hf, if_true, Nat.sub_self, Nat.zero_mul, Nat.add_zero] using ⟨F1, F2⟩
  | succ d ih =>
    intro s p hl h hg ho hf
    have hf7 : p.frame < 7 := by omega
    have h7 : p.frame ≠ 7 := by omega
    obtain ⟨m, hm, hs⟩ := ih { s with
        mem := filledMem s.mem (l.pools[n].base + 32768 * p.slot + 4096 * p.frame) g p
        lanes := s.lanes.set n { s.lanes[n] with position := some (filledPosition p) } }
      { p with frame := p.frame + 1, offset := 0, firstSegment := none, check := crcUpdate p.check (zeroBytes (4076 - p.offset)) }
      hl (by simp [filledPosition, hf7]) (by simpa using hg) (by simp) (by simp; omega)
    refine ⟨m, ?_, (congrArg (fillFrames n (d + 1)) (fillFrame_spec n s hl h hg ho)).trans (hs.trans ?_)⟩
    rotate_left
    · simp only [Vector.getElem_set_self, Fin.getElem_fin, Vector.set_set, ← crcUpdate_append, ← zeroBytes_add]
      congr 4
      simp
      congr 2
      omega
    generalize l.pools[n].base + 32768 * p.slot = A at *
    obtain ⟨F1, F2, F3⟩ := filledMem_spec s.mem (A + 4096 * p.frame) g p
    simp only [h7, if_false] at F1
    obtain ⟨G1, G2⟩ := hm
    simp only at G1 G2
    refine ⟨fun f h1 h2 => ?_, fun a ha => by rw [G2 a (by omega)]; exact F3 a (by omega)⟩
    by_cases hff : f = p.frame
    · subst hff
      simp only [h7, if_false, if_true]
      refine ⟨?_, fun o h3 h4 => ?_⟩
      · rw [memBytes_congr _ _ _ _ (fun x hx1 hx2 => G2 x (by omega)), F1]
      · rw [G2 _ (by omega), F2 o h3 h4]
    · have := G1 f (by omega) h2
      rw [show 4076 - p.offset + (7 - p.frame) * 4076 = (4076 - p.offset) + (4076 - 0 + (7 - (p.frame + 1)) * 4076) by omega,
        zeroBytes_add, crcUpdate_append]
      simp only [hff, if_false]
      simpa only [Nat.sub_zero, ite_self] using this

/-! ## Closing (R76, R77, R82) -/

/-- With room in the backlog the open slot is READY, its counter rises, a close pending is dropped and GROUP_READY is posted. -/
theorem closeGroup_spec (n : LaneId) (reason : CloseReason) (s : State) {p : Position} {g : Word}
    (h : s.lanes[n].position = some p) (hg : s.lanes[n].slots[p.slot]? = some (.opened g)) (hr : s.re.hasRoom = true) :
    closeGroup n reason s = { s with
      lanes := s.lanes.set n { s.lanes[n] with
        slots := s.lanes[n].slots.set p.slot (.ready g), position := none, openedAt := none, closePending := none
        counters := s.lanes[n].counters.close reason }
      re := { s.re with backlog := s.re.backlog ++ [.groupReady n reason (BitVec.ofNat 32 (s.slotAddress n p.slot)) g p.slot p.starts] } } := by
  unfold closeGroup
  rw [h]
  simp only [slotGroup_eq hg]
  unfold post
  simp only [modLane_re, hr, if_true]
  simp [State.modLane, Lane.setSlot, State.slotAddress]

/-- With room in the backlog a pad-close fills every frame left, raises the counters and closes the group. -/
theorem padClose_spec (n : LaneId) (reason : CloseReason) (s : State) {p : Position} {g : Word} {l : Layout} (hl : s.wd.layout = some l)
    (h : s.lanes[n].position = some p) (hg : s.lanes[n].slots[p.slot]? = some (.opened g)) (ho : p.offset ≤ 4076) (hf : p.frame ≤ 7)
    (hr : s.re.hasRoom = true) :
    ∃ m, padClosed s.mem m (l.pools[n].base + 32768 * p.slot) g p ∧
      padClose n reason s = { s with
        mem := m
        lanes := s.lanes.set n (closedLane s.lanes[n] p g reason)
        re := { s.re with backlog := s.re.backlog ++
                [.groupReady n reason (BitVec.ofNat 32 (l.pools[n].base + 32768 * p.slot)) g p.slot p.starts] } } := by
  obtain ⟨m, hm, e⟩ := fillFrames_spec n l g (7 - p.frame) s p hl h hg ho (by omega)
  refine ⟨m, hm, ?_⟩
  unfold padClose
  rw [h]
  simp only
  rw [show 8 - p.frame = 7 - p.frame + 1 by omega, e]
  simp only [State.modLane, Vector.getElem_set_self, Fin.getElem_fin, Vector.set_set]
  rw [closeGroup_spec n reason _ (p := { p with
          frame := 7, offset := 4076, firstSegment := if 7 - p.frame = 0 then p.firstSegment else none
          check := crcUpdate p.check (zeroBytes (4076 - p.offset + (7 - p.frame) * 4076)) }) (g := g) (by simp) (by simpa using hg) (by exact hr)]
  rw [slotAddress_eq (l := l) (by exact hl)]
  simp only [Vector.getElem_set_self, Fin.getElem_fin, Vector.set_set]
  congr 2
  unfold closedLane LaneCounters.close
  have hw : ∀ (w : Word) (j : Nat), BitVec.ofNat 32 (w.toNat + j) = w + BitVec.ofNat 32 j := by
    intro w j; rw [BitVec.ofNat_add]; simp
  cases reason <;> simp [satInc_eq, satAdd, hw]

/-- Frame 7 has completed: the group closes FULL, and FULL is set at the cartridge's last group (R76). -/
theorem fullClose_spec (n : LaneId) (s : State) {p : Position} {g : Word} {c : CartId} {x : CartRecord}
    (h : s.lanes[n].position = some p) (hg : s.lanes[n].slots[p.slot]? = some (.opened g)) (hr : s.re.hasRoom = true)
    (hc : s.cd.places[drivePlace n].state = .occupied c) (hx : s.cd.records[c] = some x) :
    fullClose n s = if s.lanes[n].nextGroup = x.limit then setFull n (closeGroup n .full s) else closeGroup n .full s := by
  unfold fullClose
  have hd : (closeGroup n .full s).driveRecord n = some x := by
    rw [closeGroup_spec n .full s h hg hr]
    unfold State.driveRecord State.driveCart; simp only [hc]; exact hx
  have hn : (closeGroup n .full s).lanes[n].nextGroup = s.lanes[n].nextGroup := by
    rw [closeGroup_spec n .full s h hg hr]; simp
  simp only [hd, hn]

/-- A segment with bytes left, no slot open and the next one FREE opens it (R75). -/
theorem continueSegment_opens (n : LaneId) (s : State) {k : Packing} (h : s.copying n = some k) (h1 : k.rest ≠ [])
    (h2 : s.lanes[n].position = none) (h3 : s.lanes[n].nextFree = true) : continueSegment n s = openSlot n s := by
  unfold continueSegment
  rw [h]
  exact if_pos (by simp only [h2, h3, Option.isNone_none, Bool.and_true]; simpa using h1)

/-! ## One Job Table signal (R46) -/

/-- With no signal held none is taken. -/
theorem takeJobSignals_none (m : Nat) (s : State) (h : s.jt.held = []) : takeJobSignals m s = s := by
  cases m with
  | zero => rfl
  | succ m => unfold takeJobSignals; rw [h]; split <;> rfl

/-- Holding no signal where none is held. -/
theorem held_none {s : State} (h : s.jt.held = []) : { s with jt := { s.jt with held := [] } } = s := by
  cases s with | _ => cases ‹JobTable›; simp_all

/-- A signal that leads to no other is taken at once by a Job Table that neither waits nor holds one. -/
theorem jobSignals_one (x : JobSignal) (s : State) (hf : jobTableFree s) (u : State) (h : takeJobSignal x s = (u, []))
   (hu : u.jt.held = []) :
    jobSignals [x] s = u := by
  obtain ⟨hw, hh⟩ := hf
  unfold jobSignals
  simp only [hh, List.nil_append, State.jobFuel, List.length_singleton, Nat.mul_one]
  unfold takeJobSignals
  have hw' : ({ s with jt := { s.jt with held := [x] } } : State).waiting .jobTable = false := hw
  rw [hw']
  simp only [Bool.false_eq_true, if_false]
  have : ({ s with jt := { s.jt with held := [] } } : State) = s := held_none hh
  rw [this, h]
  simp only [List.nil_append, hu]
  rw [held_none hu]
  exact takeJobSignals_none _ _ hu

end Sys2Proof.Laws
end

