-- ==== Sys2Proof/Tests/Slice0.lean ====
section
/-! SUPPORT. Tests: ill-formed commands, the spec's worked examples, small tests of single commands, and for each statement of
Certificates/Slice0/Obligations.lean states and operands that meet its hypotheses. -/

namespace Sys2Proof.Tests

open Sys2Proof Sys2Proof.Machine Sys2Proof.Safety Sys2Proof.Laws

-- One proof at a time: each `decide +kernel` otherwise holds a thread of its own.
set_option Elab.async false

/-! ## Well-formedness: one ill-formed command for each check (01 section 1.1) -/

theorem test_wf_empty_write : (Instr.controllerWrite 0x20000 []).wellFormed = false := by decide
theorem test_wf_empty_index_write : (Instr.indexWordWrite 0x8000 []).wellFormed = false := by decide
theorem test_wf_crossing_aperture_write : (Instr.apertureWrite 0x100FFF [1, 2]).wellFormed = false := by decide
theorem test_wf_empty_read : (Instr.finalByteRead 0x20000 0 0).wellFormed = false := by decide
theorem test_wf_crossing_read : (Instr.finalByteRead 0x20FFF 2 0).wellFormed = false := by decide
theorem test_wf_long_read : (Instr.finalByteRead 0x20000 4097 0).wellFormed = false := by decide
theorem test_wf_whole_page_read : (Instr.finalByteRead 0x20000 4096 0).wellFormed = true := by decide
theorem test_no_word_spells_a_command : decodeTableWord 16 0x1234 = none := by decide

/-! ## Worked examples of the spec: CRC-32 (R64), encodings (04 section 4.6), expansion (08 section 8.2) -/

/-- R64: the CRC-32 of "123456789". -/
theorem test_crc32_check_value :
    crc32 [0x31, 0x32, 0x33, 0x34, 0x35, 0x36, 0x37, 0x38, 0x39] = 0xCBF43926 := by decide +kernel

/-- 04 4.6: "ABCABCABCABCX". -/
def chunkABC : List Byte := [65, 66, 67, 65, 66, 67, 65, 66, 67, 65, 66, 67, 88]

theorem test_encode_abc : tokenStream (encodeChunk chunkABC).1 = [0x08, 0x41, 0x42, 0x43, 0x02, 0x06, 0x58] := by
  decide +kernel

theorem test_encode_ten_equal :
    tokenStream (encodeChunk (List.replicate 10 65)).1 = [0x02, 0x41, 0x00, 0x06] := by decide +kernel

theorem test_encode_twenty_five_equal :
    tokenStream (encodeChunk (List.replicate 25 65)).1 = [0x06, 0x41, 0x00, 0x0F, 0x00, 0x03] := by decide +kernel

/-- 04 4.6: at equality the segment is PLAIN. -/
theorem test_guard_at_equality :
    guardExpansion (List.replicate 4 65) (tokenStream (encodeChunk (List.replicate 4 65)).1)
      = (.plain, List.replicate 4 65) := by decide +kernel

/-- 04 4.6: the hashes of the first example. -/
theorem test_hash : hashAt chunkABC.toArray 0 = 1371 ∧ hashAt chunkABC.toArray 10 = 1412 := by decide +kernel

theorem test_expand_abc :
    expandSegment .packed 13 [0x08, 0x41, 0x42, 0x43, 0x02, 0x06, 0x58] = { output := chunkABC.toArray, fault := none } := by
  decide +kernel

theorem test_expand_distance :
    (expandSegment .packed 13 [0x08, 0x41, 0x42, 0x43, 0x05, 0x06, 0x58]).fault = some .distance := by decide +kernel
theorem test_expand_overlong :
    (expandSegment .packed 13 [0x08, 0x41, 0x42, 0x43, 0x02, 0x08, 0x58]).fault = some .overlong := by decide +kernel
theorem test_expand_excess :
    (expandSegment .packed 13 [0x08, 0x41, 0x42, 0x43, 0x02, 0x07, 0x58]).fault = some .excessInput := by decide +kernel

/-! ## States for the tests -/

/-- The layout of the example of 01 section 1.3 (N = 2). -/
def lay : Layout :=
  { memorySize := 536870912
    apertures := #v[{ base := 0x100000, size := 0x100000 }, { base := 0x200000, size := 0x100000 },
      { base := 0x300000, size := 0x100000 }, { base := 0x400000, size := 0x100000 }]
    pools := #v[{ base := 0x1000000, slots := 16 }, { base := 0x1080000, slots := 16 }, {}, {}]
    rings := #v[{ base := 0x2000000, size := 0x400000 }, { base := 0x2400000, size := 0x400000 }, {}, {}]
    catalog := { base := 0x3000000, size := 0x800000 }
    restore := { base := 0x4000000, size := 0x4000000 } }

/-- A request record from its kind, its tag and its bytes from offset 4 on. -/
def request (kind tag : Nat) (args : List Nat) : List Byte :=
  padded 64 (half kind ++ half tag ++ args.map fun x => BitVec.ofNat 8 x)

/-- The LAYOUT_SET record of the example, lanes 2 and 3 holding anything. -/
def layoutRequest (ring1 : List Nat) : List Byte :=
  request 1 9 ([29, 0, 1, 0, 20, 0, 2, 0, 20, 0, 3, 0, 20, 0, 4, 0, 20, 0, 0x10, 0, 16, 0x80, 0x10, 0, 16, 7, 7, 7, 7, 7, 7, 7, 7,
    0, 0x20, 0, 128] ++ ring1 ++ [128, 9, 9, 9, 9, 9, 9, 9, 9, 0, 0x30, 0, 0, 1, 0, 0x40, 0, 0, 4])

/-- 01 1.3: the example's table is the one read, and it is valid. -/
theorem test_layout_example :
    recordLayout 2 (layoutRequest [0, 0x24, 0]) = lay ∧ lay.valid 2 = true := by decide +kernel

/-- 01 1.3: the ring of lane 1 at 0x0238_0000 overlaps the ring of lane 0. -/
theorem test_layout_overlap : (recordLayout 2 (layoutRequest [0x80, 0x23, 0])).valid 2 = false := by decide +kernel

/-- 01 1.3: an aperture that is not aligned to its size. -/
theorem test_layout_misaligned :
    ({ lay with apertures := lay.apertures.set 2 { base := 0x380000, size := 0x100000 } }).valid 2 = false := by
  decide +kernel

/-- Out of reset with N = 2, the example's layout and every slot FREE. -/
def s0 : State :=
  { State.reset with
    resetAsserted := false
    driveCount := 2
    wd := { layout := some lay }
    lanes := #v[{ slots := List.replicate 16 .free }, { slots := List.replicate 16 .free }, {}, {}] }

/-- A request waits in slot 0 of the request ring. -/
def asking (r : List Byte) (s : State) : State := { s with mem := memWrite s.mem 0 r, re.takenProducer := 1 }

/-- The state after a command, the state itself where it is not taken. -/
def after (c : Instr) (s : State) : State :=
  match exec c s with
  | .next t => t
  | _ => s

/-- RequestNext as a decision. -/
def nextOk (s : State) (kind : Option RequestKind) (r : List Byte) : Bool :=
  !s.resetAsserted && !s.waiting .requestEngine && s.re.inHand.isNone && decide (s.re.consumer ≠ s.re.takenProducer)
    && decide (s.requestRecord = r) && decide (recordKind r = kind) && s.re.hasRoom

theorem next_of_ok {s : State} {kind : Option RequestKind} {r : List Byte} (h : nextOk s kind r = true) :
    RequestNext s kind r := by
  simp only [nextOk, Bool.and_eq_true, Bool.not_eq_true', decide_eq_true_eq, Option.isNone_iff_eq_none] at h
  exact ⟨h.1.1.1.1.1.1, h.1.1.1.1.1.2, h.1.1.1.1.2, h.1.1.1.2, h.1.1.2, h.1.2, h.2⟩

/-- The codes of the last report in the backlog. -/
def lastCode (s : State) : Option Code :=
  match s.re.backlog.getLast? with
  | some (.requestDone c _ _ _) => some c
  | _ => none

/-! ## Small tests, one step each -/

/-- R30, R25: RESET_DONE is in report slot 0, P is 1 and ATTN is asserted. -/
theorem test_powerOnReset :
    let t := after (.powerOnReset 1 {} {}) State.reset
    memBytes t.mem 0x4000 5 = [13, 1, 0, 0, 2] ∧ t.re.producer = 1 ∧ t.attn = true ∧ t.re.refreshCount = 2 := by
  decide +kernel

/-- 02, the first two requests: a LANE_SET is clamped and stored (R26). -/
theorem test_laneSet :
    (after (.laneSet 0) (asking (request 2 1 [1, 7, 40, 0, 0x88, 0x13, 5]) s0)).re.laneSettings[(1 : Fin 4)]
      = { retainDepth := 4, streamingLimit := 40, ageLimit := 5000, lossThreshold := 4 } := by decide +kernel

/-- 02, the first two requests: RESTORE_START of lane 3 with N = 2. -/
theorem test_restoreStart_lane :
    lastCode (after .restoreStart (asking (request 0x13 1 [3]) s0)) = some .badArgument := by decide +kernel

/-- 02: a request producer count 300 ahead of C is not taken and RING_FAULT names 300 and 0. -/
theorem test_requestProducer_ringFault :
    let t := after .requestProducerTake { s0 with wd.requestProducerLatch := { value := 300, pending := true } }
    t.re.takenProducer = 0 ∧ t.re.backlog = [.ringFault false 300 0] := by decide +kernel

/-- R20: a kind that R167 does not list. -/
theorem test_unknown_kind : lastCode (after .unknownKindRequest (asking (request 0x99 0 []) s0)) = some .badKind := by
  decide +kernel

/-- 01 1.3: the example's layout is accepted. -/
theorem test_layoutSet :
    (after .layoutSet (asking (layoutRequest [0, 0x24, 0]) { s0 with wd := {} })).wd.layout = some lay := by
  decide +kernel

/-- 01 1.4: the examples of R10 and of the writes to stream 2. -/
theorem test_aperture_offsets :
    let w : Window := { base := 0x300000, size := 65536 }
    Aperture.displacement { expected := 65000 } w 0x300000 = 536
      ∧ Aperture.displacement { expected := 65000 } w (0x300000 + 64000) = -1000
      ∧ Aperture.sort { expected := 3000, limit := 32768 } (-1000) 2000 = .taken 1000
      ∧ Aperture.sort { expected := 4000, limit := 32768 } 4192 4096 = .gap
      ∧ Aperture.sort { expected := 4000, limit := 32768, held := true } 96 4096 = .dropped
      ∧ Aperture.sort { expected := 4000, limit := 32768, held := true } 0 96 = .taken 0 := by decide +kernel

/-- R7: a write into the report ring is dropped and counted. -/
theorem test_refused_write :
    let t := after (.controllerWrite 0x4000 [1]) s0
    t.wd.refusedCount = 1 ∧ t.wd.lastRefused = 0x4000 ∧ t.mem = [] := by decide +kernel

/-- R4: the middle two bytes of an index word latch nothing. -/
theorem test_partial_index_write :
    (after (.indexWordWrite 0x8001 [1, 2]) s0).wd.requestProducerLatch = {} := by decide +kernel

/-- Lane 0 of 05 section 5.7: D10 D11 R12 R13 O14 F, G = 12, with a live WRITE job. -/
def draining : State :=
  { s0 with
    lanes := s0.lanes.set 0 {
      role := .write, nextGroup := 15, nextSlot := 5, interval := some 24000, lastRelease := some 0
      slots := [.drained 10, .drained 11, .ready 12, .ready 13, .opened 14, .free]
      position := some { slot := 4, frame := 2, offset := 848 }, openedAt := some 0 }
    jt := { jobs := (Vector.replicate 8 {}).set 0 { live := true, record := { tag := 4, state := .active } } }
    cd := { places := (initialPlaces 2).set 0 { state := .occupied 3 }
            records := (Vector.replicate 32 none).set 3 (some {
              label := some #v[79, 70, 67, 48, 48, 52, 49, 55], place := 0, written := 12, limit := 100
              condition := .written }) } }

/-- 05 5.7: the read of slot 3 is misordered. -/
theorem test_misordered_read :
    let t := after (.finalByteRead 0x101FFFF 1 100) draining
    t.lanes[(0 : Fin 4)].counters.misordered = 1 ∧ t.lanes[(0 : Fin 4)].slots = draining.lanes[(0 : Fin 4)].slots := by
  decide +kernel

/-- 05 5.7: the read of slot 2 releases group 12 and frees slot 0. -/
theorem test_release :
    let t := after (.finalByteRead 0x1017FFF 1 100) draining
    t.lanes[(0 : Fin 4)].slots = [.free, .drained 11, .drained 12, .ready 13, .opened 14, .free]
      ∧ (t.cd.records[(3 : Fin 32)].map fun x => x.written) = some 13 := by decide +kernel

/-- 05 5.4: the space before the group limit at frame 6, offset 2,000 of the last group. -/
theorem test_fit_space :
    State.fitSpace { draining with lanes := draining.lanes.set 0 { draining.lanes[(0 : Fin 4)] with
      slots := [.opened 99], position := some { slot := 0, frame := 6, offset := 2000 } } } 0 = 6152 := by decide +kernel

/-- 10 10.3: the mark of station 8 lowers the count to 1 and the duty to creep. -/
theorem test_station_mark :
    let s : State := { s0 with lc := {
      state := .busy, station := some 5, travelCount := 2
      queue := [{ tag := 1, kind := .move, source := some 9, target := some 10, active := true }]
      step := some { kind := .travel, station := 9, part := .moving }, outputs := { motorRun := true, towardHome := false } } }
    let t := after (.stationMark { now := 5, lines := { stationMark := true, retracted := true } }) s
    s.motorDuty = 192 ∧ t.lc.travelCount = 1 ∧ t.motorDuty = 64 := by decide +kernel

/-- 10 10.6: the check byte of label OFC00421 is 0xCF. -/
theorem test_label_check : byteSum [79, 70, 67, 48, 48, 52, 50, 49] = 0xCF := by decide +kernel

/-- R70: the header the packer writes sums to 0. -/
theorem test_frame_header : byteSum (frameHeader 12 0xDEADBEEF (some 848) 7 true 3228) = 0 := by decide +kernel

/-! ## Witnesses: states and operands that meet the hypotheses of the statements -/

theorem witness_StepRunsFrontCommand :
    ({ s0 with pending := [.statusRefresh, .reportWrite] } : State).pending = .statusRefresh :: [.reportWrite]
      ∧ s0.pending = [] := ⟨rfl, rfl⟩

theorem witness_StepKeepsMemoryCanonical :
    let s : State := { s0 with mem := [(5, 1)], pending := [.controllerWrite 0x20000 [7, 0]] }
    memoryCanonical s ∧ ∃ t, step s = .next t ∧ t.mem = [(5, 1), (0x20000, 7)] := by
  exact ⟨rfl, _, rfl, by decide +kernel⟩

theorem witness_ChangesMarkImageStale :
    ∃ t, exec (.controllerWrite 0x4000 [1]) s0 = .next t ∧ imageRecords t ≠ imageRecords s0 :=
  ⟨_, rfl, by decide +kernel⟩

/-- The last address of the space, and the first. -/
theorem witness_ControllerWritePasses :
    running s0 ∧ transactionOk 0xFFFFFFFF 1 = true ∧ s0.classOf 0xFFFFFFFF = .memory
      ∧ transactionOk 0 4096 = true ∧ s0.classOf 0 = .memory := ⟨rfl, by decide +kernel⟩

/-- A part-owned region, an aperture of a FREE stream, a return ring of an IDLE lane. -/
theorem witness_OwnerlessWriteDropped :
    running s0 ∧ transactionOk 0x4000 1 = true ∧ s0.classOf 0x7FFF = .partOwned
      ∧ s0.classOf 0x100000 = .streamAperture 0 ∧ s0.streams[(0 : Fin 4)].phase = .free
      ∧ s0.classOf 0x27FFFFF = .returnRing 1 ∧ s0.lanes[(1 : Fin 4)].role ≠ .read := ⟨rfl, by decide +kernel⟩

theorem witness_IndexWordLatched :
    running s0 ∧ transactionOk 0x8000 64 = true ∧ s0.classOf 0x8000 = .indexPage
      ∧ transactionOk 0x8FFF 1 = true ∧ s0.classOf 0x8FFF = .indexPage := ⟨rfl, by decide +kernel⟩

theorem witness_ApertureOffsetNearest :
    let w : Window := { base := 0x300000, size := 65536 }
    0 < w.size ∧ w.size % 2 = 0 ∧ w.base ≤ 0x300000 := by decide

/-- Stream 0 is open for the job of slot 0, its first chunk FILLING. -/
def streaming : State :=
  { s0 with
    streams := s0.streams.set 0 {
      phase := .opened, slot := some 0, buffers := #v[{ state := .filling, data := [1, 2] }, {}] }
    wd := { s0.wd with streamAperture := s0.wd.streamAperture.set 0 { expected := 2, limit := 32768 } }
    jt := { jobs := s0.jt.jobs.set 0 { live := true, record := { tag := 7, state := .active } } } }

theorem witness_StreamWriteAccepted :
    running streaming ∧ transactionOk 0x100002 3 = true ∧ streaming.wd.layout = some lay
      ∧ streaming.classOf 0x100002 = .streamAperture 0 ∧ streaming.streams[(0 : Fin 4)].phase = .opened
      ∧ streaming.waiting (.stream 0) = false ∧ streaming.wd.streamAperture[(0 : Fin 4)].held = false
      ∧ streaming.wd.streamAperture[(0 : Fin 4)].displacement lay.apertures[(0 : Fin 4)] 0x100002 = 0
      ∧ 3 ≤ ahead streaming.wd.streamAperture[(0 : Fin 4)].limit streaming.wd.streamAperture[(0 : Fin 4)].expected
      ∧ streaming.streams[(0 : Fin 4)].buffers[(0 : Fin 2)].state = .filling
      ∧ streaming.streams[(0 : Fin 4)].buffers[(0 : Fin 2)].data.length + 3 < 16384 := ⟨rfl, by decide +kernel⟩

/-- A gap, while ACCEPTING and while HELD. -/
theorem witness_StreamGapHolds :
    let held : State := { streaming with wd := { streaming.wd with streamAperture := streaming.wd.streamAperture.set 0 {
      expected := 2, limit := 32768, held := true } } }
    running streaming ∧ running held ∧ transactionOk 0x100003 1 = true
      ∧ streaming.classOf 0x100003 = .streamAperture 0 ∧ held.classOf 0x100003 = .streamAperture 0
      ∧ streaming.streams[(0 : Fin 4)].slot = some 0 ∧ streaming.re.hasRoom = true
      ∧ 0 < streaming.wd.streamAperture[(0 : Fin 4)].displacement lay.apertures[(0 : Fin 4)] 0x100003
      ∧ streaming.wd.streamAperture[(0 : Fin 4)].held = false ∧ held.wd.streamAperture[(0 : Fin 4)].held = true :=
  ⟨rfl, rfl, by decide +kernel⟩

/-- Lane 0 reads for the VERIFY job of slot 0, tag 5, of the cartridge in drive 0. -/
def reading : State :=
  { s0 with
    lanes := s0.lanes.set 0 { s0.lanes[(0 : Fin 4)] with role := .read }
    framers := s0.framers.set 0 { slot := some 0, phase := .taking }
    wd := { s0.wd with ringAperture := s0.wd.ringAperture.set 0 { expected := 0, limit := 0x400000 } }
    jt := { jobs := s0.jt.jobs.set 0 {
      live := true, record := { tag := 5, kind := .verify, state := .active, cart := 3, lastGroup := 9 } } }
    cd := draining.cd }

theorem witness_RingWriteAccepted :
    running reading ∧ transactionOk 0x2000000 1 = true ∧ reading.wd.layout = some lay
      ∧ reading.classOf 0x2000000 = .returnRing 0 ∧ reading.lanes[(0 : Fin 4)].role = .read
      ∧ reading.framers[(0 : Fin 4)].phase = .taking ∧ reading.wd.ringAperture[(0 : Fin 4)].held = false
      ∧ reading.wd.ringAperture[(0 : Fin 4)].displacement lay.rings[(0 : Fin 4)] 0x2000000 = 0
      ∧ 1 ≤ ahead reading.wd.ringAperture[(0 : Fin 4)].limit reading.wd.ringAperture[(0 : Fin 4)].expected :=
  ⟨rfl, by decide +kernel⟩

theorem witness_ReadReturnsMemory :
    running s0 ∧ transactionOk 0x1007000 4095 = true ∧ s0.finalByteOf (0x1007000 + 4095 - 1) = none :=
  ⟨rfl, by decide +kernel⟩

/-- No bytes, and one byte across a boundary. -/
theorem witness_MalformedTransactionRefused :
    ([] : List Byte).length = 0 ∧ 4096 < (0xFFF : Word).toNat % 4096 + [(1 : Byte), 2].length := by decide

/-- A request producer count is pending. -/
def producerPending (v : Word) : State := { s0 with wd := { s0.wd with requestProducerLatch := { value := v, pending := true } } }

/-- A report consumer count is pending, P at 512. -/
def consumerPending (v : Word) : State :=
  { s0 with wd := { s0.wd with reportConsumerLatch := { value := v, pending := true } }, re := { producer := 512 } }

/-- 256 ahead and 257 ahead; a report count taken and one not. -/
theorem witness_RequestLatchesTaken :
    (running (producerPending 256) ∧ (producerPending 256).wd.requestProducerLatch.pending = true
        ∧ (producerPending 256).waiting .requestEngine = false ∧ (producerPending 256).re.hasRoom = true)
      ∧ (running (producerPending 257) ∧ (producerPending 257).wd.requestProducerLatch.pending = true
        ∧ (producerPending 257).waiting .requestEngine = false ∧ (producerPending 257).re.hasRoom = true)
      ∧ (running (consumerPending 512) ∧ (consumerPending 512).wd.reportConsumerLatch.pending = true
        ∧ (consumerPending 512).re.hasRoom = true)
      ∧ (running (consumerPending 513) ∧ (consumerPending 513).wd.reportConsumerLatch.pending = true
        ∧ (consumerPending 513).re.hasRoom = true) :=
  ⟨⟨rfl, rfl, rfl, rfl⟩, ⟨rfl, rfl, rfl, rfl⟩, ⟨rfl, rfl, rfl⟩, ⟨rfl, rfl, rfl⟩⟩

/-- A catalog consumer count is pending, P at 8. -/
def catalogPending (v : Word) : State :=
  { s0 with wd := { s0.wd with catalogConsumerLatch := { value := v, pending := true } }, sc := { producer := 8 } }

/-- A restore consumer count of slot 7 is pending. -/
def restorePending (live : Bool) : State :=
  { s0 with
    wd := { s0.wd with restoreConsumerLatch := s0.wd.restoreConsumerLatch.set 7 { value := 16, pending := true } }
    jt := { jobs := s0.jt.jobs.set 7 { live := live, record := { tag := 1, kind := .restore } } } }

/-- A count taken and one not; a slot with a live RESTORE job and one without. -/
theorem witness_ConsumerLatchesTaken :
    (running (catalogPending 8) ∧ (catalogPending 8).wd.catalogConsumerLatch.pending = true
        ∧ (catalogPending 8).sc.operation = none)
      ∧ (running (catalogPending 9) ∧ (catalogPending 9).wd.catalogConsumerLatch.pending = true
        ∧ (catalogPending 9).sc.operation = none)
      ∧ (running (restorePending true) ∧ (restorePending true).wd.restoreConsumerLatch[(7 : Fin 8)].pending = true
        ∧ (restorePending true).jt.jobs[(7 : Fin 8)].live = true
        ∧ (restorePending true).jt.jobs[(7 : Fin 8)].record.kind = .restore)
      ∧ (running (restorePending false) ∧ (restorePending false).wd.restoreConsumerLatch[(7 : Fin 8)].pending = true
        ∧ (restorePending false).jt.jobs[(7 : Fin 8)].live = false) :=
  ⟨⟨rfl, rfl, rfl⟩, ⟨rfl, rfl, rfl⟩, ⟨rfl, rfl, rfl, rfl⟩, ⟨rfl, rfl, rfl⟩⟩

/-! ### Requests -/

/-- An unknown kind; a lane equal to N; a stream of 4; a tag of 0 and a tag of 256. -/
theorem witness_EarlyChecksRefuse :
    RequestNext (asking (request 0 1 []) s0) none (request 0 1 [])
      ∧ (requestRow (.laneSet 0) = some .laneSet
        ∧ RequestNext (asking (request 2 1 [2]) s0) (some .laneSet) (request 2 1 [2]) ∧ 2 ≤ recordLane .laneSet (request 2 1 [2]))
      ∧ (RequestNext (asking (request 0x10 1 [4, 0]) s0) (some .writeStart) (request 0x10 1 [4, 0])
        ∧ 4 ≤ argByte (request 0x10 1 [4, 0]) 4)
      ∧ (∀ tag ∈ [0, 256], RequestNext (asking (request 0x43 tag []) s0) (some .inventory) (request 0x43 tag [])
        ∧ ¬ (1 ≤ recordTag (request 0x43 tag []) ∧ recordTag (request 0x43 tag []) ≤ 255)) := by
  refine ⟨next_of_ok (by decide +kernel), ⟨rfl, next_of_ok (by decide +kernel), by decide +kernel⟩,
    ⟨next_of_ok (by decide +kernel), by decide +kernel⟩, ?_⟩
  simp only [List.mem_cons, List.not_mem_nil, or_false, forall_eq_or_imp, forall_eq]
  exact ⟨⟨next_of_ok (by decide +kernel), by decide +kernel⟩, ⟨next_of_ok (by decide +kernel), by decide +kernel⟩⟩

/-- JOB_END with no live job. -/
theorem witness_RefusalHasNoOtherEffect :
    let r := request 0x14 1 []
    let s := asking r s0
    requestRow .jobEnd = some .jobEnd ∧ RequestNext s (some .jobEnd) r ∧ s.preCheck .jobEnd r = true
      ∧ s.ownerReady .jobEnd r = true ∧ (sampled .jobEnd s).decision .jobEnd r = .error .noJob :=
  ⟨rfl, next_of_ok (by decide +kernel), by decide +kernel, by decide +kernel, rfl⟩

/-- A table that R6 accepts and one that it does not. -/
theorem witness_LayoutSetAcceptsValid :
    ∀ x ∈ [([0, 0x24, 0], true), ([0x80, 0x23, 0], false)],
      let r := layoutRequest x.1
      let s := asking r s0
      RequestNext s (some .layoutSet) r ∧ (∀ k : SlotId, s.jt.jobs[k].live = false) ∧ (∀ n : LaneId, s.lanes[n].role = .idle)
        ∧ (recordLayout s.driveCount r).valid s.driveCount = x.2 := by
  simp only [List.mem_cons, List.not_mem_nil, or_false, forall_eq_or_imp, forall_eq]
  exact ⟨⟨next_of_ok (by decide +kernel), by decide +kernel⟩, ⟨next_of_ok (by decide +kernel), by decide +kernel⟩⟩

theorem witness_SettingsClamped :
    (let r := request 2 1 [1, 7, 40, 0, 0x88, 0x13, 5]
     let s := asking r s0
     RequestNext s (some .laneSet) r ∧ laneNamed s (argByte r 4) 1 ∧ s.lanes[(1 : Fin 4)].openedAt = none
      ∧ s.lanes[(1 : Fin 4)].drainedCount ≤ min (min (argByte r 5) 4) (s.lanes[(1 : Fin 4)].slots.length - 1))
    ∧ RequestNext (asking (request 3 1 [0, 1]) s0) (some .loaderSet) (request 3 1 [0, 1]) := by
  unfold laneNamed
  exact ⟨⟨next_of_ok (by decide +kernel), by decide +kernel⟩, next_of_ok (by decide +kernel)⟩

/-- The ring with one place left, and full. -/
theorem witness_ReportWritten :
    ∀ p ∈ [(511 : Word), 512],
      let s : State := { s0 with re := { producer := p, backlog := [.ringFault false 1 2] } }
      running s ∧ s.re.backlog = .ringFault false 1 2 :: [] := by
  intro p _; exact ⟨rfl, rfl⟩

/-- A full backlog; a waiting stream; the Request Engine waiting for its reservation. -/
theorem witness_BacklogAdmitted :
    (let s : State := { s0 with re := { backlog := List.replicate 63 (.ringFault false 1 2), reservation := true } }
     running s ∧ 64 ≤ s.re.backlog.length + (if s.re.reservation then 1 else 0))
    ∧ (let s : State := { s0 with re := { waiters := [{ unit := .stream 0, item := .post (.ringFault false 1 2) }] } }
       running s ∧ s.re.backlog.length + (if s.re.reservation then 1 else 0) < 64 ∧ s.re.inHand = none
        ∧ s.re.pendingRingFault = none)
    ∧ (let s : State := { s0 with re := {
        waiters := [{ unit := .requestEngine, item := .reservation }]
        inHand := some { bytes := request 0 1 [], reserved := false }, backlog := List.replicate 63 (.ringFault false 1 2) } }
       running s ∧ s.re.backlog.length < 64 ∧ s.re.reservation = false ∧ recordKind (request 0 1 []) = none) := by
  exact ⟨⟨rfl, by decide +kernel⟩, ⟨rfl, by decide +kernel⟩, ⟨rfl, by decide +kernel⟩⟩

theorem witness_StatusRefreshed :
    let s : State := { s0 with re := { stale := true, refreshCount := 0xFFFFFFFE, producer := 3 } }
    running s ∧ s.re.stale = true ∧ s.re.refreshCount.toNat % 2 = 0 := ⟨rfl, by decide⟩

theorem witness_PartResetClears :
    let s := asking (request 4 0x1234 []) { s0 with re := { refreshCount := 6 } }
    running s ∧ s.waiting .requestEngine = false ∧ s.re.inHand = none ∧ s.re.consumer ≠ s.re.takenProducer
      ∧ recordKind s.requestRecord = some .partReset ∧ s.re.refreshCount.toNat % 2 = 0 ∧ s.lc.step = none ∧ s.cd.held = []
      ∧ (¬ pickerLoaded s ∧ ({} : Lines).cartridgePresent = false) := by
  refine ⟨rfl, by decide +kernel, rfl, by decide +kernel, by decide +kernel, by decide +kernel, rfl, rfl, ?_, rfl⟩
  rintro ⟨c, h⟩
  exact absurd h (by simp [asking, s0, State.reset, initialPlaces, pickerPlace])

theorem witness_ResetHoldsPart :
    State.reset.resetAsserted = true ∧ (∀ d l x, Instr.statusRefresh ≠ .powerOnReset d l x)
      ∧ Instr.statusRefresh ≠ .resetNAsserted ∧ Instr.statusRefresh.wellFormed = true :=
  ⟨rfl, nofun, nofun, rfl⟩

/-- The cartridge OFC00417 in drive 0, G = 12, L = 100. -/
def cart3 : CartRecord :=
  { label := some #v[79, 70, 67, 48, 48, 52, 49, 55], place := 0, written := 12, limit := 100, condition := .written }

/-- Drive 0 holds it; every lane is IDLE and no job is live. -/
def loaded : State := { s0 with cd := draining.cd }

theorem loaded_drive (r : List Byte) (p : CartRecord → Prop) : inDrive (asking r loaded) 0 p ↔ p cart3 :=
  inDrive_iff (c := 3) rfl rfl

/-- WRITE_START of stream 0 on lane 0. -/
def writeRequest : List Byte := request 0x10 7 [0, 0, 0, 0, 100]

/-- The first code of the table, with no layout; the last, with L = G. -/
theorem witness_WriteStartRefused :
    (let s := asking writeRequest { loaded with wd := {} }
     RequestNext s (some .writeStart) writeRequest ∧ laneNamed s (argByte writeRequest 5) 0
      ∧ argByte writeRequest 4 = (0 : StreamId).val ∧ 1 ≤ recordTag writeRequest ∧ recordTag writeRequest ≤ 255
      ∧ s.waiting .jobTable = false ∧ firstHolds .noLayout (writeStartRefusals s writeRequest 0 0))
    ∧ (let s := asking writeRequest { loaded with cd := { loaded.cd with
        records := loaded.cd.records.set 3 (some { cart3 with limit := 12 }) } }
       RequestNext s (some .writeStart) writeRequest ∧ laneNamed s (argByte writeRequest 5) 0
        ∧ s.waiting .jobTable = false ∧ firstHolds .cartridgeLimit (writeStartRefusals s writeRequest 0 0)) := by
  unfold laneNamed
  refine ⟨⟨next_of_ok (by decide +kernel), by decide +kernel, by decide +kernel, by decide +kernel, by decide +kernel,
    by decide +kernel, Or.inl ⟨rfl, rfl⟩⟩, ⟨next_of_ok (by decide +kernel), by decide +kernel, by decide +kernel, ?_⟩⟩
  have h (p : CartRecord → Prop) := inDrive_iff (p := p) (n := 0) (c := 3) (x := { cart3 with limit := 12 })
    (s := asking writeRequest { loaded with cd := { loaded.cd with
        records := loaded.cd.records.set 3 (some { cart3 with limit := 12 }) } }) rfl rfl
  simp only [writeStartRefusals, startRefusals, driveRefusals, List.cons_append, List.nil_append, firstHolds, h]
  decide +kernel

theorem witness_WriteStartAccepted :
    let s := asking writeRequest loaded
    RequestNext s (some .writeStart) writeRequest ∧ laneNamed s (argByte writeRequest 5) 0
      ∧ argByte writeRequest 4 = (0 : StreamId).val ∧ 1 ≤ recordTag writeRequest ∧ recordTag writeRequest ≤ 255
      ∧ s.waiting .jobTable = false ∧ noneHolds (writeStartRefusals s writeRequest 0 0) ∧ lowestFree s 0
      ∧ s.cd.places[drivePlace 0].state = .occupied 3 ∧ s.cd.records[(3 : Fin 32)] = some cart3 := by
  unfold laneNamed lowestFree
  refine ⟨next_of_ok (by decide +kernel), by decide +kernel, by decide +kernel, by decide +kernel, by decide +kernel,
    by decide +kernel, ?_, by decide +kernel, rfl, rfl⟩
  simp only [writeStartRefusals, startRefusals, driveRefusals, List.cons_append, List.nil_append, noneHolds, loaded_drive]
  decide +kernel

/-- VERIFY_START of groups 5 to `last` on lane 0. -/
def verifyRequest (last : Nat) : List Byte := request 0x12 7 [0, 0, 0, 0, 5, 0, 0, 0, last]

/-- RESTORE_START of chunks 3 to 9 of tag 4 on lane 0, a ring of 64 KiB at the restore area's base. -/
def restoreRequest (tag : Nat) : List Byte :=
  request 0x13 7 [0, tag, 0, 0, 3, 0, 0, 0, 9, 0, 0, 0, 0, 0, 0, 4, 0, 0, 1, 0]

/-- A last group equal to G; a source tag of 0. -/
theorem witness_ReadStartsRefused :
    (let s := asking (verifyRequest 12) loaded
     laneNamed s (argByte (verifyRequest 12) 4) 0 ∧ 1 ≤ recordTag (verifyRequest 12) ∧ recordTag (verifyRequest 12) ≤ 255
      ∧ s.waiting .jobTable = false ∧ s.waiting (.framer 0) = false ∧ RequestNext s (some .verifyStart) (verifyRequest 12)
      ∧ firstHolds .rangeInvalid (verifyStartRefusals s (verifyRequest 12) 0))
    ∧ (let s := asking (restoreRequest 0) loaded
       laneNamed s (argByte (restoreRequest 0) 4) 0 ∧ s.waiting .jobTable = false ∧ s.waiting (.framer 0) = false
        ∧ RequestNext s (some .restoreStart) (restoreRequest 0)
        ∧ firstHolds .badArgument (restoreStartRefusals s (restoreRequest 0) 0 ((s.wd.layout.getD {}).restore))) := by
  unfold laneNamed
  refine ⟨⟨by decide +kernel, by decide +kernel, by decide +kernel, by decide +kernel, by decide +kernel,
    next_of_ok (by decide +kernel), ?_⟩, ⟨by decide +kernel, by decide +kernel, by decide +kernel,
    next_of_ok (by decide +kernel), ?_⟩⟩
  · simp only [verifyStartRefusals, startRefusals, driveRefusals, List.cons_append, List.nil_append, firstHolds, loaded_drive]
    decide +kernel
  · simp only [restoreStartRefusals, startRefusals, driveRefusals, List.cons_append, List.nil_append, firstHolds]
    decide +kernel

theorem witness_VerifyStartAccepted :
    let s := asking (verifyRequest 11) loaded
    RequestNext s (some .verifyStart) (verifyRequest 11) ∧ laneNamed s (argByte (verifyRequest 11) 4) 0
      ∧ 1 ≤ recordTag (verifyRequest 11) ∧ recordTag (verifyRequest 11) ≤ 255 ∧ s.waiting .jobTable = false
      ∧ s.waiting (.framer 0) = false ∧ noneHolds (verifyStartRefusals s (verifyRequest 11) 0) ∧ lowestFree s 0
      ∧ s.cd.places[drivePlace 0].state = .occupied 3 ∧ s.cd.records[(3 : Fin 32)] = some cart3 ∧ s.wd.layout = some lay
      ∧ catalogBounded s lay := by
  unfold laneNamed lowestFree catalogBounded
  refine ⟨next_of_ok (by decide +kernel), by decide +kernel, by decide +kernel, by decide +kernel, by decide +kernel,
    by decide +kernel, ?_, by decide +kernel, rfl, rfl, rfl, by decide +kernel⟩
  simp only [verifyStartRefusals, startRefusals, driveRefusals, List.cons_append, List.nil_append, noneHolds, loaded_drive]
  decide +kernel

theorem witness_RestoreStartAccepted :
    let s := asking (restoreRequest 4) loaded
    RequestNext s (some .restoreStart) (restoreRequest 4) ∧ laneNamed s (argByte (restoreRequest 4) 4) 0
      ∧ 1 ≤ recordTag (restoreRequest 4) ∧ recordTag (restoreRequest 4) ≤ 255 ∧ s.waiting .jobTable = false
      ∧ s.waiting (.framer 0) = false ∧ s.wd.layout = some lay
      ∧ noneHolds (restoreStartRefusals s (restoreRequest 4) 0 lay.restore) ∧ lowestFree s 0
      ∧ s.cd.places[drivePlace 0].state = .occupied 3 ∧ s.cd.records[(3 : Fin 32)] = some cart3 := by
  unfold laneNamed lowestFree
  refine ⟨next_of_ok (by decide +kernel), by decide +kernel, by decide +kernel, by decide +kernel, by decide +kernel,
    by decide +kernel, rfl, ?_, by decide +kernel, rfl, rfl⟩
  simp only [restoreStartRefusals, startRefusals, driveRefusals, List.cons_append, List.nil_append, noneHolds]
  decide +kernel

/-- No job with the tag; an ACTIVE job with its FILLING chunk; a DRAINING one. -/
theorem witness_StreamCloseCloses :
    let r := request 0x11 7 []
    (RequestNext (asking r s0) (some .streamClose) r ∧ jobTableFree (asking r s0)
      ∧ ∀ k : SlotId, (asking r s0).jt.jobs[k].live = true → (asking r s0).jt.jobs[k].record.tag.toNat = recordTag r →
        (asking r s0).jt.jobs[k].record.kind ≠ .write)
    ∧ (let s := asking r streaming
       RequestNext s (some .streamClose) r ∧ jobTableFree s ∧ liveOnly s 0 (recordTag r)
        ∧ s.jt.jobs[(0 : Fin 8)].record.kind = .write ∧ s.jt.jobs[(0 : Fin 8)].record.state = .active
        ∧ s.streams[(0 : Fin 4)].slot = some 0 ∧ s.streams[(0 : Fin 4)].buffers[(0 : Fin 2)].state = .filling
        ∧ s.jt.jobs[(0 : Fin 8)].record.nextSeq ≠ 0xFFFFFFFF)
    ∧ (let s := asking r { streaming with jt := { jobs := streaming.jt.jobs.set 0 {
        live := true, record := { tag := 7, state := .draining } } } }
       RequestNext s (some .streamClose) r ∧ jobTableFree s ∧ liveOnly s 0 (recordTag r)
        ∧ s.jt.jobs[(0 : Fin 8)].record.state = .draining) := by
  unfold jobTableFree liveOnly
  exact ⟨⟨next_of_ok (by decide +kernel), by decide +kernel, by decide +kernel⟩,
    ⟨next_of_ok (by decide +kernel), by decide +kernel⟩, ⟨next_of_ok (by decide +kernel), by decide +kernel⟩⟩

/-- No such job; an ACTIVE VERIFY job; one in ENDING. -/
theorem witness_JobEndEnters :
    let r := request 0x14 5 []
    (RequestNext (asking r s0) (some .jobEnd) r ∧ jobTableFree (asking r s0)
      ∧ ∀ k : SlotId, (asking r s0).jt.jobs[k].live = true → (asking r s0).jt.jobs[k].record.tag.toNat = recordTag r →
        (asking r s0).jt.jobs[k].record.kind = .write)
    ∧ (let s := asking r reading
       RequestNext s (some .jobEnd) r ∧ jobTableFree s ∧ liveOnly s 0 (recordTag r)
        ∧ s.jt.jobs[(0 : Fin 8)].record.kind ≠ .write ∧ s.waiting (.framer 0) = false
        ∧ s.jt.jobs[(0 : Fin 8)].record.state = .active ∧ s.framers[(0 : Fin 4)].phase = .taking ∧ s.wd.layout = some lay
        ∧ s.de.operation = none ∧ (∀ x ∈ s.de.queue, x.lane ≠ 0 ∧ x.slot ≠ 0) ∧ 0 ∉ s.de.due)
    ∧ (let s := asking r { reading with jt := { jobs := reading.jt.jobs.set 0 {
        live := true, record := { tag := 5, kind := .verify, state := .ending } } } }
       RequestNext s (some .jobEnd) r ∧ liveOnly s 0 (recordTag r) ∧ s.jt.jobs[(0 : Fin 8)].record.kind ≠ .write
        ∧ s.waiting (.framer 0) = false ∧ s.jt.jobs[(0 : Fin 8)].record.state = .ending) := by
  unfold jobTableFree liveOnly
  exact ⟨⟨next_of_ok (by decide +kernel), by decide +kernel, by decide +kernel⟩,
    ⟨next_of_ok (by decide +kernel), by decide +kernel⟩, ⟨next_of_ok (by decide +kernel), by decide +kernel⟩⟩

/-- No such job; a DRAINING WRITE job; an ACTIVE one with a COMPRESSING chunk; an ACTIVE VERIFY job. -/
theorem witness_JobAborted :
    let r := request 0x15 7 []
    let e : ChunkEntry := { stream := 0, buffer := 1, slot := 0, tag := 7, lane := 0, sequence := 3, rawLength := 2, rawCheck := 0, order := 0 }
    (RequestNext (asking r s0) (some .jobAbort) r ∧ jobTableFree (asking r s0)
      ∧ ∀ k : SlotId, (asking r s0).jt.jobs[k].live = true → (asking r s0).jt.jobs[k].record.tag.toNat ≠ recordTag r)
    ∧ (let s := asking r { streaming with jt := { jobs := streaming.jt.jobs.set 0 {
        live := true, record := { tag := 7, state := .draining } } } }
       RequestNext s (some .jobAbort) r ∧ jobTableFree s ∧ liveOnly s 0 (recordTag r)
        ∧ s.jt.jobs[(0 : Fin 8)].record.kind = .write ∧ s.jt.jobs[(0 : Fin 8)].record.state = .draining)
    ∧ (let s := asking r { streaming with
        streams := s0.streams.set 0 { phase := .opened, slot := some 0, buffers := #v[{ state := .filling }, { state := .compressing }] }
        ce := { inFlight := some { entry := e } } }
       RequestNext s (some .jobAbort) r ∧ jobTableFree s ∧ liveOnly s 0 (recordTag r)
        ∧ s.jt.jobs[(0 : Fin 8)].record.kind = .write ∧ s.jt.jobs[(0 : Fin 8)].record.state = .active
        ∧ s.ce.inFlight = some { entry := e } ∧ s.streams[(0 : Fin 4)].buffers[e.buffer].state = .compressing)
    ∧ (let s := asking (request 0x15 5 []) reading
       RequestNext s (some .jobAbort) (request 0x15 5 []) ∧ jobTableFree s ∧ liveOnly s 0 (recordTag (request 0x15 5 []))
        ∧ s.jt.jobs[(0 : Fin 8)].record.kind ≠ .write ∧ s.waiting (.framer 0) = false ∧ roomFor s 1 ∧ s.de.holding = []
        ∧ s.framers[(0 : Fin 4)].phase ≠ .unbound) := by
  unfold jobTableFree liveOnly roomFor
  exact ⟨⟨next_of_ok (by decide +kernel), by decide +kernel, by decide +kernel⟩,
    ⟨next_of_ok (by decide +kernel), by decide +kernel⟩, ⟨next_of_ok (by decide +kernel), by decide +kernel⟩,
    ⟨next_of_ok (by decide +kernel), by decide +kernel⟩⟩

/-- An UNBOUND Framer; a TAKING one in SEARCH; one in LOCK. -/
theorem witness_LaneResynced :
    let r := request 0x20 0 [0]
    let locked : State := { reading with framers := reading.framers.set 0 {
      slot := some 0, phase := .taking, sync := .locked, expected := some { group := 5, index := 0 } } }
    (let s := asking r s0
     RequestNext s (some .laneResync) r ∧ laneNamed s (argByte r 4) 0 ∧ s.waiting (.framer 0) = false
      ∧ s.framers[(0 : Fin 4)].phase ≠ .taking)
    ∧ (let s := asking r reading
       RequestNext s (some .laneResync) r ∧ laneNamed s (argByte r 4) 0 ∧ s.framers[(0 : Fin 4)].phase = .taking
        ∧ s.wd.layout = some lay ∧ s.framers[(0 : Fin 4)].pastLast = false ∧ s.framers[(0 : Fin 4)].sync ≠ .locked)
    ∧ (let s := asking r locked
       RequestNext s (some .laneResync) r ∧ laneNamed s (argByte r 4) 0 ∧ s.framers[(0 : Fin 4)].phase = .taking
        ∧ s.framers[(0 : Fin 4)].sync = .locked ∧ roomFor s 1) := by
  unfold laneNamed roomFor
  exact ⟨⟨next_of_ok (by decide +kernel), by decide +kernel⟩, ⟨next_of_ok (by decide +kernel), by decide +kernel⟩,
    ⟨next_of_ok (by decide +kernel), by decide +kernel⟩⟩

/-- A WRITE lane and a READ lane. -/
theorem witness_LaneResets :
    let r := request 0x21 0 [0]
    (let s := asking r draining
     RequestNext s (some .laneReset) r ∧ laneNamed s (argByte r 4) 0 ∧ jobTableFree s ∧ s.waiting (.laneUnit 0) = false
      ∧ s.waiting (.framer 0) = false ∧ s.wd.layout = some lay ∧ catalogBounded s lay ∧ roomFor s 8 ∧ s.de.holding = []
      ∧ s.lanes[(0 : Fin 4)].role = .write ∧ s.cd.places[drivePlace 0].state = .occupied 3)
    ∧ (let s := asking r reading
       RequestNext s (some .laneReset) r ∧ laneNamed s (argByte r 4) 0 ∧ jobTableFree s ∧ catalogBounded s lay ∧ roomFor s 8
        ∧ s.lanes[(0 : Fin 4)].role ≠ .write) := by
  unfold laneNamed jobTableFree catalogBounded roomFor
  exact ⟨⟨next_of_ok (by decide +kernel), by decide +kernel⟩, ⟨next_of_ok (by decide +kernel), by decide +kernel⟩⟩

theorem loaded_low : ∀ d : CartId, d.val < 3 → loaded.cd.records[d] = none := by decide +kernel

/-- By place: the absent drive 2, an UNKNOWN place, refused values and accepted ones; by label: a bad character, no such label,
the record. -/
theorem witness_CartridgeSetDecided :
    let byPlace (p : Nat) (condition g : Nat) := request 0x30 0 [0, p, condition, 0, 0, 0, 0, 0, 0, 0, 0, 0, g, 0, 0, 0, 0, 0, 0, 0, 99]
    let byLabel (last : Nat) := request 0x30 0 [1, 0, 2, 0, 79, 70, 67, 48, 48, 52, 49, last, 99, 0, 0, 0, 0, 0, 0, 0, 99]
    (RequestNext (asking (byPlace 2 2 0) loaded) (some .cartridgeSet) (byPlace 2 2 0)
      ∧ firstHolds Code.badArgument [(29 < argByte (byPlace 2 2 0) 5
          ∨ ((asking (byPlace 2 2 0) loaded).driveCount ≤ argByte (byPlace 2 2 0) 5 ∧ argByte (byPlace 2 2 0) 5 < 4), .badArgument)])
    ∧ (∃ p : PlaceId, p.val = argByte (byPlace 28 2 0) 5 ∧ (asking (byPlace 28 2 0) loaded).cd.places[p].state = .unknown)
    ∧ (let s := asking (byPlace 0 2 99) loaded
       RequestNext s (some .cartridgeSet) (byPlace 0 2 99) ∧ argByte (byPlace 0 2 99) 4 = 0
        ∧ (0 : PlaceId).val = argByte (byPlace 0 2 99) 5 ∧ s.cd.places[(0 : PlaceId)].state = .occupied 3
        ∧ s.cd.records[(3 : Fin 32)] = some cart3 ∧ fieldNat (byPlace 0 2 99) 16 4 ≤ fieldNat (byPlace 0 2 99) 24 4)
    ∧ (let s := asking (byPlace 0 3 0) loaded
       RequestNext s (some .cartridgeSet) (byPlace 0 3 0) ∧ argByte (byPlace 0 3 0) 6 ≠ 1 ∧ argByte (byPlace 0 3 0) 6 ≠ 2)
    ∧ ((argLabel (byLabel 0x7F) 8).toList.any (fun y => decide (y.toNat < 0x20 ∨ 0x7E < y.toNat)) = true
      ∧ RequestNext (asking (byLabel 0x7F) loaded) (some .cartridgeSet) (byLabel 0x7F))
    ∧ (argLabel (byLabel 56) 8 ≠ #v[79, 70, 67, 48, 48, 52, 49, 55]
      ∧ RequestNext (asking (byLabel 56) loaded) (some .cartridgeSet) (byLabel 56))
    ∧ (let s := asking (byLabel 55) loaded
       RequestNext s (some .cartridgeSet) (byLabel 55) ∧ argByte (byLabel 55) 4 = 1
        ∧ (∀ y ∈ (argLabel (byLabel 55) 8).toList, 0x20 ≤ y.toNat ∧ y.toNat ≤ 0x7E)
        ∧ labelled s (argLabel (byLabel 55) 8) 3 cart3) := by
  refine ⟨⟨next_of_ok (by decide +kernel), Or.inl ⟨by decide +kernel, rfl⟩⟩, by decide +kernel,
    ⟨next_of_ok (by decide +kernel), by decide +kernel, by decide +kernel, rfl, rfl, by decide +kernel⟩,
    ⟨next_of_ok (by decide +kernel), by decide +kernel⟩, ⟨by decide +kernel, next_of_ok (by decide +kernel)⟩,
    ⟨by decide +kernel, next_of_ok (by decide +kernel)⟩,
    ⟨next_of_ok (by decide +kernel), by decide +kernel, by decide +kernel, ?_⟩⟩
  refine ⟨rfl, by decide +kernel, ?_⟩
  intro d hd y hy
  exact absurd ((loaded_low d hd).symm.trans hy) (by simp)

/-! ### The Compressor, the packer, the releases -/

/-- The entry of the first chunk of stream 0. -/
def entry0 : ChunkEntry :=
  { stream := 0, buffer := 0, slot := 0, tag := 7, lane := 0, sequence := 100, rawLength := 13, rawCheck := 5, order := 0 }

/-- Stream 0 with its first buffer in a state, at its accept limit. -/
def chunk (x : BufferState) (h : Option SegmentHeader) : State :=
  { draining with
    streams := s0.streams.set 0 {
      phase := .opened, slot := some 0, buffers := #v[{ state := x, data := chunkABC, entry := some entry0, header := h }, {}] }
    wd := { s0.wd with streamAperture := s0.wd.streamAperture.set 0 { expected := 13, limit := 16397 } } }

theorem chunk_slot (x : BufferState) (h : Option SegmentHeader) {k : SlotId}
    (hk : (chunk x h).streams[(0 : Fin 4)].slot = some k) : k = 0 :=
  Option.some.inj (hk.symm.trans (rfl : _ = some (0 : SlotId)))

theorem chunk_bound (x : BufferState) (h : Option SegmentHeader) : streamBound (chunk x h) 0 :=
  ⟨⟨rfl, rfl⟩, fun k hk _ => by have := chunk_slot x h hk; subst this; rfl⟩

theorem chunk_stays (x : BufferState) (h : Option SegmentHeader) (b : Fin 2) : staysFlushing (chunk x h) 0 b :=
  ⟨chunk_bound x h, fun k hk hf => by have := chunk_slot x h hk; subst this; cases hf⟩

/-- An idle Compressor with one entry; a busy one; one with no entry. -/
theorem witness_CompressorTakesOldest :
    (let s : State := { chunk .closed none with ce := { queue := [entry0] } }
     running s ∧ s.ce.inFlight = none ∧ s.ce.queue = entry0 :: [] ∧ streamBound s 0 ∧ limitCurrent s 0
      ∧ s.streams[(0 : Fin 4)].buffers[(0 : Fin 2)].state = .closed)
    ∧ (let s : State := { chunk .closed none with ce := { queue := [entry0], inFlight := some { entry := entry0 } } }
       running s ∧ s.ce.inFlight ≠ none)
    ∧ running s0 ∧ s0.ce.queue = [] :=
  ⟨⟨rfl, rfl, rfl, chunk_bound _ _, by unfold limitCurrent; decide +kernel, rfl⟩, ⟨rfl, nofun⟩, rfl, rfl⟩

/-- Unmarked and marked. -/
theorem witness_CompressionCompletes :
    (let s : State := { chunk .compressing none with ce := { inFlight := some { entry := entry0 } } }
     running s ∧ s.ce.inFlight = some { entry := entry0, discard := false } ∧ streamBound s 0 ∧ limitCurrent s 0
      ∧ s.streams[(0 : Fin 4)].buffers[(0 : Fin 2)].state = .compressing)
    ∧ (let s : State := { chunk .compressing none with ce := { inFlight := some { entry := entry0, discard := true } } }
       running s ∧ s.ce.inFlight = some { entry := entry0, discard := true } ∧ staysFlushing s 0 0 ∧ limitCurrent s 0
        ∧ s.streams[(0 : Fin 4)].buffers[(0 : Fin 2)].state = .compressing) := by
  unfold limitCurrent
  exact ⟨⟨rfl, rfl, chunk_bound _ _, by decide +kernel, rfl⟩, ⟨rfl, rfl, ⟨chunk_bound .compressing none, fun k hk hf => by
    have := chunk_slot .compressing none hk; subst this; cases hf⟩, by decide +kernel, rfl⟩⟩

/-- The header of the thirteen-byte segment. -/
def header13 : SegmentHeader :=
  { mode := .packed, tag := 7, rawLength := 13, storedLength := 7, sequence := 100, rawCheck := 5 }

theorem ready_only (s : State) (hs : s.streams = (chunk .ready (some header13)).streams) (i : StreamId) (f : Fin 2)
    (e : ChunkEntry) (h : SegmentHeader) (hr : readyFor s 0 i f e h) :
    (i = entry0.stream ∧ f = entry0.buffer) ∨ entry0.order < e.order := by
  have : ∀ (i : StreamId) (f : Fin 2), (chunk .ready (some header13)).streams[i].buffers[f].state = .ready → i = 0 ∧ f = 0 := by
    decide +kernel
  have h1 := hr.1
  rw [hs] at h1
  exact Or.inl (this i f h1)

/-- In the open slot, whose last sixteen bytes before the limit the header takes; in a new slot. -/
theorem witness_PackerBegins :
    let s := chunk .ready (some header13)
    let t : State := { s with lanes := s.lanes.set 0 { role := .write, nextGroup := 99, slots := [.free] } }
    (running s ∧ s.lanes[(0 : Fin 4)].role = .write ∧ s.lanes[(0 : Fin 4)].full = false ∧ s.lanes[(0 : Fin 4)].packing = none
      ∧ s.waiting (.laneUnit 0) = false ∧ readyFor s 0 0 0 entry0 header13
      ∧ (∀ i f e h, readyFor s 0 i f e h → (i = entry0.stream ∧ f = entry0.buffer) ∨ entry0.order < e.order)
      ∧ streamBound s 0 ∧ limitCurrent s 0 ∧ s.wd.layout = some lay ∧ s.cd.places[drivePlace 0].state = .occupied 3
      ∧ s.cd.records[(3 : Fin 32)] = some cart3 ∧ s.sc.waitList = [] ∧ s.sc.claims = []
      ∧ (s.sc.producer - s.sc.consumer).toNat < lay.catalog.size / 32
      ∧ s.lanes[(0 : Fin 4)].position = some { slot := 4, frame := 2, offset := 848 }
      ∧ s.lanes[(0 : Fin 4)].slots[4]? = some (.opened 14) ∧ 848 + 16 ≤ 4076
      ∧ (23 : Int) ≤ (4076 - 848) + (7 - 2) * 4076 + ((cart3.limit.toNat : Int) - 1 - 14) * 32608)
    ∧ (running t ∧ t.lanes[(0 : Fin 4)].position = none ∧ t.lanes[(0 : Fin 4)].slots[t.lanes[(0 : Fin 4)].nextSlot]? = some .free
      ∧ readyFor t 0 0 0 entry0 header13
      ∧ (∀ i f e h, readyFor t 0 i f e h → (i = entry0.stream ∧ f = entry0.buffer) ∨ entry0.order < e.order)
      ∧ streamBound t 0 ∧ limitCurrent t 0 ∧ t.cd.places[drivePlace 0].state = .occupied 3
      ∧ (23 : Int) ≤ 32608 * ((cart3.limit.toNat : Int) - t.lanes[(0 : Fin 4)].nextGroup.toNat)) := by
  unfold limitCurrent
  refine ⟨⟨rfl, rfl, rfl, rfl, rfl, ⟨rfl, rfl, rfl, rfl⟩, fun i f e h => ready_only _ rfl i f e h, chunk_bound _ _,
    by decide +kernel, rfl, rfl, rfl, rfl, rfl, by decide +kernel, rfl, rfl, by decide, by decide +kernel⟩,
    ⟨rfl, rfl, rfl, ⟨rfl, rfl, rfl, rfl⟩, fun i f e h => ready_only _ rfl i f e h, chunk_bound _ _,
    by decide +kernel, rfl, by decide +kernel⟩⟩

/-- Lane 0 copies, with `rest` still to be copied, at a frame and offset of its open slot. -/
def copyingAt (rest : List Byte) (frame offset : Nat) : State :=
  let s := chunk .packing (some header13)
  { s with lanes := s.lanes.set 0 { s.lanes[(0 : Fin 4)] with
    packing := some { stream := 0, buffer := 0, rest := rest, starting := false }
    position := some { slot := 4, frame := frame, offset := offset } } }

/-- The bytes that fill frame 2 exactly; those that fill frame 7 exactly; one byte short of filling it; a wait for a slot. -/
theorem witness_PackerCopies :
    (let s := copyingAt [1, 2] 2 4074
     running s ∧ s.lanes[(0 : Fin 4)].packing = some { stream := 0, buffer := 0, rest := [1, 2], starting := false }
      ∧ s.waiting (.laneUnit 0) = false ∧ s.wd.layout = some lay
      ∧ s.lanes[(0 : Fin 4)].position = some { slot := 4, frame := 2, offset := 4074 }
      ∧ s.lanes[(0 : Fin 4)].slots[4]? = some (.opened 14) ∧ 4076 - 4074 ≤ [1, 2].length)
    ∧ (let s := copyingAt [1, 2] 7 4074
       running s ∧ s.re.hasRoom = true ∧ s.cd.places[drivePlace 0].state = .occupied 3
        ∧ s.cd.records[(3 : Fin 32)] = some cart3 ∧ s.lanes[(0 : Fin 4)].nextGroup ≠ cart3.limit ∧ 4076 - 4074 = [1, 2].length)
    ∧ (let s := copyingAt [1] 7 4074
       running s ∧ [(1 : Byte)].length < 4076 - 4074 ∧ s.lanes[(0 : Fin 4)].closePending = none ∧ staysFlushing s 0 0 ∧ limitCurrent s 0
        ∧ s.streams[(0 : Fin 4)].buffers[(0 : Fin 2)].state = .packing)
    ∧ (let s : State := { draining with lanes := draining.lanes.set 0 {
        role := .write, slots := [.free], packing := some { stream := 0, buffer := 0, rest := [1], starting := false } } }
       running s ∧ s.waiting (.laneUnit 0) = false ∧ s.lanes[(0 : Fin 4)].position = none
        ∧ s.lanes[(0 : Fin 4)].slots[s.lanes[(0 : Fin 4)].nextSlot]? = some .free) := by
  unfold limitCurrent
  exact ⟨⟨rfl, rfl, rfl, rfl, rfl, rfl, by decide⟩, ⟨rfl, rfl, rfl, rfl, by decide +kernel, rfl⟩,
    ⟨rfl, by decide, rfl, chunk_stays _ _ _, by decide +kernel, rfl⟩, ⟨rfl, rfl, rfl, rfl⟩⟩

/-- The default limit of 5,000 ms: one microsecond short of it; at it, copying; at it, not copying; and frame 7 full. -/
theorem witness_AgeCloses :
    running draining ∧ draining.lanes[(0 : Fin 4)].openedAt = some 0
      ∧ draining.lanes[(0 : Fin 4)].position = some { slot := 4, frame := 2, offset := 848 }
      ∧ draining.lanes[(0 : Fin 4)].slots[4]? = some (.opened 14) ∧ draining.wd.layout = some lay
      ∧ draining.waiting (.laneUnit 0) = false ∧ draining.re.hasRoom = true
      ∧ draining.re.laneSettings[(0 : Fin 4)].ageLimit = 5000
      ∧ max draining.timebase 4999999 - 0 < 5000 * 1000 ∧ 5000 * 1000 ≤ max draining.timebase 5000000 - 0
      ∧ draining.lanes[(0 : Fin 4)].packing = none
      ∧ running (copyingAt [1] 7 4076) ∧ (copyingAt [1] 7 4076).lanes[(0 : Fin 4)].openedAt = some 0
      ∧ (copyingAt [1] 7 4076).lanes[(0 : Fin 4)].position = some { slot := 4, frame := 7, offset := 4076 }
      ∧ (copyingAt [1] 7 4076).lanes[(0 : Fin 4)].packing ≠ none :=
  ⟨rfl, rfl, rfl, rfl, rfl, rfl, rfl, rfl, by decide, by decide, rfl, rfl, rfl, rfl, nofun⟩

/-- The oldest READY slot; a younger one and the OPEN one; a DRAINED one and a FREE one. -/
theorem witness_GroupReleased :
    let s : State := { draining with
      lanes := draining.lanes.set 0 { draining.lanes[(0 : Fin 4)] with
        slots := [.drained 11, .ready 12, .ready 13, .opened 14, .free], position := some { slot := 3 } }
      re := { laneSettings := (Vector.replicate 4 {}).set 0 { streamingLimit := 0 } } }
    running s ∧ transactionOk 0x100FFFF 1 = true ∧ s.wd.layout = some lay ∧ s.waiting (.laneUnit 0) = false
      ∧ s.lanes[(0 : Fin 4)].role = .write
      ∧ (s.finalByteOf 0x100FFFF = some (0, 1) ∧ s.lanes[(0 : Fin 4)].slots[1]? = some (.ready 12)
        ∧ s.lanes[(0 : Fin 4)].readyGroups.all (fun g => decide (12 ≤ g.toNat)) = true
        ∧ s.cd.places[drivePlace 0].state = .occupied 3 ∧ s.cd.records[(3 : Fin 32)] = some cart3 ∧ catalogBounded s lay
        ∧ jobTableFree s ∧ writeJob s 0 0 ∧ s.jt.jobs[(0 : Fin 8)].record.state ≠ .draining
        ∧ s.lanes[(0 : Fin 4)].drainedCount
          < min s.re.laneSettings[(0 : Fin 4)].retainDepth (s.lanes[(0 : Fin 4)].slots.length - 1)
        ∧ s.re.laneSettings[(0 : Fin 4)].streamingLimit = 0)
      ∧ (s.finalByteOf 0x1017FFF = some (0, 2) ∧ s.lanes[(0 : Fin 4)].slots[2]? = some (.ready 13))
      ∧ (s.finalByteOf 0x101FFFF = some (0, 3) ∧ s.lanes[(0 : Fin 4)].slots[3]? = some (.opened 14))
      ∧ (s.finalByteOf 0x1007FFF = some (0, 0) ∧ s.lanes[(0 : Fin 4)].slots[0]? = some (.drained 11))
      ∧ (s.finalByteOf 0x1027FFF = some (0, 4) ∧ s.lanes[(0 : Fin 4)].slots[4]? = some .free) := by
  unfold catalogBounded jobTableFree writeJob
  refine ⟨rfl, ?_⟩
  decide +kernel

/-! ### The return path and the Decode Engine -/

/-- A 20-byte header. -/
theorem witness_HeaderJudged : (frameHeader 5 0 none 7 false 0).length = 20 ∧ 7 ≤ 7 := by decide +kernel

/-- Lane 0 reads three frames from group `g`, frame 0 on, with the synchronizer in a state and bytes arrived. -/
def framed (g : Word) (x : Sync) (arrived : Word) : State :=
  let head (i : Nat) : List Byte := frameHeader g 0 none i false 0
  { reading with
    mem := memWrite (memWrite (memWrite [] 0x2000000 (head 0)) 0x2001000 (head 1)) 0x2002000 (head 2)
    wd := { s0.wd with ringAperture := s0.wd.ringAperture.set 0 { expected := arrived, limit := 0x400000 } }
    framers := reading.framers.set 0 { slot := some 0, phase := .taking, sync := x } }

theorem framed_free (g : Word) (x : Sync) (arrived : Word) : FramerFree (framed g x arrived) 0 := ⟨rfl, rfl, rfl, rfl⟩

/-- A frame of group 5. -/
def frame5 (i : Fin 8) : FrameName := { group := 5, index := i }

/-- For SEARCH, CONFIRM1 and CONFIRM2: one byte too few arrived; a good header; a bad one. -/
theorem witness_SyncSearchesAndConfirms :
    (∀ x y, running (framed 5 x y) ∧ FramerFree (framed 5 x y) 0 ∧ (framed 5 x y).wd.layout = some lay
      ∧ (framed 5 x y).framers[(0 : Fin 4)].sync = x ∧ (framed 5 x y).re.hasRoom = true
      ∧ ((framed 5 x y).wd.ringAperture[(0 : Fin 4)].expected - (framed 5 x y).framers[(0 : Fin 4)].scan).toNat = y.toNat)
    ∧ (headerGood (ringBytes (framed 5 .search 20).mem lay.rings[(0 : Fin 4)] (0 + 0) 20) = true
      ∧ headerGood (ringBytes s0.mem lay.rings[(0 : Fin 4)] (0 + 0) 20) = false)
    ∧ (headerGood (ringBytes (framed 5 .search 20).mem lay.rings[(0 : Fin 4)] (0 + 4096) 20) = true
      ∧ headerName (ringBytes (framed 5 .search 20).mem lay.rings[(0 : Fin 4)] (0 + 4096) 20) = (frame5 0).next)
    ∧ (headerGood (ringBytes (framed 5 .search 20).mem lay.rings[(0 : Fin 4)] (0 + 8192) 20) = true
      ∧ headerName (ringBytes (framed 5 .search 20).mem lay.rings[(0 : Fin 4)] (0 + 8192) 20) = (frame5 0).next.next)
    ∧ headerGood (ringBytes (framed 5 .search 20).mem lay.rings[(0 : Fin 4)] (0 + 12288) 20) = false := by
  refine ⟨fun x y => ⟨rfl, framed_free _ _ _, rfl, rfl, rfl, ?_⟩, ?_⟩
  · show (y - 0).toNat = y.toNat
    simp
  · decide +kernel

/-- Lane 0 LOCKED, expecting a frame, with misses so far; the header at the scan mark is the one of group 5, frame 0. -/
def lockedAt (expected : FrameName) (misses : Nat) (m : List Host.Cell) : State :=
  { framed 5 .locked 4096 with
    mem := m
    framers := reading.framers.set 0 {
      slot := some 0, phase := .taking, sync := .locked, expected := some expected, missCount := misses
      lastAccepted := some (frame5 4), groupInHand := some { group := 5, accumulating := true, check := crcStart } } }

/-- A miss; the miss that loses lock; a repeat; the expected frame. -/
theorem witness_FrameTaken :
    (∀ x k m, running (lockedAt x k m) ∧ FramerFree (lockedAt x k m) 0 ∧ (lockedAt x k m).wd.layout = some lay
      ∧ (lockedAt x k m).framers[(0 : Fin 4)].sync = .locked ∧ (lockedAt x k m).framers[(0 : Fin 4)].expected = some x
      ∧ (lockedAt x k m).framers[(0 : Fin 4)].slot = some 0 ∧ (lockedAt x k m).jt.jobs[(0 : Fin 8)].record.state = .active
      ∧ (∀ y, (lockedAt x k m).framers[(0 : Fin 4)].assembler ≠ .hold y) ∧ (lockedAt x k m).re.hasRoom = true
      ∧ (lockedAt x k m).re.laneSettings[(0 : Fin 4)].lossThreshold = 4)
    ∧ 4096 ≤ ((lockedAt (frame5 0) 0 []).wd.ringAperture[(0 : Fin 4)].expected
        - (lockedAt (frame5 0) 0 []).framers[(0 : Fin 4)].scan).toNat
    ∧ (headerGood (ringBytes [] lay.rings[(0 : Fin 4)] 0 20) = false ∧ 2 + 1 < 4 ∧ 4 ≤ 3 + 1)
    ∧ (let h := ringBytes (framed 5 .locked 4096).mem lay.rings[(0 : Fin 4)] 0 20
       headerGood h = true ∧ headerName h = frame5 0 ∧ headerName h ≠ frame5 1 ∧ (frame5 1).distance (headerName h) ≤ 0
        ∧ (frame5 0).index ≠ 7 ∧ fieldNat h 12 2 = 0xFFFF ∧ ((5 : Word) - 9).toInt ≤ 0) := by
  refine ⟨fun x k m => ⟨rfl, ⟨rfl, rfl, rfl, rfl⟩, rfl, rfl, rfl, rfl, rfl, nofun, rfl, rfl⟩, ?_⟩
  decide +kernel

/-- The thirteen-byte segment of lane 0's job, its stored bytes at the start of the ring. -/
def segment13 (kind : JobKind) : DecodeEntry :=
  { slot := 0, tag := 5, kind := kind, lane := 0, header := header13, frame := frame5 0, offset := 0
    pieces := [{ position := 0, length := 7 }] }

/-- An entry queued; a busy engine; a decode under way, unmarked and marked. -/
theorem witness_DecodeProceeds :
    (let s : State := { reading with de := { queue := [segment13 .verify] } }
     running s ∧ s.de.operation = none ∧ s.de.due = [] ∧ s.de.queue = segment13 .verify :: [] ∧ s.de.holding = []
      ∧ s.wd.layout = some lay)
    ∧ (∀ mark : Bool,
      let d : Decode := { entry := segment13 .restore, ring := lay.rings[(0 : Fin 4)], discard := mark }
      let s : State := { reading with de := { operation := some (.decode d) } }
      running s ∧ s.de.operation ≠ none ∧ s.de.operation = some (.decode d) ∧ d.result = none ∧ d.linked = true
        ∧ s.wd.layout = some lay ∧ s.framers[d.entry.lane].phase = .taking ∧ s.framers[d.entry.lane].pastLast = false
        ∧ s.waiting (.framer d.entry.lane) = false
        ∧ s.de.slots[d.entry.slot].expected ≤ d.entry.header.sequence.toNat) :=
  ⟨⟨rfl, rfl, rfl, rfl, rfl, rfl⟩, fun _ => ⟨rfl, nofun, rfl, rfl, rfl, rfl, rfl, rfl, rfl, Nat.zero_le _⟩⟩

/-- A decode in SETTLING with a result. -/
def settling (kind : JobKind) (r : DecodeResult) : State :=
  { reading with
    jt := { jobs := s0.jt.jobs.set 0 { live := true, record := {
      tag := 5, kind := kind, state := .active, cart := 3, lastChunk := 105, ringBase := 0x4000000, ringSize := 65536 } } }
    de := { operation := some (.decode { entry := segment13 kind, result := some r })
            buffer := chunkABC, slots := (Vector.replicate 8 {}).set 0 { expected := 100 } } }

/-- A catalog with no record, and one with the record of the segment's tape position. -/
theorem witness_SightingSettles :
    (let s := settling .verify .good
     let d : Decode := { entry := segment13 .verify, result := some .good }
     running s ∧ s.de.operation = some (.decode d) ∧ d.result = some .good ∧ d.entry.kind = .verify ∧ s.sc.operation = none
      ∧ s.wd.layout = some lay ∧ s.cd.records[s.jt.jobs[d.entry.slot].record.cart] = some cart3
      ∧ s.jt.jobs[d.entry.slot].record.state ≠ .ending ∧ (∀ q ∈ s.sc.live, ¬ sightedBy cart3.label (frame5 0) 0 (recordAt s lay q)))
    ∧ (let s : State := { settling .verify .good with
        mem := memWrite [] 0x3000000 (catalogRecordBytes cart3.label 0 header13 5 0 0 1), sc := { producer := 1 } }
       running s ∧ 0 < (s.sc.producer - s.sc.consumer).toNat
        ∧ sightedBy cart3.label (frame5 0) 0 (recordAt s lay (s.sc.consumer + BitVec.ofNat 32 0))) :=
  ⟨⟨rfl, rfl, rfl, rfl, rfl, rfl, rfl, nofun, nofun⟩, rfl, by decide +kernel, _, rfl, by decide +kernel⟩

/-- Below the expected sequence; above it; at it, faulted and good; a full ring. -/
theorem witness_RestoreEntryWritten :
    (∀ r, running (settling .restore r)
      ∧ (settling .restore r).de.operation = some (.decode { entry := segment13 .restore, result := some r })
      ∧ (segment13 .restore).kind = .restore ∧ (settling .restore r).jt.jobs[(0 : Fin 8)].record.state = .active
      ∧ (segment13 .restore).header.sequence.toNat ≤ (settling .restore r).jt.jobs[(0 : Fin 8)].record.lastChunk.toNat
      ∧ 0 < (settling .restore r).jt.jobs[(0 : Fin 8)].record.ringSize.toNat
      ∧ (settling .restore r).de.slots[(0 : Fin 8)].producer.toNat + 16 + (13 + 15) / 16 * 16 < 4294967296
      ∧ (settling .restore r).de.slots[(0 : Fin 8)].expected = (segment13 .restore).header.sequence.toNat
      ∧ (settling .restore r).de.buffer.length = (segment13 .restore).header.rawLength
      ∧ 16 + (13 + 15) / 16 * 16 ≤ (settling .restore r).jt.jobs[(0 : Fin 8)].record.ringSize.toNat - (0 - 0 : Word).toNat)
    ∧ ((segment13 .restore).header.sequence.toNat < 101 ∧ 99 < (segment13 .restore).header.sequence.toNat)
    ∧ ((65536 : Word).toNat - ((65536 : Word) - 0).toNat < 16) :=
  ⟨fun _ => ⟨rfl, rfl, rfl, rfl, (by decide : (100 : Word).toNat ≤ (105 : Word).toNat), (by decide : 0 < (65536 : Word).toNat),
    (by decide : (0 : Word).toNat + 16 + (13 + 15) / 16 * 16 < 4294967296), rfl, rfl,
    (by decide : 16 + (13 + 15) / 16 * 16 ≤ (65536 : Word).toNat - (0 - 0 : Word).toNat)⟩, by decide, by decide⟩

/-- A busy engine; a VERIFY job at the head of the due list; a RESTORE job that has delivered its last chunk. -/
theorem witness_EvaluationEndsJob :
    (running (settling .verify .good) ∧ (settling .verify .good).de.operation ≠ none)
    ∧ (let s : State := { reading with de := { due := [0] } }
       running s ∧ s.de.operation = none ∧ s.de.due = 0 :: [] ∧ jobTableFree s ∧ s.jt.jobs[(0 : Fin 8)].live = true
        ∧ s.wd.layout = some lay ∧ catalogBounded s lay ∧ s.re.hasRoom = true ∧ s.waiting (.framer 0) = false
        ∧ s.jt.jobs[(0 : Fin 8)].record.kind = .verify ∧ s.cd.records[s.jt.jobs[(0 : Fin 8)].record.cart] = some cart3)
    ∧ (let s : State := { settling .restore .good with
        de := { due := [0], slots := (Vector.replicate 8 {}).set 0 { expected := 106 } } }
       running s ∧ s.de.operation = none ∧ s.de.due = 0 :: [] ∧ s.jt.jobs[(0 : Fin 8)].record.kind = .restore
        ∧ s.jt.jobs[(0 : Fin 8)].record.lastChunk.toNat < s.de.slots[(0 : Fin 8)].expected) := by
  unfold jobTableFree catalogBounded
  exact ⟨⟨rfl, nofun⟩, ⟨rfl, rfl, rfl, ⟨rfl, rfl⟩, rfl, rfl, by decide +kernel, rfl, rfl, rfl, rfl⟩, rfl, rfl, rfl, rfl, by decide⟩

/-! ### Doors and the loader -/

/-- A door OPEN; a door CLOSED with no order active. -/
theorem witness_DoorEdgesTaken :
    (let s : State := { s0 with cd := { s0.cd with doorA := { isOpen := true } } }
     running s ∧ s.cd.doorA.isOpen = true)
    ∧ running s0 ∧ s0.cd.doorA.isOpen = false ∧ s0.waiting .directory = false ∧ s0.re.hasRoom = true ∧ loaderFree s0
      ∧ ∀ o rest, s0.lc.queue = o :: rest → o.active = false :=
  ⟨⟨rfl, rfl⟩, rfl, rfl, rfl, rfl, ⟨rfl, rfl⟩, nofun⟩

/-- Every place known, A01 and A02 holding cartridges, the latches clear; drive 0 empty. -/
def shelves : State :=
  { s0 with cd := {
      places := (Vector.replicate 30 {}).set 5 { state := .occupied 3 }
      records := (Vector.replicate 32 none).set 3 (some { cart3 with place := 5 })
      doorA := { latch := false }, doorB := { latch := false }, doorMail := { latch := false } } }

/-- MOVE from place 5 to place 28. -/
def moveRequest : List Byte := request 0x40 9 [5, 28]

/-- The order it describes. -/
def moveOrder : Order := { tag := 9, kind := .move, source := some 5, target := some 28 }

theorem shelves_pending : ∀ p : PlaceId, shelves.cd.places[p].pending = none := by decide +kernel

theorem shelves_targets (c : CartId) : shelves.cd.places[(28 : PlaceId)].state ≠ .occupied c := by
  intro h; exact absurd h (by decide +kernel +revert)

theorem shelves_source : shelves.cd.places[(5 : PlaceId)].state ≠ .empty := by decide +kernel

theorem shelves_picker : ∀ c : CartId, shelves.cd.places[pickerPlace].state ≠ .occupied c := by decide +kernel

theorem move_described (s : State) : describes s moveRequest moveOrder := by
  show (9 : Byte).toNat = recordTag moveRequest ∧ argByte moveRequest 4 = (5 : PlaceId).val
    ∧ argByte moveRequest 5 = (28 : PlaceId).val ∧ shelf 5 ∧ shelf 28 ∧ (5 : PlaceId) ≠ 28
  unfold shelf
  decide +kernel

theorem move_refuses (s : State) (hc : s.cd = shelves.cd) (own : Option Byte) :
    noneHolds (placeRefusals s moveOrder own ++ loadRefusals s moveOrder) := by
  simp only [placeRefusals, loadRefusals, List.cons_append, List.nil_append, noneHolds, pickerLoaded, hc, orderNames, moveOrder]
  refine ⟨?_, ?_, ?_, ?_, ?_, by simp, ?_, by simp, trivial⟩
  · rintro ⟨p, t, -, h, -⟩; rw [shelves_pending p] at h; cases h
  · rintro ⟨n, h, -⟩
    have : drivePlace n ≠ 5 ∧ drivePlace n ≠ 28 := by revert n; decide +kernel
    rcases h with h | h | h
    · exact this.1 (Option.some.inj h).symm
    · exact this.2 (Option.some.inj h).symm
    · exact h
  · have h : ∀ p : PlaceId, shelves.cd.places[p].state ≠ .unknown := by decide +kernel
    rintro ⟨-, p, -, hp | hp⟩
    · exact h p hp
    · simp [latchSet, hc, shelves] at hp
  · rintro ⟨p, hp, h⟩
    cases hp
    exact shelves_source h
  · rintro ⟨p, c, x, hp, h, -⟩
    cases hp
    exact shelves_targets c h
  · rintro ⟨-, -, c, h⟩
    exact shelves_picker c h

/-- The queue of an UNHOMED loader empty, and not empty. -/
theorem witness_OrderAccepted :
    let x : Sample := { lines := { retracted := true } }
    (∀ q, (∀ o ∈ q, o = moveOrder) → q.length ≤ 1 →
      let s := asking moveRequest { shelves with lc := { queue := q } }
      requestRow (.move x) = some (orderRow moveOrder.kind) ∧ 1 ≤ recordTag moveRequest ∧ recordTag moveRequest ≤ 255
        ∧ loaderFree s ∧ describes s moveRequest moveOrder ∧ noneHolds (orderRefusals s moveOrder))
    ∧ RequestNext (asking moveRequest shelves) (some .move) moveRequest
    ∧ (asking moveRequest shelves).lc.queue = [] ∧ (asking moveRequest shelves).lc.state = .unhomed
    ∧ (sampled (.move x) (asking moveRequest shelves)).lc.lines.retracted = true
    ∧ (sampled (.move x) (asking moveRequest shelves)).lc.lines.home = false
    ∧ RequestNext (asking moveRequest { shelves with lc := { queue := [moveOrder] } }) (some .move) moveRequest := by
  refine ⟨?_, next_of_ok (by decide +kernel), rfl, rfl, rfl, rfl, next_of_ok (by decide +kernel)⟩
  intro q _ hq
  refine ⟨rfl, by decide +kernel, by decide +kernel, ⟨rfl, rfl⟩, ?_, ?_⟩
  · exact move_described _
  · have h := move_refuses (asking moveRequest { shelves with lc := { queue := q } }) rfl none
    simp only [placeRefusals, loadRefusals, List.cons_append, List.nil_append, noneHolds] at h
    simp only [orderRefusals, placeRefusals, loadRefusals, List.cons_append, List.nil_append, List.map, noneHolds]
    obtain ⟨h1, h2, h3, h4, h5, h6, h7, h8, -⟩ := h
    exact ⟨nofun, by show ¬ 16 ≤ q.length; omega, h1, h2, h3, h4, h5, h6, fun h => h7 h.2, fun h => h8 h.2, trivial⟩

/-- Place 29 as a MOVE's source; a MOUNT by a label no record has; a HALTED loader. -/
theorem witness_OrderRefused :
    (let r := request 0x40 9 [29, 5]
     RequestNext (asking r shelves) (some (orderRow .move)) r ∧ 1 ≤ recordTag r ∧ recordTag r ≤ 255
      ∧ loaderFree (asking r shelves) ∧ orderArgumentBad (asking r shelves) (orderRow .move) r)
    ∧ (let r := request 0x41 9 [0xFF, 1, 0, 0, 65, 65, 65, 65, 65, 65, 65, 65]
       RequestNext (asking r shelves) (some (orderRow .mount)) r ∧ driveByte (asking r shelves) (argByte r 5)
        ∧ argByte r 4 = 0xFF
        ∧ ∀ d : CartId, ((asking r shelves).cd.records[d].bind fun x => x.label) ≠ some (argLabel r 8))
    ∧ (let s := asking moveRequest { shelves with lc := { state := .halted } }
       RequestNext s (some (orderRow .move)) moveRequest ∧ describes s moveRequest moveOrder
        ∧ firstHolds .loaderHalted (orderRefusals s moveOrder)) := by
  unfold driveByte
  refine ⟨⟨next_of_ok (by decide +kernel), by decide +kernel, by decide +kernel, ⟨rfl, rfl⟩, ?_⟩,
    ⟨next_of_ok (by decide +kernel), by decide +kernel, by decide +kernel, by decide +kernel⟩,
    next_of_ok (by decide +kernel), ?_, Or.inl ⟨rfl, rfl⟩⟩
  · unfold orderArgumentBad orderRow shelfByte; decide +kernel
  · exact move_described _

/-- The MOVE is active, in a step, with the picker at a station. -/
def active (o : Order) (l : Loader) : State := { shelves with lc := { l with queue := [{ o with active := true }] } }

/-- A HALTED loader; one that travels. -/
theorem witness_LoaderHalts :
    let r := request 0x45 0 []
    (let s := asking r { shelves with lc := { state := .halted } }
     RequestNext s (some .loaderHalt) r ∧ loaderFree s ∧ s.lc.state = .halted)
    ∧ (let s := asking r (active moveOrder {
        state := .busy, station := some 3, travelCount := 2, step := some { kind := .travel, station := 5, part := .moving } })
       RequestNext s (some .loaderHalt) r ∧ loaderFree s ∧ s.lc.state ≠ .halted
        ∧ (∀ y, s.lc.step = some y → y.kind ≠ .get ∧ y.kind ≠ .put)
        ∧ (pickerLoaded s ↔ ({} : Lines).cartridgePresent = true) ∧ roomFor s s.lc.queue.length
        ∧ ∀ o ∈ s.lc.queue, orderFormed o) := by
  refine ⟨⟨next_of_ok (by decide +kernel), ⟨rfl, rfl⟩, rfl⟩, next_of_ok (by decide +kernel), ⟨rfl, rfl⟩, nofun, ?_, ?_,
    ⟨rfl, by decide +kernel⟩, ?_⟩
  · intro y hy
    cases hy
    exact ⟨nofun, nofun⟩
  · exact ⟨fun ⟨c, h⟩ => absurd h (shelves_picker c), nofun⟩
  · intro o ho
    cases List.mem_singleton.mp ho
    exact ⟨⟨nofun, fun h => absurd rfl h⟩, nofun⟩

theorem witness_LoaderResumes :
    let r := request 0x46 0 []
    (let s := asking r { shelves with lc := { state := .halted } }
     RequestNext s (some .loaderResume) r ∧ loaderFree s ∧ s.lc.state = .halted)
    ∧ (RequestNext (asking r shelves) (some .loaderResume) r ∧ loaderFree (asking r shelves)
      ∧ (asking r shelves).lc.state ≠ .halted) :=
  ⟨⟨next_of_ok (by decide +kernel), ⟨rfl, rfl⟩, rfl⟩, next_of_ok (by decide +kernel), ⟨rfl, rfl⟩, nofun⟩

theorem move_formed (b : Bool) : orderFormed { moveOrder with active := b } :=
  ⟨⟨nofun, fun h => absurd rfl h⟩, nofun⟩

/-- A BUSY loader; a head order whose source is EMPTY; an UNHOMED loader; an IDLE one at station 3. -/
theorem witness_OrderActivates :
    (running (active moveOrder { state := .busy }) ∧ (active moveOrder { state := .busy }).lc.state ≠ .idle
      ∧ (active moveOrder { state := .busy }).lc.state ≠ .unhomed)
    ∧ (let o : Order := { tag := 9, kind := .pickerPut, target := some 28 }
       let s : State := { shelves with lc := { queue := [o] } }
       running s ∧ loaderFree s ∧ s.lc.queue = o :: [] ∧ o.active = false ∧ orderFormed o ∧ s.re.hasRoom = true
        ∧ (o.kind = .pickerPut ∧ ∀ c, s.cd.places[pickerPlace].state ≠ .occupied c))
    ∧ (∀ l : Loader, l.queue = [moveOrder] → l.posts = [] → l.state = .unhomed ∨ l.state = .idle →
      let s : State := { shelves with lc := l }
      running s ∧ loaderFree s ∧ (s.lc.state = .idle ∨ s.lc.state = .unhomed) ∧ s.lc.queue = moveOrder :: []
        ∧ moveOrder.active = false ∧ orderFormed moveOrder
        ∧ noneHolds (placeRefusals s moveOrder (some moveOrder.tag) ++ loadRefusals s moveOrder))
    ∧ (moveOrder.scope = none ∧ moveOrder.source = some 5 ∧ (3 : Int) ≠ (5 : PlaceId).val) :=
  ⟨⟨rfl, nofun, nofun⟩, ⟨rfl, ⟨rfl, rfl⟩, rfl, rfl, ⟨⟨nofun, fun h => absurd rfl h⟩, nofun⟩, rfl, rfl, shelves_picker⟩,
    fun _ hq hp hs => ⟨rfl, ⟨rfl, hp⟩, hs.symm, hq, rfl, move_formed false, move_refuses _ rfl _⟩, rfl, rfl, by decide⟩

/-- The motor stopped; homing; a travel with two marks to go and with one; a mark timer short of its end and at it. -/
theorem witness_RailEventsTaken :
    let homing : State := active moveOrder {
      state := .homing, step := some { kind := .homing, station := -1, part := .moving }, outputs := { motorRun := true }
      markTimer := some { started := 0, length := 400000 } }
    let travel (count : Nat) : State := active moveOrder {
      state := .busy, station := some 3, travelCount := count, step := some { kind := .travel, station := 5, part := .moving }
      outputs := { motorRun := true, towardHome := false }, markTimer := some { started := 0, length := 400000 } }
    let all (s : State) (step : ActiveStep) : Prop :=
      running s ∧ loaderFree s ∧ s.re.hasRoom = true ∧ s.lc.queue = { moveOrder with active := true } :: []
        ∧ s.lc.step = some step ∧ orderFormed { moveOrder with active := true }
    (all (active moveOrder { step := some { kind := .get, station := 5, part := .extending } }) { kind := .get, station := 5, part := .extending }
      ∧ (active moveOrder { step := some { kind := .get, station := 5, part := .extending } }).lc.outputs.motorRun = false)
    ∧ (all homing { kind := .homing, station := -1, part := .moving } ∧ homing.lc.outputs.motorRun = true
      ∧ homing.lc.state = .homing)
    ∧ (∀ count, all (travel count) { kind := .travel, station := 5, part := .moving }
      ∧ (travel count).lc.outputs.motorRun = true ∧ (travel count).lc.state = .busy ∧ (travel count).lc.travelCount = count
      ∧ (travel count).lc.markTimer = some { started := 0, length := 400000 })
    ∧ max (travel 1).timebase 399999 < 0 + 400000 ∧ 0 + 400000 ≤ max (travel 1).timebase 400000 := by
  refine ⟨⟨⟨rfl, ⟨rfl, rfl⟩, rfl, rfl, rfl, move_formed true⟩, rfl⟩, ⟨⟨rfl, ⟨rfl, rfl⟩, rfl, rfl, rfl, move_formed true⟩, rfl, rfl⟩,
    fun _ => ⟨⟨rfl, ⟨rfl, rfl⟩, rfl, rfl, rfl, move_formed true⟩, rfl, rfl, rfl, rfl⟩, by decide +kernel, by decide +kernel⟩

/-- The picker holds the cartridge of the MOVE. -/
def carried : State :=
  { shelves with cd := { shelves.cd with
    places := (Vector.replicate 30 {}).set 29 { state := .occupied 3 }
    records := (Vector.replicate 32 none).set 3 (some { cart3 with place := 29 }) } }

/-- No step timer; a GET extended, closed on nothing, timed out; a PUT retracted. -/
theorem witness_GripperEventsTaken :
    let get (part : StepPart) : State := active moveOrder {
      state := .busy, station := some 5, step := some { kind := .get, station := 5, part := part }
      stepTimer := some { started := 0, length := 1500000 } }
    let put : State := { carried with lc := {
      state := .busy, station := some 28, step := some { kind := .put, station := 28, part := .retracting }
      stepTimer := some { started := 0, length := 1500000 }, queue := [{ moveOrder with active := true }] } }
    (∀ part, running (get part) ∧ loaderFree (get part) ∧ (get part).re.hasRoom = true
      ∧ (get part).lc.queue = { moveOrder with active := true } :: []
      ∧ (get part).lc.step = some { kind := .get, station := 5, part := part } ∧ orderFormed { moveOrder with active := true }
      ∧ (get part).lc.stepTimer = some { started := 0, length := 1500000 }
      ∧ (get part).cd.places[(5 : PlaceId)].state = .occupied 3 ∧ (5 : PlaceId) ≠ pickerPlace
      ∧ (pickerLoaded (get part) ↔ ({} : Lines).cartridgePresent = true))
    ∧ (running put ∧ loaderFree put ∧ put.re.hasRoom = true ∧ put.lc.queue = { moveOrder with active := true } :: []
      ∧ put.lc.step = some { kind := .put, station := 28, part := .retracting } ∧ (28 : PlaceId) ≠ pickerPlace
      ∧ put.cd.places[pickerPlace].state = .occupied 3
      ∧ put.cd.records[(3 : Fin 32)] = some { cart3 with place := 29 }) := by
  refine ⟨fun _ => ⟨rfl, ⟨rfl, rfl⟩, rfl, rfl, rfl, move_formed true, rfl, rfl, by decide, ?_⟩,
    rfl, ⟨rfl, rfl⟩, rfl, rfl, rfl, by decide, rfl, rfl⟩
  exact ⟨fun ⟨c, h⟩ => absurd h (shelves_picker c), nofun⟩

/-- The link idle; a first byte; a later byte; an exchange and a retry timer at their ends; the good check byte of OFC00417. -/
theorem witness_LabelLinkEventsTaken :
    let l : Label := #v[79, 70, 67, 48, 48, 52, 49, 55]
    let link (bytes : List Byte) : State := { carried with lc := {
      state := .busy, station := some 5, step := some { kind := .labelRead, station := 5, part := .reading }
      exchange := some { sent := 0x4C, limit := { started := 0, length := 5000 } }, exchanging := true, attempt := 1, received := bytes
      retryTimer := some { started := 0, length := 20000 }, queue := [{ moveOrder with active := true }] } }
    (running s0 ∧ s0.lc.exchange = none)
    ∧ (∀ bytes, running (link bytes) ∧ (link bytes).lc.exchange = some { sent := 0x4C, limit := { started := 0, length := 5000 } }
      ∧ (link bytes).lc.received = bytes ∧ (link bytes).lc.attempt < 5
      ∧ (link bytes).lc.retryTimer = some { started := 0, length := 20000 }
      ∧ (link bytes).lc.step = some { kind := .labelRead, station := 5, part := .reading }
      ∧ (link bytes).lc.station = some 5 ∧ (link bytes).waiting .directory = false ∧ (link bytes).re.hasRoom = true
      ∧ (link bytes).cd.places[pickerPlace].state = .occupied 3
      ∧ (link bytes).cd.records[(3 : Fin 32)] = some { cart3 with place := 29 })
    ∧ (0xD4 : Byte).toNat = (l.toList.map fun u => u.toNat).sum % 256
    ∧ (∀ u ∈ l.toList, 0x20 ≤ u.toNat ∧ u.toNat ≤ 0x7E) ∧ (5 : Int) ≠ (28 : PlaceId).val
    ∧ cart3.label = some l ∧ cart3.label ≠ some #v[79, 70, 67, 48, 48, 52, 50, 49] := by
  refine ⟨⟨rfl, rfl⟩, fun _ => ⟨rfl, rfl, rfl, (by decide : 1 < 5), rfl, rfl, rfl, rfl, rfl, rfl, rfl⟩, ?_⟩
  decide +kernel

/-- A chunk of one byte and one of 16,384 bytes. -/
theorem witness_ExpansionReproducesChunk :
    1 ≤ [(7 : Byte)].length ∧ (List.replicate 16384 (7 : Byte)).length ≤ 16384 ∧ entry0.rawLength = chunkABC.length :=
  ⟨by decide, by rw [List.length_replicate], by decide⟩

/-! ## Witnesses of the further clauses -/

/-- The unassigned words, and a write that covers the index word 0x8000 in part. -/
theorem witness_ControllerWritePasses_control :
    s0.classOf 0x800C = .indexPage ∧ transactionOk 0x800C 4 = true
      ∧ (∀ index, indexWord index → ¬ (0x800C ≤ index ∧ index + 4 ≤ 0x800C + 4))
      ∧ ∀ index, indexWord index → ¬ (0x8001 ≤ index ∧ index + 4 ≤ 0x8001 + 4) := by
  refine ⟨by decide +kernel, by decide +kernel, ?_, ?_⟩ <;>
  · rintro index (h | h | h | ⟨k, h⟩) <;> omega

/-- Stream 0, its FILLING chunk one of `n` bytes, with its aperture as given. -/
def filled (n : Nat) (a : Aperture) : State :=
  { streaming with
    streams := s0.streams.set 0 {
      phase := .opened, slot := some 0, buffers := #v[{ state := .filling, data := List.replicate n 7 }, {}] }
    wd := { s0.wd with streamAperture := s0.wd.streamAperture.set 0 a } }

/-- A write that brings the chunk to 16,384 bytes; a straddle of E; a write at E of a HELD aperture with room. -/
theorem witness_StreamWriteAccepted_further :
    (let s := filled 16382 { expected := 16382, limit := 32768 }
     running s ∧ s.classOf 0x103FFE = .streamAperture 0 ∧ transactionOk 0x103FFE 2 = true
      ∧ s.streams[(0 : Fin 4)].phase = .opened ∧ s.waiting (.stream 0) = false
      ∧ s.wd.streamAperture[(0 : Fin 4)].displacement lay.apertures[(0 : Fin 4)] 0x103FFE = 0
      ∧ 2 ≤ ahead s.wd.streamAperture[(0 : Fin 4)].limit s.wd.streamAperture[(0 : Fin 4)].expected
      ∧ s.streams[(0 : Fin 4)].buffers[(0 : Fin 2)].data.length = 16382
      ∧ s.streams[(0 : Fin 4)].buffers[(1 : Fin 2)].state = .free ∧ s.streams[(0 : Fin 4)].slot = some 0
      ∧ s.jt.jobs[(0 : Fin 8)].record.nextSeq ≠ 0xFFFFFFFF)
    ∧ (let s := filled 2 { expected := 2, limit := 16386 + 16382 }
       s.wd.streamAperture[(0 : Fin 4)].displacement lay.apertures[(0 : Fin 4)] 0x100000 = -2
        ∧ (0 : Int) < -2 + 3 ∧ s.wd.streamAperture[(0 : Fin 4)].limit = s.streamLimit 0
        ∧ s.classOf 0x100002 = .streamAperture 0
        ∧ s.wd.streamAperture[(0 : Fin 4)].displacement lay.apertures[(0 : Fin 4)] 0x100002 = 0)
    ∧ (let s := filled 2 { expected := 2, limit := 3, held := true }
       s.wd.streamAperture[(0 : Fin 4)].held = true
        ∧ s.wd.streamAperture[(0 : Fin 4)].displacement lay.apertures[(0 : Fin 4)] 0x100002 = 0
        ∧ 0 < ahead s.wd.streamAperture[(0 : Fin 4)].limit s.wd.streamAperture[(0 : Fin 4)].expected) := by
  refine ⟨⟨rfl, ?_⟩, by decide +kernel, by decide +kernel⟩
  refine ⟨rfl, by decide +kernel, rfl, rfl, rfl, by decide +kernel, ?_, rfl, rfl, by decide +kernel⟩
  exact List.length_replicate ..

/-- Lane 0 reads, its aperture as given, its Framer waiting on a post or not. -/
def ringed (a : Aperture) (waits : Bool) : State :=
  { reading with
    wd := { reading.wd with ringAperture := reading.wd.ringAperture.set 0 a }
    re := { waiters := if waits then [{ unit := .framer 0, item := .post (.ringFault false 1 2) }] else [] } }

/-- A straddle of E beyond the limit; a gap; bytes below E; HELD with no room; HELD at E with room; with and without a wait. -/
theorem witness_RingWriteAccepted_further :
    (∀ waits, let s := ringed { expected := 100, limit := 102 } waits
      running s ∧ s.classOf 0x2000060 = .returnRing 0 ∧ s.lanes[(0 : Fin 4)].role = .read
        ∧ s.framers[(0 : Fin 4)].phase = .taking ∧ s.waiting (.framer 0) = waits ∧ (waits = false → s.re.hasRoom = true)
        ∧ s.wd.ringAperture[(0 : Fin 4)].displacement lay.rings[(0 : Fin 4)] 0x2000060 = -4
        ∧ ahead s.wd.ringAperture[(0 : Fin 4)].limit s.wd.ringAperture[(0 : Fin 4)].expected < ([1, 2, 3, 4, 5, 6, 7].drop 4).length
        ∧ s.wd.ringAperture[(0 : Fin 4)].displacement lay.rings[(0 : Fin 4)] 0x2000065 = 1
        ∧ s.wd.ringAperture[(0 : Fin 4)].displacement lay.rings[(0 : Fin 4)] 0x2000060 + 4 ≤ 0)
    ∧ (let full : Aperture := { expected := 100, limit := 100, held := true }
       full.held = true ∧ ahead full.limit full.expected = 0)
    ∧ (let s := ringed { expected := 100, limit := 101, held := true } false
       s.wd.ringAperture[(0 : Fin 4)].displacement lay.rings[(0 : Fin 4)] 0x2000064 = 0
        ∧ 0 < ahead s.wd.ringAperture[(0 : Fin 4)].limit s.wd.ringAperture[(0 : Fin 4)].expected) := by
  unfold running
  decide +kernel

/-- Stream 0 with its FILLING chunk of the bytes given and no other free buffer. -/
def lastChunk (data : List Byte) (held : Bool) : State :=
  { streaming with
    streams := s0.streams.set 0 { phase := .opened, slot := some 0, buffers := #v[{ state := .filling, data := data }, { state := .ready }] }
    wd := { s0.wd with streamAperture := s0.wd.streamAperture.set 0 { expected := 2, limit := 3, held := held } } }

theorem lastChunk_limit (data : List Byte) (held : Bool) (h : data.length = 16383) : limitCurrent (lastChunk data held) 0 := by
  show (3 : Word) = 2 + BitVec.ofNat 32 ((16384 - data.length) + 0)
  rw [h]
  decide

/-- A at E; A one byte beyond E; bytes below E; HELD elsewhere than at E. -/
theorem witness_StreamGapHolds_further :
    let s : State := { streaming with
      streams := s0.streams.set 0 { phase := .opened, slot := some 0, buffers := #v[{ state := .closed }, { state := .ready }] }
      wd := { s0.wd with streamAperture := s0.wd.streamAperture.set 0 { expected := 2, limit := 2 } } }
    (running s ∧ s.waiting (.stream 0) = false ∧ s.re.hasRoom = true
      ∧ s.wd.streamAperture[(0 : Fin 4)].displacement lay.apertures[(0 : Fin 4)] 0x100002 = 0
      ∧ s.wd.streamAperture[(0 : Fin 4)].limit = s.wd.streamAperture[(0 : Fin 4)].expected ∧ limitCurrent s 0)
    ∧ (∀ data held, let t := lastChunk data held
      running t ∧ t.wd.streamAperture[(0 : Fin 4)].held = held ∧ t.classOf 0x100002 = .streamAperture 0
      ∧ t.wd.streamAperture[(0 : Fin 4)].displacement lay.apertures[(0 : Fin 4)] 0x100002 = 0
      ∧ ahead t.wd.streamAperture[(0 : Fin 4)].limit t.wd.streamAperture[(0 : Fin 4)].expected < 2
      ∧ t.wd.streamAperture[(0 : Fin 4)].limit ≠ t.wd.streamAperture[(0 : Fin 4)].expected
      ∧ t.jt.jobs[(0 : Fin 8)].record.nextSeq ≠ 0xFFFFFFFF
      ∧ t.wd.streamAperture[(0 : Fin 4)].displacement lay.apertures[(0 : Fin 4)] 0x100000 + 2 ≤ 0
      ∧ t.wd.streamAperture[(0 : Fin 4)].displacement lay.apertures[(0 : Fin 4)] 0x100003 ≠ 0)
    ∧ limitCurrent (lastChunk (List.replicate 16383 7) false) 0 := by
  refine ⟨⟨rfl, rfl, rfl, by decide +kernel, rfl, by unfold limitCurrent; decide +kernel⟩, ?_,
    lastChunk_limit _ _ (List.length_replicate ..)⟩
  have h : ({ expected := 2, limit := 3 } : Aperture).displacement lay.apertures[(0 : Fin 4)] 0x100002 = 0
      ∧ ({ expected := 2, limit := 3 } : Aperture).displacement lay.apertures[(0 : Fin 4)] 0x100000 + 2 ≤ 0
      ∧ ({ expected := 2, limit := 3 } : Aperture).displacement lay.apertures[(0 : Fin 4)] 0x100003 ≠ 0
      ∧ ahead 3 2 < 2 ∧ (3 : Word) ≠ 2 ∧ (0 : Word) ≠ 0xFFFFFFFF ∧ s0.classOf 0x100002 = .streamAperture 0 := by decide +kernel
  exact fun data held => ⟨rfl, rfl, h.2.2.2.2.2.2, h.1, h.2.2.2.1, h.2.2.2.2.1, h.2.2.2.2.2.1, h.2.1, h.2.2.1⟩

/-- A live job; a WRITE lane. -/
theorem witness_LayoutSetAcceptsValid_busy :
    ∀ s ∈ [streaming, { s0 with lanes := s0.lanes.set 1 { role := .write } }],
      let r := layoutRequest [0, 0x24, 0]
      RequestNext (asking r s) (some .layoutSet) r
        ∧ ((∃ k : SlotId, (asking r s).jt.jobs[k].live = true) ∨ (∃ n : LaneId, (asking r s).lanes[n].role ≠ .idle)) := by
  simp only [List.mem_cons, List.not_mem_nil, or_false, forall_eq_or_imp, forall_eq]
  exact ⟨⟨next_of_ok (by decide +kernel), Or.inl (by decide +kernel)⟩,
    ⟨next_of_ok (by decide +kernel), Or.inr (by decide +kernel)⟩⟩

/-- Four DRAINED slots with a retain depth of 2. -/
theorem witness_SettingsClamped_frees :
    let r := request 2 1 [0, 2]
    let s := asking r { s0 with lanes := s0.lanes.set 0 {
      role := .write, slots := [.drained 9, .drained 7, .free, .ready 11, .drained 8, .drained 10] } }
    RequestNext s (some .laneSet) r ∧ laneNamed s (argByte r 4) 0 ∧ s.lanes[(0 : Fin 4)].openedAt = none
      ∧ drainedDistinct s.lanes[(0 : Fin 4)].slots ∧ 2 < s.lanes[(0 : Fin 4)].drainedCount := by
  unfold laneNamed
  refine ⟨next_of_ok (by decide +kernel), by decide +kernel, rfl, ?_, by decide +kernel⟩
  intro j k g hj hk
  have hj' := (List.getElem?_eq_some_iff.mp hj).1
  have hk' := (List.getElem?_eq_some_iff.mp hk).1
  have h : ∀ j k : Fin 6, [SlotState.drained 9, .drained 7, .free, .ready 11, .drained 8, .drained 10][j]
      = [SlotState.drained 9, .drained 7, .free, .ready 11, .drained 8, .drained 10][k] → j = k := by decide
  have := h ⟨j, hj'⟩ ⟨k, hk'⟩ (Option.some.inj (((List.getElem?_eq_getElem hj').symm.trans hj).trans
    (hk.symm.trans (List.getElem?_eq_getElem hk'))))
  exact congrArg Fin.val this

/-- The head of the backlog's waiters is a unit's post, the backlog holding five reports. -/
def posting (unit : Poster) (rest : List Waiter) (s : State) : State :=
  { s with re := { s.re with
    backlog := List.replicate 5 (.doorOpened .b 3)
    waiters := { unit := unit, item := .post (.labelChanged 5 6 none none) } :: rest } }

/-- A JOB_DONE of one of two WRITE jobs of lane 0 waits; an end condition of a VERIFY job is held. -/
theorem witness_BacklogAdmitted_jobTable :
    let record (k : Nat) (x : JobState) : JobRecord := { tag := BitVec.ofNat 8 k, state := x, stream := BitVec.toFin (BitVec.ofNat 2 k) }
    let s : State := posting .jobTable [{ unit := .loader, item := .post (.doorOpened .a 9) }] { s0 with jt := {
      jobs := ((s0.jt.jobs.set 1 { live := true, record := record 1 .draining }).set 2 { live := true, record := record 2 .active }).set 3 {
        live := true, record := { tag := 9, kind := .verify, state := .active, lane := 1 } }
      ending := some 1, held := [.endCondition 3] } }
    running s ∧ (∀ w ∈ s.re.waiters.drop 1, w.unit ≠ .requestEngine ∧ w.unit ≠ .jobTable)
      ∧ s.re.backlog.length + (if s.re.reservation then 1 else 0) < 64 ∧ s.re.inHand = none ∧ s.re.pendingRingFault = none
      ∧ s.jt.ending = some 1 ∧ s.jt.jobs[(1 : Fin 8)].record.kind = .write ∧ writeJob s 0 2
      ∧ s.waiting (.laneUnit 0) = false ∧ s.jt.held = [.endCondition 3] ∧ s.jt.jobs[(3 : Fin 8)].live = true
      ∧ s.jt.jobs[(3 : Fin 8)].record.state = .active ∧ s.de.operation = none ∧ (∀ e ∈ s.de.queue, e.slot ≠ 3) ∧ 3 ∉ s.de.due := by
  unfold running writeJob
  decide +kernel

/-- A GROUP_READY of lane 0 waits: a final-byte signal of the OPEN slot is held; the packer waits to open the next slot, at a
segment's start and within one. -/
theorem witness_BacklogAdmitted_laneUnit :
    let other : List Waiter := [{ unit := .stream 2, item := .post (.doorOpened .a 9) }]
    (let s := posting (.laneUnit 0) other { draining with
        lanes := draining.lanes.set 0 { draining.lanes[(0 : Fin 4)] with heldReads := [4] } }
     running s ∧ s.lanes[(0 : Fin 4)].heldSignals = [] ∧ s.lanes[(0 : Fin 4)].packing = none
      ∧ s.lanes[(0 : Fin 4)].slots[4]? = some (.opened 14))
    ∧ ∀ starting : Bool,
      let k : Packing := { stream := 0, buffer := 0, rest := [1], starting := starting }
      let s := posting (.laneUnit 0) other { draining with
        lanes := draining.lanes.set 0 { draining.lanes[(0 : Fin 4)] with position := none, packing := some k } }
      running s ∧ s.lanes[(0 : Fin 4)].heldReads = [] ∧ (k.starting = true ∨ k.rest ≠ [])
        ∧ s.lanes[(0 : Fin 4)].slots[s.lanes[(0 : Fin 4)].nextSlot]? = some .free := by
  unfold running
  decide +kernel

/-- A Framer's post waits: nothing in hand; a frame to finish; a pending OVERRUN. -/
theorem witness_BacklogAdmitted_framer :
    let w : FrameWork := {
      position := 70, name := ⟨5, 2⟩, firstSegment := 3, dataEnd := 40, recorded := 3, slip := false, cursor := 5, stage := .finish false }
    ∀ frame ∈ [none, some w], ∀ r ∈ [none, some (Report.doorOpened .a 7)],
      let s := posting (.framer 0) [] { reading with framers := reading.framers.set 0 { reading.framers[(0 : Fin 4)] with
        frame := frame, pendingOverrun := r } }
      running s ∧ s.wd.layout = some lay ∧ s.framers[(0 : Fin 4)].phase = .taking ∧ s.framers[(0 : Fin 4)].pastLast = false
        ∧ s.framers[(0 : Fin 4)].held = [] ∧ s.framers[(0 : Fin 4)].frame = frame ∧ s.framers[(0 : Fin 4)].pendingOverrun = r
        ∧ s.framers[(0 : Fin 4)].assembler = .waitStart ∧ s.re.backlog.length < 62 := by
  unfold running
  decide +kernel

/-- A LABEL_CHANGED waits with a GET's label handed over; one with a door's edge held; an ORDER_DONE with another to follow. -/
theorem witness_BacklogAdmitted_directory_loader :
    let o : Order := { tag := 9, kind := .move, source := some 5, target := some 28, active := true }
    (let s := posting .directory [] { s0 with lc := {
        state := .busy, station := some 5, queue := [o], step := some { kind := .labelRead, station := 5, part := .labelHanded } } }
     running s ∧ s.cd.held = [] ∧ s.lc.queue = o :: [] ∧ o.active = true ∧ o.target = some 28
      ∧ s.lc.step = some { kind := .labelRead, station := 5, part := .labelHanded } ∧ s.lc.station = some 5
      ∧ (5 : Int) ≠ (28 : PlaceId).val)
    ∧ (let s := posting .directory [] { s0 with cd := { s0.cd with held := [.edge .a] } }
       running s ∧ s.cd.held = [.edge .a] ∧ s.lc.step = none ∧ loaderFree s ∧ s.lc.queue = [] ∧ s.re.backlog.length < 62)
    ∧ (let s := posting .loader [] { s0 with lc := { posts := [.doorOpened .a 1], heldDoors := [.a, .b] } }
       running s ∧ s.lc.queue = [] ∧ s.re.backlog.length + s.lc.posts.length < 63) := by
  unfold running loaderFree
  decide +kernel

/-- A stale image has its witness above; an image that is not stale. -/
theorem witness_StatusRefreshed_fresh : running s0 ∧ s0.re.stale = false := ⟨rfl, rfl⟩

/-- Both buffers FREE: with another WRITE job and nothing packed; the lane's only one, its last end group not released. -/
theorem witness_StreamCloseCloses_drains :
    let r := request 0x11 7 []
    let job : JobRecord := { tag := 7, state := .active, cart := 3 }
    let streams := s0.streams.set 0 { phase := .opened, slot := some 0 }
    (let s := asking r { draining with
        streams := streams
        jt := { jobs := (s0.jt.jobs.set 0 { live := true, record := job }).set 2 {
          live := true, record := { tag := 8, state := .active, stream := 2 } } } }
     RequestNext s (some .streamClose) r ∧ jobTableFree s ∧ liveOnly s 0 (recordTag r)
      ∧ (∀ f : Fin 2, s.streams[(0 : Fin 4)].buffers[f].state = .free) ∧ roomFor s 1 ∧ writeJob s 0 2
      ∧ s.jt.jobs[(0 : Fin 8)].record.lastEnd = none ∧ s.jt.jobs[(2 : Fin 8)].record.state ≠ .draining)
    ∧ (let s := asking r { draining with
        streams := streams, jt := { jobs := s0.jt.jobs.set 0 { live := true, record := { job with lastEnd := some 14 } } } }
       RequestNext s (some .streamClose) r ∧ jobTableFree s ∧ liveOnly s 0 (recordTag r) ∧ soleWriteJob s 0 0
        ∧ s.wd.layout = some lay ∧ s.lanes[(0 : Fin 4)].position = some { slot := 4, frame := 2, offset := 848 }
        ∧ s.lanes[(0 : Fin 4)].slots[4]? = some (.opened 14) ∧ s.lanes[(0 : Fin 4)].packing = none
        ∧ s.cd.records[s.jt.jobs[(0 : Fin 8)].record.cart] = some cart3 ∧ cart3.written.toNat ≤ (14 : Word).toNat) := by
  unfold jobTableFree liveOnly roomFor soleWriteJob writeJob
  exact ⟨⟨next_of_ok (by decide +kernel), by decide +kernel⟩, ⟨next_of_ok (by decide +kernel), by decide +kernel⟩⟩

/-- No room in the catalog; a segment that does not fit, with no open slot and with one; a claim with nothing READY. -/
theorem witness_PackerBegins_further :
    let full (f : Lane → Lane) : State :=
      let s := chunk .ready (some header13)
      { s with
        lanes := s.lanes.set 0 (f s.lanes[(0 : Fin 4)])
        jt := { jobs := s0.jt.jobs.set 0 { live := true, record := { tag := 4, state := .active, cart := 3, lastEnd := some 14 } } }
        cd := { s.cd with records := s.cd.records.set 3 (some { cart3 with limit := 15 }) } }
    let last : Position := { slot := 4, frame := 7, offset := 4061 }
    (let s : State := { chunk .ready (some header13) with sc := { producer := 262144 } }
     (0 : LaneId) ∉ s.sc.claims ∧ (0 : LaneId) ∉ s.sc.waitList
      ∧ ¬ (s.sc.claims.length + (s.sc.producer - s.sc.consumer).toNat < lay.catalog.size / 32))
    ∧ (let s := full fun x => { x with position := none, slots := [.ready 14], nextGroup := 15 }
       running s ∧ jobTableFree s ∧ soleWriteJob s 0 0 ∧ nothingPacked s 0 ∧ s.lanes[(0 : Fin 4)].position = none
        ∧ (32608 : Int) * (((15 : Word).toNat : Int) - s.lanes[(0 : Fin 4)].nextGroup.toNat) < 23
        ∧ cart3.written.toNat ≤ (14 : Word).toNat ∧ s.cd.records[s.jt.jobs[(0 : Fin 8)].record.cart] = some { cart3 with limit := 15 })
    ∧ (let s := full fun x => { x with position := some last }
       s.lanes[(0 : Fin 4)].position = some last ∧ s.lanes[(0 : Fin 4)].slots[4]? = some (.opened 14) ∧ s.re.hasRoom = true
        ∧ (if last.offset + 16 ≤ 4076 then (4076 - last.offset : Int) else 0) + (7 - last.frame) * 4076
          + (((15 : Word).toNat : Int) - 1 - (14 : Word).toNat) * 32608 < 23)
    ∧ (let s : State := { draining with sc := { claims := [0], waitList := [1] } }
       running s ∧ (0 : LaneId) ∈ s.sc.claims ∧ ∀ (i : StreamId) (b : Fin 2), s.streams[i].buffers[b].state ≠ .ready) := by
  unfold running jobTableFree soleWriteJob writeJob nothingPacked
  refine ⟨by decide +kernel, ?_, by decide +kernel, by decide +kernel⟩
  refine ⟨rfl, ⟨rfl, rfl⟩, by decide +kernel, fun b => ⟨?_, fun h => absurd h ?_⟩, by decide +kernel⟩ <;>
  · revert b; decide +kernel

/-- Frame 7 full in the middle of a segment, the next slot FREE and not; the segment's last byte in the cartridge's last group;
a close pending for the open slot. -/
theorem witness_PackerCopies_further :
    let at' (rest : List Byte) (f : Lane → Lane) : State :=
      let s := copyingAt rest 7 4074
      { s with lanes := s.lanes.set 0 (f s.lanes[(0 : Fin 4)]) }
    (let s := at' [1, 2, 3] id
     4076 - 4074 < [(1 : Byte), 2, 3].length ∧ (s.lanes[(0 : Fin 4)].slots.set 4 (.ready 14))[s.lanes[(0 : Fin 4)].nextSlot]? = some .free)
    ∧ (let s := at' [1, 2, 3] fun x => { x with nextSlot := 0 }
       (s.lanes[(0 : Fin 4)].slots.set 4 (.ready 14))[s.lanes[(0 : Fin 4)].nextSlot]? ≠ some .free)
    ∧ (let s := at' [1, 2] fun x => { x with nextGroup := 100 }
       running s ∧ s.lanes[(0 : Fin 4)].nextGroup = cart3.limit ∧ jobTableFree s ∧ soleWriteJob s 0 0
        ∧ s.jt.jobs[(0 : Fin 8)].record.state = .active ∧ s.jt.jobs[(0 : Fin 8)].record.stream = 0
        ∧ s.streams[(0 : Fin 4)].buffers[(0 : Fin 2)].state = .packing ∧ (0 : LaneId) ∉ s.sc.claims ∧ (0 : LaneId) ∉ s.sc.waitList)
    ∧ (let s := at' [1] fun x => { x with closePending := some (.age, 4) }
       running s ∧ s.lanes[(0 : Fin 4)].closePending = some (.age, 4) ∧ [(1 : Byte)].length < 4076 - 4074 ∧ s.re.hasRoom = true) := by
  unfold running jobTableFree soleWriteJob writeJob
  decide +kernel

/-- Lane 0 drains, with slots, a position, a packing and jobs as given. -/
def releasing (slots : List SlotState) (pos : Option Position) (packing : Option Packing) (jobs : List JobRecord) : State :=
  { draining with
    lanes := draining.lanes.set 0 { draining.lanes[(0 : Fin 4)] with slots := slots, position := pos, packing := packing }
    re := { s0.re with laneSettings := s0.re.laneSettings.set 0 { streamingLimit := 24 } }
    jt := { jobs := Vector.ofFn fun k : Fin 8 => match jobs[k.val]? with | some r => { live := true, record := r } | none => {} } }

/-- The last READY slot is released within the streaming limit, with and without a segment being packed; a DRAINING job's last end
group, with another WRITE job and without. -/
theorem witness_GroupReleased_further :
    let open' : Position := { slot := 1, frame := 2, offset := 848 }
    let active : JobRecord := { tag := 1, state := .active }
    let ending : JobRecord := { tag := 2, state := .draining, stream := 1, lastEnd := some 12 }
    let k : Packing := { stream := 0, buffer := 0, rest := [1], starting := false }
    (∀ packing ∈ [none, some k],
      let s := releasing [.ready 12, .opened 13] (some open') packing [active]
      running s ∧ s.finalByteOf 0x1007FFF = some (0, 0) ∧ s.waiting (.laneUnit 0) = false ∧ s.lanes[(0 : Fin 4)].role = .write
        ∧ jobTableFree s ∧ writeJob s 0 0 ∧ s.lanes[(0 : Fin 4)].packing = packing
        ∧ s.lanes[(0 : Fin 4)].drainedCount
          < min s.re.laneSettings[(0 : Fin 4)].retainDepth (s.lanes[(0 : Fin 4)].slots.length - 1)
        ∧ (3 * 24000 + (max s.timebase 24000 - 0)) / 4 ≤ 24 * 1000 ∧ s.lanes[(0 : Fin 4)].interval = some 24000
        ∧ s.lanes[(0 : Fin 4)].lastRelease = some 0 ∧ s.lanes[(0 : Fin 4)].slots[1]? = some (.opened 13))
    ∧ (let s := releasing [.ready 12, .opened 13] (some open') none [active, ending]
       running s ∧ jobTableFree s ∧ writeJob s 0 1 ∧ s.jt.jobs[(1 : Fin 8)].record.state = .draining
        ∧ s.jt.jobs[(1 : Fin 8)].record.lastEnd = some 12 ∧ roomFor s 1
        ∧ (∀ i, writeJob s 0 i → i ≠ 1 → s.jt.jobs[i].record.state ≠ .draining) ∧ (∃ i, writeJob s 0 i ∧ i ≠ 1)
        ∧ ¬ (3 * 24000 + (max s.timebase 24004 - 0)) / 4 ≤ 24 * 1000)
    ∧ (let s := releasing [.ready 12, .free] none none [ending]
       running s ∧ writeJob s 0 0 ∧ (∀ i, writeJob s 0 i → i = 0) ∧ (0 : LaneId) ∉ s.sc.claims ∧ (0 : LaneId) ∉ s.sc.waitList
        ∧ ∀ x ∈ retained 1 (s.lanes[(0 : Fin 4)].slots.set 0 (.drained 12)), x = .drained 12 ∨ x = .free) := by
  unfold running jobTableFree roomFor writeJob
  intro open' active ending k
  exact ⟨by decide +kernel, by decide +kernel, by decide +kernel⟩

/-- The successor, the frame itself and an earlier one, across the wrap of the group number; a good segment header of each mode's
longest raw length, and for each check one that fails it. -/
theorem witness_HeaderJudged_further :
    let head (mode raw stored : Nat) : List Byte := [0xA7, 0x5E] ++ byte1 mode ++ [9] ++ half raw ++ half stored ++ word 5 ++ word 99
    let bad := [(head 3 1 1, SegmentFaultReason.mode), (head 1 0 0, .length), (head 1 16385 1, .length), (head 1 100 101, .length),
      (head 2 100 99, .length), (0 :: (head 1 1 1).drop 1, .mark)]
    (({ group := 0xFFFFFFFF, index := 7 } : FrameName).distance { group := 0, index := 0 } = 1
      ∧ (frame5 3).distance (frame5 3) = 0 ∧ (frame5 3).distance { group := 4, index := 3 } = -8)
    ∧ (∀ x ∈ bad, x.1.length = 16 ∧ firstHolds x.2 (headerFaults x.1))
    ∧ noneHolds (headerFaults (head 1 16384 16384)) ∧ noneHolds (headerFaults (head 2 16384 16384)) := by
  refine ⟨by decide, ?_, ?_, ?_⟩
  · simp only [List.mem_cons, List.not_mem_nil, or_false, forall_eq_or_imp, forall_eq, headerFaults, firstHolds]
    refine ⟨?_, ?_, ?_, ?_, ?_, ?_⟩ <;> decide
  · simp only [headerFaults, noneHolds]
    decide
  · simp only [headerFaults, noneHolds]
    decide

/-- A frame at the start of lane 0's ring, with bytes from the payload offset of its first segment on. -/
def frameIn (x : FrameName) (check : Word) (first : Option Nat) (fill : Nat) (segment : List Byte) : List Host.Cell :=
  memWrite (memWrite [] 0x2000000 (frameHeader x.group check first x.index.val false fill)) (0x2000014 + first.getD 0) segment

/-- Lane 0 LOCKED for a job of a kind, expecting a frame, with an assembler state and memory. -/
def lockedOn (kind : JobKind) (x : FrameName) (a : Assembler) (m : List Host.Cell) (whole : Bool := true) : State :=
  { framed 5 .locked 4096 with
    mem := m
    jt := { jobs := s0.jt.jobs.set 0 { live := true, record := {
      tag := 5, kind := kind, state := .active, cart := 3, lastGroup := 9, sourceTag := 9, firstChunk := 3, lastChunk := 9 } } }
    framers := reading.framers.set 0 {
      slot := some 0, phase := .taking, sync := .locked, expected := some x, lastAccepted := some (frame5 1), assembler := a
      groupInHand := some { group := x.group, accumulating := whole, check := 0 } } }

/-- What every clause of FrameTaken asks of the state. -/
theorem witness_FrameTaken_state (kind : JobKind) (x : FrameName) (a : Assembler) (m : List Host.Cell) (whole : Bool)
    (h : ∀ y, a ≠ .hold y) :
    let s := lockedOn kind x a m whole
    running s ∧ FramerFree s 0 ∧ s.wd.layout = some lay ∧ s.framers[(0 : Fin 4)].sync = .locked
      ∧ s.framers[(0 : Fin 4)].expected = some x ∧ s.framers[(0 : Fin 4)].slot = some 0
      ∧ s.jt.jobs[(0 : Fin 8)].record.state = .active ∧ (∀ y, s.framers[(0 : Fin 4)].assembler ≠ .hold y)
      ∧ 4096 ≤ (s.wd.ringAperture[(0 : Fin 4)].expected - s.framers[(0 : Fin 4)].scan).toNat
      ∧ s.framers[(0 : Fin 4)].groupInHand = some { group := x.group, accumulating := whole, check := 0 }
      ∧ s.framers[(0 : Fin 4)].lastSettled = none ∧ s.framers[(0 : Fin 4)].failures = 0 ∧ roomFor s 2 ∧ jobTableFree s
      ∧ s.jt.jobs[(0 : Fin 8)].live = true ∧ s.de.operation = none ∧ s.de.queue = [] ∧ s.de.holding = [] ∧ s.de.due = [] :=
  ⟨rfl, ⟨rfl, rfl, rfl, rfl⟩, rfl, rfl, rfl, rfl, rfl, h, (by decide : 4096 ≤ ((4096 : Word) - 0).toNat), rfl, rfl, rfl,
    ⟨rfl, (by decide : 0 + 2 < 64)⟩, ⟨rfl, rfl⟩, rfl, rfl, rfl, rfl, rfl⟩

theorem crcUpdate_zeros (n : Nat) : crcUpdate 0 (List.replicate n 0) = 0 := by
  induction n with
  | zero => rfl
  | succ n ih => exact ih

theorem ring_zeros (w : Window) (h : List Byte) (hb : w.base = 0x2000000) (hs : w.size = 0x400000) (hl : h.length = 20) :
    ringBytes (memWrite [] 0x2000000 h) w 20 4076 = List.replicate 4076 0 := by
  unfold ringBytes
  rw [List.eq_replicate_iff]
  refine ⟨by simp, fun b hb' => ?_⟩
  obtain ⟨i, hi, rfl⟩ := List.mem_map.mp hb'
  have hi := List.mem_range.mp hi
  have ha : 0x2000014 ≤ ringAddress w ((20 : Word) + BitVec.ofNat 32 i).toNat := by
    have : ((20 : Word) + BitVec.ofNat 32 i).toNat = 20 + i := by
      rw [BitVec.toNat_add, BitVec.toNat_ofNat]
      show (20 + i % 4294967296) % 4294967296 = 20 + i
      omega
    unfold ringAddress
    rw [hb, hs, this]
    omega
  rw [memRead_memWrite_outside _ _ _ _ (by omega)]
  rfl

/-- Behind a frame header written into empty memory the payload is all zeros. -/
theorem payload_zeros (h : List Byte) (hl : h.length = 20) :
    ringBytes (memWrite [] 0x2000000 h) lay.rings[(0 : Fin 4)] 20 4076 = List.replicate 4076 0 := ring_zeros _ h rfl rfl hl

/-- A slip by one frame; frame 7 of a broken group, and of a whole one with its group check right and wrong. -/
theorem witness_FrameTaken_settles :
    let head (m : List Host.Cell) := ringBytes m lay.rings[(0 : Fin 4)] 0 20
    (let m := frameIn (frame5 3) 0 none 0 []
     headerGood (head m) = true ∧ headerName (head m) = frame5 3 ∧ 0 < (frame5 2).distance (frame5 3)
      ∧ (frame5 3).index ≠ 7 ∧ fieldNat (head m) 12 2 = 0xFFFF ∧ ((5 : Word) - 9).toInt ≤ 0)
    ∧ ∀ check ∈ [(0xFFFFFFFF : Word), 0],
      let m := memWrite [] 0x2000000 (frameHeader 5 check none 7 false 0)
      (headerGood (head m) = true ∧ headerName (head m) = frame5 7 ∧ fieldNat (head m) 12 2 = 0xFFFF
        ∧ fieldNat (head m) 8 4 = check.toNat)
      ∧ ~~~ crcUpdate 0 (ringBytes m lay.rings[(0 : Fin 4)] (0 + 20) 4076) = 0xFFFFFFFF := by
  refine ⟨by decide +kernel, ?_⟩
  simp only [List.mem_cons, List.not_mem_nil, or_false, forall_eq_or_imp, forall_eq]
  refine ⟨⟨by decide +kernel, ?_⟩, ⟨by decide +kernel, ?_⟩⟩ <;>
  · rw [show (0 : Word) + 20 = 20 from rfl, payload_zeros _ (by decide +kernel), crcUpdate_zeros]
    rfl

/-- A segment header for the witnesses of the assembler. -/
def segmentHead (tag : Byte) (stored : Nat) (sequence : Word) : List Byte :=
  [0xA7, 0x5E, 1, tag] ++ half 16384 ++ half stored ++ word sequence ++ word 99

/-- The decision that none of the header faults holds. -/
def headOk (h : List Byte) : Bool :=
  decide (h.take 2 = [0xA7, 0x5E]) && decide (fieldNat h 2 1 = 1) && decide (1 ≤ fieldNat h 4 2) && decide (fieldNat h 4 2 ≤ 16384)
    && decide (1 ≤ fieldNat h 6 2) && decide (fieldNat h 6 2 ≤ fieldNat h 4 2)

theorem head_of_ok {h : List Byte} (k : headOk h = true) : noneHolds (headerFaults h) := by
  simp only [headOk, Bool.and_eq_true, decide_eq_true_eq] at k
  obtain ⟨⟨⟨⟨⟨h1, h2⟩, h3⟩, h4⟩, h5⟩, h6⟩ := k
  exact ⟨fun x => x h1, fun x => x.1 h2, fun x => by omega, fun x => by omega, fun x => by omega, trivial⟩

/-- In the assembler: no data; the first header at the data end; one that the data end splits; a header with a bad mode; the
longest part of a segment that leaves some over; a segment cut SHORT; one that ends with the data, wanted and not. -/
theorem witness_FrameTaken_assembles :
    let head (m : List Host.Cell) := ringBytes m lay.rings[(0 : Fin 4)] 0 20
    let opens (m : List Host.Cell) := fieldNat (head m) 12 2
    let dataEnd (m : List Host.Cell) := 4076 - fieldNat (head m) 17 2
    let segment (m : List Host.Cell) := ringBytes m lay.rings[(0 : Fin 4)] (20 + BitVec.ofNat 32 (opens m)) 16
    let m (first : Option Nat) (fill : Nat) (bytes : List Byte) := frameIn (frame5 2) 0 first fill bytes
    (∀ x ∈ [m none 0 [], m (some 9) 4076 [], m (some 40) 4036 [], m (some 4061) 0 [], m (some 0) 0 (segmentHead 9 4 5)],
      headerGood (head x) = true ∧ headerName (head x) = frame5 2)
    ∧ dataEnd (m (some 9) 4076 []) = 0
    ∧ opens (m (some 40) 4036 []) = dataEnd (m (some 40) 4036 [])
    ∧ dataEnd (m (some 4061) 0 []) < opens (m (some 4061) 0 []) + 16
    ∧ (let x := m (some 0) 0 ([0xA7, 0x5E, 3] ++ (segmentHead 9 4 5).drop 3)
       firstHolds SegmentFaultReason.mode (headerFaults (segment x)) ∧ opens x + 16 ≤ dataEnd x)
    ∧ (let x := m (some 60) 0 (segmentHead 9 4001 5)
       noneHolds (headerFaults (segment x)) ∧ dataEnd x - (opens x + 16) < (headerFields (segment x)).storedLength ∧ dataEnd x = 4076)
    ∧ (let x := m (some 60) 1 (segmentHead 9 4000 5)
       noneHolds (headerFaults (segment x)) ∧ dataEnd x - (opens x + 16) < (headerFields (segment x)).storedLength ∧ dataEnd x ≠ 4076)
    ∧ ∀ tag ∈ [(9 : Byte), 10],
      let x := m (some 60) 0 (segmentHead tag 4000 5)
      let job := (lockedOn .restore (frame5 2) .waitStart x).jt.jobs[(0 : Fin 8)].record
      noneHolds (headerFaults (segment x)) ∧ (headerFields (segment x)).storedLength = dataEnd x - (opens x + 16)
        ∧ (tag = 9 ↔ wantedBy job (headerFields (segment x)))
        ∧ ((headerFields (segment x)).tag = job.sourceTag → (headerFields (segment x)).sequence.toNat < job.lastChunk.toNat) := by
  refine ⟨by decide +kernel, by decide +kernel, by decide +kernel, by decide +kernel, ⟨?_, by decide +kernel⟩, ⟨?_, by decide +kernel⟩,
    ⟨?_, by decide +kernel⟩, ?_⟩
  · simp only [headerFaults, firstHolds]
    decide +kernel
  · exact head_of_ok (by decide +kernel)
  · exact head_of_ok (by decide +kernel)
  · intro tag htag
    have h : tag = 9 ∨ tag = 10 := by simpa using htag
    unfold wantedBy
    rcases h with rfl | rfl
    · exact ⟨head_of_ok (by decide +kernel), by decide +kernel⟩
    · exact ⟨head_of_ok (by decide +kernel), by decide +kernel⟩

/-- A partial segment of `left` more bytes, as the assembler collects it. -/
def partly (wanted : Bool) (sequence : Word) (left : Nat) : Assembly :=
  { wanted := wanted, header := { header13 with tag := 9, sequence := sequence }, frame := frame5 1, offset := 3, position := 0
    pieces := [], remaining := left }

/-- A collected segment that goes on, that is cut SHORT and that ends in the frame; a full queue. -/
theorem witness_FrameTaken_collects :
    let head (m : List Host.Cell) := ringBytes m lay.rings[(0 : Fin 4)] 0 20
    (∀ fill ∈ [0, 1], let m := frameIn (frame5 2) 0 none fill []
      headerGood (head m) = true ∧ headerName (head m) = frame5 2 ∧ 4076 - fieldNat (head m) 17 2 = 4076 - fill
        ∧ 4076 - fill < (partly true 5 4077).remaining)
    ∧ (∀ wanted, (partly wanted 5 4076).remaining = 4076 ∧ (partly wanted 5 4076).wanted = wanted
      ∧ (partly wanted 5 4076).header.tag = 9 ∧ (partly wanted 5 4076).header.sequence.toNat < (9 : Word).toNat)
    ∧ 8 ≤ (List.replicate 8 (segment13 .verify)).length := by
  decide +kernel

/-- A VERIFY job's frame of the group after its last; a RESTORE job's header beyond its last chunk and its last chunk itself. -/
theorem witness_FrameTaken_ends :
    let head (m : List Host.Cell) := ringBytes m lay.rings[(0 : Fin 4)] 0 20
    let x : FrameName := { group := 10, index := 0 }
    (let m := frameIn x 0 none 0 []
     headerGood (head m) = true ∧ headerName (head m) = x ∧ x.index ≠ 7 ∧ 0 < (x.group - 9).toInt)
    ∧ (let m := frameIn (frame5 2) 0 (some 0) 0 (segmentHead 9 4 10)
       let segment := ringBytes m lay.rings[(0 : Fin 4)] 20 16
       headerGood (head m) = true ∧ headerName (head m) = frame5 2 ∧ noneHolds (headerFaults segment)
        ∧ (headerFields segment).tag = 9 ∧ (9 : Word).toNat < (headerFields segment).sequence.toNat)
    ∧ ((partly true 9 4076).wanted = true ∧ (partly true 9 4076).remaining ≤ 4076 ∧ 0 < (partly true 9 4076).remaining
      ∧ (partly true 9 4076).header.tag = 9 ∧ (9 : Word).toNat ≤ (partly true 9 4076).header.sequence.toNat) := by
  refine ⟨by decide +kernel, ⟨by decide +kernel, by decide +kernel, ?_, by decide +kernel⟩, by decide +kernel⟩
  exact head_of_ok (by decide +kernel)

/-- A Framer holds a segment, its queue of eight entries giving one up, with a frame to finish and without. -/
theorem witness_DecodeProceeds_holds :
    let w : FrameWork := {
      position := 0, name := frame5 2, firstSegment := 0, dataEnd := 4076, recorded := 0, slip := false, cursor := 4076, stage := .assemble }
    ∀ kind ∈ [JobKind.verify, .restore], ∀ frame ∈ [none, some w],
      let s₀ := lockedOn kind (frame5 3) (.hold (partly true 5 0)) []
      let s : State := { s₀ with
        framers := s₀.framers.set 0 { s₀.framers[(0 : Fin 4)] with frame := frame }
        de := { queue := List.replicate 8 { segment13 .verify with lane := 1 }, holding := [0] } }
      running s ∧ s.de.operation = none ∧ s.de.due = [] ∧ (s.de.queue.drop 1).length < 8 ∧ s.de.holding = [0]
        ∧ s.wd.layout = some lay ∧ s.framers[(0 : Fin 4)].assembler = .hold (partly true 5 0)
        ∧ s.framers[(0 : Fin 4)].slot = some 0 ∧ s.framers[(0 : Fin 4)].phase = .taking ∧ s.waiting (.framer 0) = false
        ∧ s.framers[(0 : Fin 4)].pastLast = false ∧ s.framers[(0 : Fin 4)].frame = frame
        ∧ (partly true 5 0).header.sequence.toNat < s.jt.jobs[(0 : Fin 8)].record.lastChunk.toNat := by
  unfold running
  decide +kernel

/-- A RESTORE job in ENDING with one chunk left to deliver, Pr at 65,536. -/
def evaluating (consumer : Word) (op : Option DecodeOperation) : State :=
  { settling .restore .good with
    jt := { jobs := s0.jt.jobs.set 0 { live := true, record := {
      tag := 5, kind := .restore, state := .ending, cart := 3, lastChunk := 105, ringBase := 0x4000000, ringSize := 65536 } } }
    de := { operation := op, due := if op.isNone then [0] else []
            slots := (Vector.replicate 8 {}).set 0 { producer := 65536, consumer := consumer, expected := 105 } } }

/-- Its evaluation due or in flight, the ring with room for 15 bytes and for 16. -/
theorem witness_restore_evaluations :
    (∀ c op, let s := evaluating c op
      running s ∧ s.de.operation = op ∧ jobTableFree s ∧ s.jt.jobs[(0 : Fin 8)].live = true
        ∧ s.jt.jobs[(0 : Fin 8)].record.kind = .restore ∧ s.re.hasRoom = true
        ∧ s.waiting (.framer s.jt.jobs[(0 : Fin 8)].record.lane) = false ∧ s.wd.layout = some lay
        ∧ s.jt.jobs[(0 : Fin 8)].record.ringSize = 65536 ∧ s.jt.jobs[(0 : Fin 8)].record.lastChunk = 105
        ∧ s.de.slots[(0 : Fin 8)].expected = 105 ∧ s.de.slots[(0 : Fin 8)].producer = 65536
        ∧ s.de.slots[(0 : Fin 8)].consumer = c ∧ catalogBounded s lay)
    ∧ (∀ c, (evaluating c none).de.due = 0 :: [])
    ∧ 105 ≤ (105 : Word).toNat ∧ (105 : Word).toNat + 1 - 105 < 4294967296 ∧ 0 < (65536 : Word).toNat
    ∧ (65536 : Word).toNat + 16 < 4294967296 ∧ (65536 : Word).toNat - ((65536 : Word) - 15).toNat < 16
    ∧ 16 ≤ (65536 : Word).toNat - ((65536 : Word) - 16).toNat :=
  ⟨fun _ _ => ⟨rfl, rfl, ⟨rfl, rfl⟩, rfl, rfl, rfl, rfl, rfl, rfl, rfl, rfl, rfl, rfl,
    (by decide : 0 < 8388608 / 32 ∧ ((0 : Word) - 0).toNat ≤ 8388608 / 32 ∧ (0 : Word).toNat + ((0 : Word) - 0).toNat < 4294967296)⟩,
    fun _ => rfl, by decide⟩


/-- Door A opens under a travel to A01, and under a label read there with an exchange in progress. -/
theorem witness_DoorEdgesTaken_order :
    let exchange : Exchange := { sent := 0, limit := { started := 0, length := 5000 } }
    ∀ step ∈ [({ kind := .travel, station := 5, part := .moving } : ActiveStep), { kind := .labelRead, station := 5, part := .reading }],
      let s := active moveOrder { state := .busy, station := some 3, step := some step, exchange := some exchange, exchanging := true }
      running s ∧ s.cd.doorA.isOpen = false ∧ s.waiting .directory = false ∧ loaderFree s
        ∧ s.lc.queue = { moveOrder with active := true } :: [] ∧ s.lc.step = some step ∧ step.kind ≠ .get ∧ step.kind ≠ .put
        ∧ moveOrder.source = some 5 ∧ (5 ≤ (5 : PlaceId).val ∧ (5 : PlaceId).val ≤ 16) ∧ s.cd.held = [] ∧ roomFor s 2
        ∧ (∀ c, s.cd.places[pickerPlace].state ≠ .occupied c) := by
  unfold running loaderFree roomFor
  decide +kernel

/-- A MOUNT by a label no record has, onto the absent drive 2: BAD_ARGUMENT, log 29's choice. -/
theorem witness_OrderRefused_absentDrive :
    let r := request 0x41 9 [0xFF, 2, 0, 0, 65, 65, 65, 65, 65, 65, 65, 65]
    RequestNext (asking r shelves) (some (orderRow .mount)) r ∧ 1 ≤ recordTag r ∧ recordTag r ≤ 255
      ∧ loaderFree (asking r shelves) ∧ orderArgumentBad (asking r shelves) (orderRow .mount) r
      ∧ (∀ d : CartId, ((asking r shelves).cd.records[d].bind fun x => x.label) ≠ some (argLabel r 8))
      ∧ lastCode (after (.mount {}) (asking r shelves)) = some .badArgument := by
  refine ⟨next_of_ok (by decide +kernel), by decide +kernel, by decide +kernel, ⟨rfl, rfl⟩, Or.inl ?_, by decide +kernel,
    by decide +kernel⟩
  unfold driveByte
  decide +kernel

/-- A GET and a PUT in progress, one order more in the queue. -/
theorem witness_LoaderHalts_gripper :
    let r := request 0x45 0 []
    let o : Order := { moveOrder with active := true }
    (let y : ActiveStep := { kind := .get, station := 5, part := .extending }
     let s := asking r { shelves with lc := { state := .busy, station := some 5, step := some y, queue := [o, moveOrder] } }
     RequestNext s (some .loaderHalt) r ∧ loaderFree s ∧ s.lc.state ≠ .halted ∧ s.lc.queue = o :: [moveOrder] ∧ s.lc.step = some y
      ∧ o.source = some 5 ∧ (5 : PlaceId) ≠ pickerPlace ∧ roomFor s s.lc.queue.length
      ∧ ∀ c, s.cd.places[pickerPlace].state ≠ .occupied c)
    ∧ (let y : ActiveStep := { kind := .put, station := 28, part := .extending }
       let s := asking r { carried with lc := { state := .busy, station := some 28, step := some y, queue := [o, moveOrder] } }
       RequestNext s (some .loaderHalt) r ∧ s.lc.step = some y ∧ o.target = some 28 ∧ (28 : PlaceId) ≠ pickerPlace
        ∧ s.cd.places[pickerPlace].state = .occupied 3) := by
  unfold loaderFree roomFor
  exact ⟨⟨next_of_ok (by decide +kernel), by decide +kernel⟩, ⟨next_of_ok (by decide +kernel), by decide +kernel⟩⟩

/-- An INVENTORY of the mail slot and one of the drives, at its only and its last station. -/
theorem witness_RailEventsTaken_survey :
    ∀ x ∈ [(Scope.mail, (4 : PlaceId)), (.drives, 1)],
      let o : Order := { tag := 9, kind := .inventory, scope := some x.1, active := true }
      let step : ActiveStep := { kind := .travel, station := x.2.val, part := .moving }
      let s : State := { s0 with lc := {
        state := .busy, station := some 0, travelCount := 1, queue := [o], step := some step, outputs := { motorRun := true } } }
      (running s ∧ loaderFree s ∧ s.re.hasRoom = true ∧ s.lc.queue = o :: [] ∧ o.active = true ∧ s.lc.step = some step
        ∧ s.lc.outputs.motorRun = true ∧ s.lc.state = .busy ∧ s.lc.travelCount = 1 ∧ s.lc.exchange = none) ∧ orderFormed o
        ∧ ∀ q, orderNames s o q → q.val ≤ x.2.val := by
  intro x hx
  have hx : x = (Scope.mail, (4 : PlaceId)) ∨ x = (.drives, 1) := by simpa using hx
  rcases hx with rfl | rfl
  · refine ⟨⟨rfl, ⟨rfl, rfl⟩, rfl, rfl, rfl, rfl, rfl, rfl, rfl, rfl⟩, ⟨⟨nofun, fun _ => rfl⟩, fun _ => ⟨rfl, rfl⟩⟩, ?_⟩
    rintro q (h | h | h)
    · cases h
    · cases h
    · exact Nat.le_of_eq h
  · refine ⟨⟨rfl, ⟨rfl, rfl⟩, rfl, rfl, rfl, rfl, rfl, rfl, rfl, rfl⟩, ⟨⟨nofun, fun _ => rfl⟩, fun _ => ⟨rfl, rfl⟩⟩, ?_⟩
    rintro q (h | h | h)
    · cases h
    · cases h
    · exact Nat.le_of_lt_succ h.1

/-- The exchange of a stopped read with no read waiting for it, and with one. -/
theorem witness_LabelLinkEventsTaken_stopped :
    let exchange : Exchange := { sent := 0x4C, limit := { started := 0, length := 5000 }, stopped := true }
    (let s : State := { s0 with lc := { state := .halted, exchange := some exchange, exchanging := true } }
     running s ∧ s.lc.exchange = some exchange ∧ s.lc.step = none)
    ∧ (let s := active moveOrder { state := .busy, station := some 5, step := some { kind := .labelRead, station := 5, part := .reading }
                                   exchange := some exchange, exchanging := true }
       running s ∧ s.lc.exchange = some exchange ∧ ∃ y, s.lc.step = some y ∧ y.part = .reading)
    ∧ exchange.limit.started + exchange.limit.length ≤ max s0.timebase 5000 :=
  ⟨⟨rfl, rfl, rfl⟩, ⟨rfl, rfl, _, rfl, rfl⟩, by decide +kernel⟩

/-! ### Further clauses -/

/-- Stream 0 is open with the buffers and the aperture given, its job at a chunk sequence. -/
def fed (buffers : Vector Buffer 2) (a : Aperture) (next : Word := 3) : State :=
  { streaming with
    streams := s0.streams.set 0 { phase := .opened, slot := some 0, buffers := buffers }
    wd := { s0.wd with streamAperture := s0.wd.streamAperture.set 0 a }
    jt := { jobs := s0.jt.jobs.set 0 { live := true, record := { tag := 7, state := .active, nextSeq := next } } } }

/-- The first write of a job, both buffers FREE; a chunk FILLING in buffer 1, and one closed there; the chunk that takes the
sequence 0xFFFF_FFFF. -/
theorem witness_StreamWriteAccepted_buffers :
    (let s := fed #v[{}, {}] { expected := 0, limit := 32768 }
     running s ∧ s.classOf 0x100000 = .streamAperture 0 ∧ s.streams[(0 : Fin 4)].phase = .opened ∧ s.waiting (.stream 0) = false
      ∧ s.wd.streamAperture[(0 : Fin 4)].displacement lay.apertures[(0 : Fin 4)] 0x100000 = 0
      ∧ 3 ≤ ahead s.wd.streamAperture[(0 : Fin 4)].limit s.wd.streamAperture[(0 : Fin 4)].expected
      ∧ takesNext s.streams[(0 : Fin 4)] 0 ∧ (chunkInto s.streams[(0 : Fin 4)] 0).data.length + 3 < 16384)
    ∧ (let s := fed #v[{ state := .ready }, { state := .filling, data := [1, 2] }] { expected := 16386, limit := 32768 }
       running s ∧ s.classOf 0x104002 = .streamAperture 0
        ∧ s.wd.streamAperture[(0 : Fin 4)].displacement lay.apertures[(0 : Fin 4)] 0x104002 = 0
        ∧ 3 ≤ ahead s.wd.streamAperture[(0 : Fin 4)].limit s.wd.streamAperture[(0 : Fin 4)].expected
        ∧ takesNext s.streams[(0 : Fin 4)] 1 ∧ (chunkInto s.streams[(0 : Fin 4)] 1).data.length + 3 < 16384)
    ∧ (∀ data, let s := fed #v[{ state := .ready }, { state := .filling, data := data }] { expected := 32767, limit := 32768 }
       running s ∧ s.wd.streamAperture[(0 : Fin 4)].displacement lay.apertures[(0 : Fin 4)] 0x107FFF = 0
        ∧ takesNext s.streams[(0 : Fin 4)] 1 ∧ (chunkInto s.streams[(0 : Fin 4)] 1).data = data
        ∧ s.streams[(0 : Fin 4)].slot = some 0 ∧ s.jt.jobs[(0 : Fin 8)].record.nextSeq ≠ 0xFFFFFFFF
        ∧ s.streams[(0 : Fin 4)].buffers[(1 - 1 : Fin 2)].state ≠ .filling)
    ∧ (∀ data, let s := fed #v[{ state := .filling, data := data }, {}] { expected := 16383, limit := 32768 } 0xFFFFFFFF
       running s ∧ s.wd.streamAperture[(0 : Fin 4)].displacement lay.apertures[(0 : Fin 4)] 0x103FFF = 0
        ∧ takesNext s.streams[(0 : Fin 4)] 0 ∧ (chunkInto s.streams[(0 : Fin 4)] 0).data = data
        ∧ s.streams[(0 : Fin 4)].slot = some 0 ∧ s.jt.jobs[(0 : Fin 8)].record.nextSeq = 0xFFFFFFFF
        ∧ s.jt.jobs[(0 : Fin 8)].record.state = .active)
    ∧ (List.replicate 16383 (7 : Byte)).length = 16383 := by
  have h1 : ({ expected := 32767, limit := 32768 } : Aperture).displacement lay.apertures[(0 : Fin 4)] 0x107FFF = 0 := by
    decide +kernel
  have h2 : ({ expected := 16383, limit := 32768 } : Aperture).displacement lay.apertures[(0 : Fin 4)] 0x103FFF = 0 := by
    decide +kernel
  refine ⟨?_, ?_, fun data => ⟨rfl, h1, ?_, rfl, rfl, (by decide : (3 : Word) ≠ 0xFFFFFFFF), nofun⟩, fun data => ⟨rfl, h2, ?_, rfl, rfl, rfl, rfl⟩,
    List.length_replicate ..⟩
  · unfold running takesNext
    decide +kernel
  · unfold running takesNext
    decide +kernel
  · exact (rfl : (1 : Fin 2) = 1)
  · exact (rfl : (0 : Fin 2) = 0)

/-- A STOPPED Framer that waits on a post, and one that does not. -/
theorem witness_RingWriteAccepted_stopped (waits : Bool) :
    let u := ringed { expected := 100, limit := 104 } waits
    let s : State := { u with framers := reading.framers.set 0 { slot := some 0, phase := .stopped, scan := 100 } }
    running s ∧ s.wd.layout = some lay ∧ s.classOf 0x2000064 = .returnRing 0 ∧ s.lanes[(0 : Fin 4)].role = .read
      ∧ s.framers[(0 : Fin 4)].phase = .stopped ∧ s.waiting (.framer 0) = waits
      ∧ s.wd.ringAperture[(0 : Fin 4)].displacement lay.rings[(0 : Fin 4)] 0x2000064 = 0
      ∧ 4 ≤ ahead s.wd.ringAperture[(0 : Fin 4)].limit s.wd.ringAperture[(0 : Fin 4)].expected := by
  revert waits
  unfold running
  decide +kernel

/-- An ACTIVE WRITE job with a PACKING buffer; one with none, its last end group still to be released, the lane's other WRITE
job ACTIVE; one that has packed nothing. -/
theorem witness_JobAborted_writes :
    let r := request 0x15 7 []
    let s (b : BufferState) (packed : Bool) := asking r { fed #v[{ state := b }, { state := .filling }] {} with
      cd := draining.cd
      jt := { jobs := (s0.jt.jobs.set 1 { live := true, record := { tag := 8, state := .active, stream := 1 } }).set 0 {
        live := true
        record := { tag := 7, state := .active, cart := 3, lastEnd := if packed then some 12 else none } } } }
    ∀ packed : Bool,
      (∀ b ∈ [BufferState.packing, .ready], let s := s b packed
        RequestNext s (some .jobAbort) r ∧ jobTableFree s ∧ liveOnly s 0 (recordTag r)
          ∧ s.jt.jobs[(0 : Fin 8)].record.kind = .write ∧ s.jt.jobs[(0 : Fin 8)].record.state = .active
          ∧ s.streams[(0 : Fin 4)].buffers[(0 : Fin 2)].state = b ∧ writeJob s 0 1
          ∧ s.jt.jobs[(1 : Fin 8)].record.state ≠ .draining ∧ s.waiting (.laneUnit 0) = false
          ∧ s.jt.jobs[(0 : Fin 8)].record.lastEnd = (if packed then some 12 else none)
          ∧ s.cd.records[(3 : Fin 32)] = some cart3 ∧ cart3.written.toNat ≤ (12 : Word).toNat ∧ roomFor s 1)
      ∧ nothingPacked (s .ready packed) 0 := by
  unfold jobTableFree liveOnly writeJob roomFor
  intro r s packed
  refine ⟨fun b hb => ?_, fun f => ?_⟩
  · have h : b = .packing ∨ b = .ready := by simpa using hb
    rcases h with rfl | rfl <;> cases packed <;>
      exact ⟨next_of_ok (by decide +kernel), by decide +kernel⟩
  · have h : (s .ready packed).streams[(0 : Fin 4)].buffers[f].state ≠ .packing
        ∧ (s .ready packed).streams[(0 : Fin 4)].buffers[f].state ≠ .compressing := by
      revert f packed
      decide +kernel
    exact ⟨h.1, fun k => absurd k h.2⟩

/-- A selector byte of 2. -/
theorem witness_CartridgeSetDecided_selector :
    let r := request 0x30 0 [2, 0, 2, 0, 0, 0, 0, 0, 0, 0, 0, 0, 0, 0, 0, 0, 0, 0, 0, 0, 99]
    RequestNext (asking r loaded) (some .cartridgeSet) r ∧ 1 < argByte r 4 :=
  ⟨next_of_ok (by decide +kernel), by decide +kernel⟩

/-- A segment whose last byte filled the frame, with no close pending, with one for the open slot and with one for a slot that is
no longer open. -/
theorem witness_PackerCopies_filled :
    ∀ x ∈ [none, some (CloseReason.age, 4), some (.flush, 3)],
      let u := copyingAt [] 3 0
      let s : State := { u with lanes := u.lanes.set 0 { u.lanes[(0 : Fin 4)] with closePending := x } }
      (running s ∧ s.lanes[(0 : Fin 4)].packing = some { stream := 0, buffer := 0, rest := [], starting := false }
        ∧ s.waiting (.laneUnit 0) = false ∧ s.wd.layout = some lay ∧ s.lanes[(0 : Fin 4)].closePending = x
        ∧ s.lanes[(0 : Fin 4)].position = some { slot := 4, frame := 3, offset := 0 }
        ∧ s.lanes[(0 : Fin 4)].slots[4]? = some (.opened 14) ∧ s.streams[(0 : Fin 4)].buffers[(0 : Fin 2)].state = .packing
        ∧ s.re.hasRoom = true) ∧ staysFlushing s 0 0 ∧ limitCurrent s 0 := by
  intro x _
  exact ⟨⟨rfl, rfl, rfl, rfl, rfl, rfl, rfl, rfl, rfl⟩, chunk_stays .packing (some header13) 0,
    (by unfold limitCurrent; decide +kernel : limitCurrent (copyingAt [] 3 0) 0)⟩

/-- A Framer that waits on no post, the backlog full. -/
theorem witness_FrameTaken_noRoom (kind : JobKind) (x : FrameName) (a : Assembler) (m : List Host.Cell) :
    let s : State := { lockedOn kind x a m with re := { backlog := List.replicate 64 (.ringFault false 1 2) } }
    FramerFree s 0 ∧ s.re.hasRoom = false := ⟨⟨rfl, rfl, rfl, rfl⟩, rfl⟩

/-! ### Jobs in FLUSHING, groups in hand, decodes that have lost their job, the picker's other steps -/

/-- `chunk` after a STREAM_CLOSE: its job FLUSHING, its stream CLOSING with buffer 1 as given, and the lane's second WRITE job. -/
def flushing (x : BufferState) (h : Option SegmentHeader) (other : Buffer) (second : Option JobState := none) : State :=
  let s := chunk x h
  let jobs := s0.jt.jobs.set 0 { live := true, record := { tag := 7, state := .flushing, cart := 3, lastEnd := some 14 } }
  { s with
    streams := s.streams.set 0 {
      phase := .closing, slot := some 0, buffers := #v[{ state := x, data := chunkABC, entry := some entry0, header := h }, other] }
    wd := { s.wd with streamAperture := s.wd.streamAperture.set 0 { expected := 13, limit := 13 } }
    jt := { jobs := match second with
      | none => jobs
      | some y => jobs.set 1 { live := true, record := { tag := 8, state := y, stream := 1 } } } }

theorem flushing_job (x : BufferState) (h : Option SegmentHeader) (other : Buffer) (second : Option JobState) :
    (flushing x h other second).jt.jobs[(0 : Fin 8)].record
      = { tag := 7, state := .flushing, cart := 3, lastEnd := some 14 } := by
  cases second <;> rfl

theorem flushing_bound (x : BufferState) (h : Option SegmentHeader) (other : Buffer) (second : Option JobState) :
    streamBound (flushing x h other second) 0 := by
  refine ⟨⟨rfl, rfl⟩, fun k hk _ => ?_⟩
  have : k = 0 := Option.some.inj (hk.symm.trans (rfl : _ = some (0 : SlotId)))
  subst this
  rw [flushing_job]

theorem flushing_stays (x : BufferState) (h : Option SegmentHeader) (other : Buffer) (second : Option JobState)
    (busy : other.state = .closed ∨ other.state = .ready) : staysFlushing (flushing x h other second) 0 0 :=
  ⟨flushing_bound x h other second, fun _ _ _ => busy.elim .inl fun k => .inr (.inl k)⟩

theorem flushing_last (x : BufferState) (h : Option SegmentHeader) (second : Option JobState) :
    lastToPack (flushing x h {} second) 0 0 0 :=
  ⟨⟨rfl, rfl⟩, rfl, by rw [flushing_job], by rw [flushing_job], .inl rfl⟩

/-- A FLUSHING job's only chunk CLOSED; one COMPRESSING; one COMPRESSING and marked, with another READY. -/
theorem witness_Compressor_flushing :
    (let s : State := { flushing .closed none {} with ce := { queue := [entry0] } }
     running s ∧ s.ce.inFlight = none ∧ s.ce.queue = entry0 :: [] ∧ streamBound s 0 ∧ limitCurrent s 0
      ∧ s.streams[(0 : Fin 4)].buffers[(0 : Fin 2)].state = .closed)
    ∧ (let s : State := { flushing .compressing none {} with ce := { inFlight := some { entry := entry0 } } }
       running s ∧ s.ce.inFlight = some { entry := entry0, discard := false } ∧ streamBound s 0 ∧ limitCurrent s 0
        ∧ s.streams[(0 : Fin 4)].buffers[(0 : Fin 2)].state = .compressing)
    ∧ (let s : State := { flushing .compressing none { state := .ready } with
        ce := { inFlight := some { entry := entry0, discard := true } } }
       running s ∧ s.ce.inFlight = some { entry := entry0, discard := true } ∧ staysFlushing s 0 0 ∧ limitCurrent s 0
        ∧ s.streams[(0 : Fin 4)].buffers[(0 : Fin 2)].state = .compressing) := by
  unfold limitCurrent
  exact ⟨⟨rfl, rfl, rfl, flushing_bound .closed none {} none, by decide +kernel, rfl⟩,
    ⟨rfl, rfl, flushing_bound .compressing none {} none, by decide +kernel, rfl⟩,
    ⟨rfl, rfl, ⟨flushing_bound .compressing none { state := .ready } none, fun _ _ _ => .inr (.inl rfl)⟩, by decide +kernel, rfl⟩⟩

/-- A FLUSHING job's READY segment, which fits; one that does not fit, its lane having no other WRITE job. -/
theorem witness_PackerBegins_flushing :
    let s := flushing .ready (some header13) {}
    let t : State := { s with lanes := s.lanes.set 0 { role := .write, nextGroup := 100, slots := [.ready 99] } }
    (running s ∧ s.lanes[(0 : Fin 4)].role = .write ∧ s.lanes[(0 : Fin 4)].full = false ∧ s.lanes[(0 : Fin 4)].packing = none
      ∧ s.waiting (.laneUnit 0) = false ∧ readyFor s 0 0 0 entry0 header13
      ∧ (∀ i f e h, readyFor s 0 i f e h → (i = entry0.stream ∧ f = entry0.buffer) ∨ entry0.order < e.order)
      ∧ streamBound s 0 ∧ limitCurrent s 0 ∧ s.lanes[(0 : Fin 4)].position = some { slot := 4, frame := 2, offset := 848 }
      ∧ s.lanes[(0 : Fin 4)].slots[4]? = some (.opened 14))
    ∧ (running t ∧ jobTableFree t ∧ soleWriteJob t 0 0 ∧ stillPacks t.jt.jobs[(0 : Fin 8)].record ∧ nothingPacked t 0
      ∧ t.jt.jobs[(0 : Fin 8)].record.lastEnd = some 14 ∧ t.cd.records[t.jt.jobs[(0 : Fin 8)].record.cart] = some cart3
      ∧ cart3.written.toNat ≤ (14 : Word).toNat ∧ t.lanes[(0 : Fin 4)].position = none
      ∧ (32608 : Int) * ((cart3.limit.toNat : Int) - t.lanes[(0 : Fin 4)].nextGroup.toNat) < 23) := by
  intro s t
  have only : ∀ (i : StreamId) (f : Fin 2), s.streams[i].buffers[f].state = .ready → i = 0 ∧ f = 0 := by decide +kernel
  refine ⟨⟨rfl, rfl, rfl, rfl, rfl, ⟨rfl, rfl, rfl, rfl⟩, fun i f e h k => .inl (only i f k.1), flushing_bound _ _ _ _,
    by unfold limitCurrent; decide +kernel, rfl, rfl⟩, rfl, ⟨rfl, rfl⟩, ?_, .inr ⟨rfl, rfl⟩, fun f => ⟨?_, fun k => absurd k ?_⟩,
    rfl, by decide +kernel, by decide +kernel, rfl, by decide +kernel⟩
  · unfold soleWriteJob writeJob; decide +kernel
  · revert f; decide +kernel
  · revert f; decide +kernel

/-- The copying lane of a FLUSHING job: one byte short of its frame, with a position, a close pending and a second WRITE job. -/
def flushingCopy (rest : List Byte) (other : Buffer) (pos : Option Position) (pending : Option (CloseReason × Nat))
    (second : Option JobState := none) : State :=
  let s := flushing .packing (some header13) other second
  { s with lanes := s.lanes.set 0 { s.lanes[(0 : Fin 4)] with
    packing := some { stream := 0, buffer := 0, rest := rest, starting := false }, position := pos, closePending := pending } }

/-- A FLUSHING job's segment packed with another READY; its last segment, with a close pending, with the lane's other WRITE job
still ACTIVE, with no open slot, and with nothing pending and the other one DRAINING too; its segment that fills the
cartridge's last group. -/
theorem witness_PackerCopies_flushing :
    let p : Position := { slot := 4, frame := 2, offset := 848 }
    let all (s : State) (rest : List Byte) : Prop :=
      running s ∧ s.lanes[(0 : Fin 4)].packing = some { stream := 0, buffer := 0, rest := rest, starting := false }
        ∧ s.waiting (.laneUnit 0) = false ∧ s.wd.layout = some lay ∧ limitCurrent s 0 ∧ s.re.hasRoom = true
        ∧ s.streams[(0 : Fin 4)].buffers[(0 : Fin 2)].state = .packing ∧ s.lanes[(0 : Fin 4)].slots[4]? = some (.opened 14)
    let last (s : State) : Prop := lastToPack s 0 0 0 ∧ writeJob s 0 0 ∧ s.jt.jobs[(0 : Fin 8)].record.lastEnd = some 14
      ∧ s.cd.records[s.jt.jobs[(0 : Fin 8)].record.cart] = some cart3 ∧ cart3.written.toNat ≤ (14 : Word).toNat
    (let s := flushingCopy [1] { state := .ready } (some p) none
     all s [1] ∧ staysFlushing s 0 0 ∧ p.offset + 1 < 4076)
    ∧ (let s := flushingCopy [1] {} (some p) (some (.age, 4))
       all s [1] ∧ last s ∧ s.lanes[(0 : Fin 4)].closePending = some (.age, p.slot))
    ∧ (let s := flushingCopy [1] {} (some p) none (some .active)
       all s [1] ∧ last s ∧ ¬ ∀ i, writeJob s 0 i → i ≠ 0 → s.jt.jobs[i].record.state = .draining)
    ∧ (let s := flushingCopy [] {} none (some (.age, 4))
       all s [] ∧ last s ∧ s.lanes[(0 : Fin 4)].position = none)
    ∧ (let s := flushingCopy [1] {} (some p) none (some .draining)
       all s [1] ∧ last s ∧ ∀ i, writeJob s 0 i → i ≠ 0 → s.jt.jobs[i].record.state = .draining)
    ∧ (let u := flushingCopy [1, 2] { state := .closed } (some { slot := 4, frame := 7, offset := 4074 }) none
       let s : State := { u with lanes := u.lanes.set 0 { u.lanes[(0 : Fin 4)] with nextGroup := 100 } }
       all s [1, 2] ∧ s.lanes[(0 : Fin 4)].nextGroup = cart3.limit ∧ soleWriteJob s 0 0 ∧ stillPacks s.jt.jobs[(0 : Fin 8)].record) := by
  have sole : soleWriteJob (flushing .packing (some header13) { state := .closed }) 0 0 := by
    unfold soleWriteJob writeJob; decide +kernel
  have l (second : Option JobState) : lastToPack (flushing .packing (some header13) {} second) 0 0 0 := flushing_last _ _ _
  have le : cart3.written.toNat ≤ (14 : Word).toNat := by decide
  refine ⟨⟨⟨rfl, rfl, rfl, rfl, rfl, rfl, rfl, rfl⟩, flushing_stays _ _ _ none (.inr rfl), by decide⟩,
    ⟨⟨rfl, rfl, rfl, rfl, rfl, rfl, rfl, rfl⟩, ⟨l none, ⟨rfl, rfl, rfl⟩, rfl, rfl, le⟩, rfl⟩,
    ⟨⟨rfl, rfl, rfl, rfl, rfl, rfl, rfl, rfl⟩, ⟨l (some .active), ⟨rfl, rfl, rfl⟩, rfl, rfl, le⟩,
      fun k => absurd (k 1 ⟨rfl, rfl, rfl⟩ (by decide)) (by decide +kernel)⟩,
    ⟨⟨rfl, rfl, rfl, rfl, rfl, rfl, rfl, rfl⟩, ⟨l none, ⟨rfl, rfl, rfl⟩, rfl, rfl, le⟩, rfl⟩,
    ⟨⟨rfl, rfl, rfl, rfl, rfl, rfl, rfl, rfl⟩, ⟨l (some .draining), ⟨rfl, rfl, rfl⟩, rfl, rfl, le⟩, ?_⟩,
    ⟨rfl, rfl, rfl, rfl, rfl, rfl, rfl, rfl⟩, rfl, sole, .inr ⟨rfl, rfl⟩⟩
  unfold writeJob
  decide +kernel

/-- Lane 0 as `lockedOn`, with a group in hand and a last settled group as given. -/
def grouping (kind : JobKind) (x : FrameName) (g : Option GroupInHand) (settled : Option Word) (m : List Host.Cell) : State :=
  let s := lockedOn kind x .waitStart m
  { s with framers := s.framers.set 0 { s.framers[(0 : Fin 4)] with groupInHand := g, lastSettled := settled } }

/-- What every clause of FrameTaken asks of such a state. -/
theorem witness_FrameTaken_grouping (kind : JobKind) (x : FrameName) (g : Option GroupInHand) (settled : Option Word)
    (m : List Host.Cell) :
    let s := grouping kind x g settled m
    running s ∧ FramerFree s 0 ∧ s.wd.layout = some lay ∧ s.framers[(0 : Fin 4)].sync = .locked
      ∧ s.framers[(0 : Fin 4)].expected = some x ∧ s.framers[(0 : Fin 4)].slot = some 0
      ∧ s.jt.jobs[(0 : Fin 8)].record.state = .active ∧ (∀ y, s.framers[(0 : Fin 4)].assembler ≠ .hold y)
      ∧ 4096 ≤ (s.wd.ringAperture[(0 : Fin 4)].expected - s.framers[(0 : Fin 4)].scan).toNat
      ∧ jobTableFree s ∧ s.jt.jobs[(0 : Fin 8)].live = true ∧ s.de.holding = [] :=
  ⟨rfl, ⟨rfl, rfl, rfl, rfl⟩, rfl, rfl, rfl, rfl, rfl, nofun, (by decide : 4096 ≤ ((4096 : Word) - 0).toNat), ⟨rfl, rfl⟩, rfl, rfl⟩

/-- With no group in hand and with an earlier one: frame 0 of group 5 begins the check of its group; frame 7 leaves its group
in hand, broken, and so does the slip that ends there; the frame of group 10 ends a VERIFY job. A frame 7 of a group already
settled leaves none in hand. -/
theorem witness_FrameTaken_otherGroup :
    let head (m : List Host.Cell) := ringBytes m lay.rings[(0 : Fin 4)] 0 20
    let beyond : FrameName := { group := 10, index := 0 }
    (∀ g ∈ [none, some ({ group := 4, accumulating := true, check := 7 } : GroupInHand)], ∀ payload : List Byte,
      let f (x : FrameName) : Framer := (grouping .verify x g none []).framers[(0 : Fin 4)]
      (grouped (f (frame5 0)) (frame5 0) false payload).groupInHand
          = some { group := 5, accumulating := true, check := crcUpdate 0xFFFFFFFF payload }
        ∧ (grouped (f (frame5 7)) (frame5 7) false payload).groupInHand
          = some { group := 5, accumulating := false, check := 0xFFFFFFFF }
        ∧ (grouped (f (frame5 2)) (frame5 7) true payload).groupInHand
          = some { group := 5, accumulating := false, check := 0xFFFFFFFF }
        ∧ (f beyond).groupInHand = g)
    ∧ (∀ payload, (grouped (grouping .verify (frame5 7) none (some 5) []).framers[(0 : Fin 4)] (frame5 7) false payload).groupInHand
        = none)
    ∧ (∀ x ∈ [frame5 0, frame5 7, beyond], headerGood (head (frameIn x 0 none 0 [])) = true ∧ headerName (head (frameIn x 0 none 0 [])) = x
        ∧ fieldNat (head (frameIn x 0 none 0 [])) 12 2 = 0xFFFF)
    ∧ 0 < (frame5 2).distance (frame5 7) ∧ ((5 : Word) - 9).toInt ≤ 0 ∧ 0 < ((10 : Word) - 9).toInt := by
  refine ⟨fun g hg payload => ?_, fun _ => rfl, by decide +kernel⟩
  have h : g = none ∨ g = some { group := 4, accumulating := true, check := 7 } := by simpa using hg
  rcases h with rfl | rfl <;> exact ⟨rfl, rfl, rfl, rfl⟩

/-- A decode in flight of a job, its Framer in a phase, linked to its lane or not, marked or not, with the next sequence wanted. -/
def decoding (kind : JobKind) (phase : Phase) (state : JobState) (linked discard : Bool) (expected : Nat) (full : Bool) : State :=
  { reading with
    jt := { jobs := s0.jt.jobs.set 0 { live := true, record := { tag := 5, kind := kind, state := state, cart := 3, lastChunk := 105 } } }
    framers := reading.framers.set 0 { slot := some 0, phase := phase }
    de := {
      operation := some (.decode { entry := segment13 kind, ring := lay.rings[(0 : Fin 4)], linked := linked, discard := discard })
      slots := (Vector.replicate 8 {}).set 0 { expected := expected } }
    re := if full then { waiters := [{ unit := .framer 0, item := .post (.ringFault false 1 2) }] } else {} }

/-- A decode that has lost its lane, marked and not; one of a STOPPED Framer whose job is ENDING; one whose Framer waits on a
post; one below the expected sequence. The last leaves the end evaluation of its ENDING job due. -/
theorem witness_DecodeProceeds_unbound :
    (∀ kind phase state linked discard expected full,
      let s := decoding kind phase state linked discard expected full
      running s ∧ s.de.operation = some (.decode {
          entry := segment13 kind, ring := lay.rings[(0 : Fin 4)], linked := linked, discard := discard })
        ∧ s.wd.layout = some lay ∧ s.framers[(0 : Fin 4)].phase = phase ∧ s.waiting (.framer 0) = full
        ∧ s.de.slots[(0 : Fin 8)].expected = expected)
    ∧ (segment13 .restore).header.sequence.toNat < 101
    ∧ decodeEnded (decoding .restore .stopped .ending true false 101 false) 0 = {
        (decoding .restore .stopped .ending true false 101 false).de with operation := none, due := [0] } := by
  refine ⟨fun kind phase state linked discard expected full => ?_, by decide +kernel, by decide +kernel⟩
  cases full <;> exact ⟨rfl, rfl, rfl, rfl, rfl, rfl⟩

/-- SETTLING decodes of an ENDING job, whose end leaves its end evaluation due. -/
theorem witness_settling_ending :
    ∀ kind ∈ [JobKind.verify, .restore],
      let u := settling kind .good
      let s : State := { u with jt := { jobs := u.jt.jobs.set 0 {
        live := true, record := { u.jt.jobs[(0 : Fin 8)].record with state := .ending } } } }
      running s ∧ s.de.operation = some (.decode { entry := segment13 kind, result := some .good })
        ∧ s.cd.records[s.jt.jobs[(0 : Fin 8)].record.cart] = some cart3
        ∧ s.de.slots[(0 : Fin 8)].expected = (segment13 kind).header.sequence.toNat
        ∧ (decodeEnded s 0).due = [0] ∧ (decodeEnded s 0).operation = none := by
  unfold running
  decide +kernel

/-- The last station mark before a MOVE's target, with the cartridge carried, the target's slot presence open to the sample. -/
theorem witness_RailEventsTaken_put :
    let o : Order := { moveOrder with active := true }
    let step : ActiveStep := { kind := .travel, station := 28, part := .moving }
    let s : State := { carried with lc := {
      state := .busy, station := some 5, travelCount := 1, step := some step, outputs := { motorRun := true }, queue := [o] } }
    running s ∧ loaderFree s ∧ s.re.hasRoom = true ∧ s.lc.queue = o :: [] ∧ s.lc.step = some step ∧ orderFormed o
      ∧ s.lc.outputs.motorRun = true ∧ s.lc.state = .busy ∧ s.lc.travelCount = 1 ∧ o.scope = none ∧ o.source ≠ some 28
      ∧ o.target = some 28 :=
  ⟨rfl, ⟨rfl, rfl⟩, rfl, rfl, rfl, move_formed true, rfl, rfl, rfl, rfl, by decide, rfl⟩

/-- Every gripper step in progress; a GET from the shelf and one from a drive at its last. -/
theorem witness_GripperEventsTaken_steps :
    let timer : Timer := { started := 0, length := 1500000 }
    let o : Order := { moveOrder with active := true }
    let drive : Order := { tag := 9, kind := .dismount, source := some 0, target := some 28, active := true }
    (∀ (kind : StepKind) (part : StepPart) (station : Int) (state : LoaderState),
      let s := active moveOrder {
        state := state, station := some station, step := some { kind := kind, station := station, part := part }
        stepTimer := some timer }
      running s ∧ loaderFree s ∧ s.re.hasRoom = true ∧ s.lc.queue = o :: [] ∧ orderFormed o ∧ s.lc.stepTimer ≠ none
        ∧ s.lc.step = some { kind := kind, station := station, part := part } ∧ s.lc.station = some station ∧ s.lc.exchange = none
        ∧ o.source = some 5 ∧ (5 : PlaceId) ≠ pickerPlace ∧ s.cd.places[(5 : PlaceId)].state = .occupied 3
        ∧ s.cd.records[(3 : Fin 32)] = some { cart3 with place := 5 } ∧ s.lc.stepTimer = some timer
        ∧ (pickerLoaded s ↔ ({} : Lines).cartridgePresent = true))
    ∧ (let s : State := { loaded with lc := {
        state := .busy, station := some 0, step := some { kind := .get, station := 0, part := .retracting }, stepTimer := some timer
        queue := [drive] } }
       running s ∧ loaderFree s ∧ s.re.hasRoom = true ∧ s.lc.queue = drive :: [] ∧ orderFormed drive ∧ drive.source = some 0
        ∧ (0 : PlaceId) ≠ pickerPlace ∧ s.cd.places[(0 : PlaceId)].state = .occupied 3
        ∧ s.cd.records[(3 : Fin 32)] = some cart3 ∧ s.lc.exchange = none) := by
  refine ⟨fun _ _ _ _ => ⟨rfl, ⟨rfl, rfl⟩, rfl, rfl, move_formed true, nofun, rfl, rfl, rfl, rfl, by decide, rfl, rfl, rfl, ?_⟩,
    rfl, ⟨rfl, rfl⟩, rfl, rfl, ⟨⟨nofun, fun h => absurd rfl h⟩, nofun⟩, rfl, by decide, rfl, rfl, rfl⟩
  exact ⟨fun ⟨c, h⟩ => absurd h (shelves_picker c), nofun⟩

/-! ### Streams, jobs, doors, orders and labels: the remaining clauses -/

/-- An ACTIVE job with no chunk FILLING but one CLOSED, COMPRESSING and not marked, READY or PACKING. -/
theorem witness_StreamCloseCloses_busy :
    let r := request 0x11 4 []
    ∀ x ∈ [BufferState.closed, .compressing, .ready, .packing],
      let s := asking r { chunk x none with ce := { inFlight := some { entry := entry0 } } }
      RequestNext s (some .streamClose) r ∧ jobTableFree s ∧ liveOnly s 0 (recordTag r)
        ∧ s.jt.jobs[(0 : Fin 8)].record.state = .active ∧ s.jt.jobs[(0 : Fin 8)].record.stream = 0
        ∧ (∀ f : Fin 2, s.streams[(0 : Fin 4)].buffers[f].state ≠ .filling) ∧ keepsFlushing s 0 0 := by
  unfold jobTableFree liveOnly
  intro r x hx
  have h : x = .closed ∨ x = .compressing ∨ x = .ready ∨ x = .packing := by simpa using hx
  rcases h with rfl | rfl | rfl | rfl <;>
    refine ⟨next_of_ok (by decide +kernel), by decide +kernel, by decide +kernel, by decide +kernel, by decide +kernel,
      by decide +kernel, ?_⟩
  · exact .inr (.inl rfl)
  · exact .inr (.inr (.inr ⟨rfl, fun c hc _ _ => by cases hc; rfl⟩))
  · exact .inr (.inr (.inl rfl))
  · exact .inl rfl

/-- The VERIFY job of `reading` with an entry queued and an operation in flight. -/
def decodingFor (x : Option DecodeOperation) : State :=
  { reading with de := { queue := [segment13 .verify], due := [0], operation := x } }

/-- A decode of that job, EXPANDING without a result and SETTLING with one. -/
def flight (r : Option DecodeResult) : Decode := { entry := segment13 .verify, result := r }

/-- JOB_END, JOB_ABORT and LANE_RESET with an entry queued, a decode EXPANDING, one SETTLING and an end evaluation in flight: the
entry and the decode keep the end evaluation from being due, and an abort marks the first decode and ends the other two. -/
theorem witness_decode_in_flight :
    let r (kind : Nat) := request kind 5 []
    (∀ x ∈ [none, some (.decode (flight none)), some (.decode (flight (some .good))), some (.evaluation 0)],
      let s := asking (r 0x14) (decodingFor x)
      let t := asking (r 0x15) (decodingFor x)
      let u := asking (request 0x21 0 [0]) (decodingFor x)
      (RequestNext s (some .jobEnd) (r 0x14) ∧ jobTableFree s ∧ liveOnly s 0 5 ∧ s.waiting (.framer 0) = false
        ∧ s.framers[(0 : Fin 4)].phase = .taking ∧ evaluationDue s.de 0 = [0])
      ∧ (RequestNext t (some .jobAbort) (r 0x15) ∧ jobTableFree t ∧ liveOnly t 0 5 ∧ t.waiting (.framer 0) = false
        ∧ roomFor t 1 ∧ t.de.holding = [] ∧ t.framers[(0 : Fin 4)].phase ≠ .unbound)
      ∧ (RequestNext u (some .laneReset) (request 0x21 0 [0]) ∧ jobTableFree u ∧ u.waiting (.laneUnit 0) = false
        ∧ u.waiting (.framer 0) = false ∧ u.wd.layout = some lay ∧ catalogBounded u lay ∧ roomFor u 8 ∧ u.de.holding = []))
    ∧ evaluationDue { queue := [segment13 .verify] } 0 = []
    ∧ evaluationDue { operation := some (.decode (flight none)) } 0 = []
    ∧ evaluationDue { operation := some (.decode { flight none with discard := true }) } 0 = [0]
    ∧ operationLeft (decodingFor (some (.decode (flight none)))).de 0 (fun e => decide (e.slot = 0)) (fun j => decide (j = 0))
        = some (.decode { flight none with discard := true, linked := false })
    ∧ operationLeft (decodingFor (some (.decode (flight none)))).de 0 (fun e => decide (e.slot = 1)) (fun j => decide (j = 1))
        = some (.decode { flight none with linked := false })
    ∧ ∀ x ∈ [DecodeOperation.decode (flight (some .good)), .evaluation 0],
      operationLeft (decodingFor (some x)).de 0 (fun e => decide (e.slot = 0)) (fun j => decide (j = 0)) = none := by
  unfold jobTableFree liveOnly roomFor catalogBounded
  refine ⟨?_, by decide +kernel, by decide +kernel, by decide +kernel, by decide +kernel, by decide +kernel, by decide +kernel⟩
  intro x hx
  have h : x = none ∨ x = some (.decode (flight none)) ∨ x = some (.decode (flight (some .good)))
      ∨ x = some (.evaluation 0) := by simpa using hx
  rcases h with rfl | rfl | rfl | rfl <;>
    exact ⟨⟨next_of_ok (by decide +kernel), by decide +kernel⟩, ⟨next_of_ok (by decide +kernel), by decide +kernel⟩,
      next_of_ok (by decide +kernel), by decide +kernel⟩

/-- The open slot of lane 0 at a frame and an offset, with the next slot given. -/
def packingAt (frame offset next : Nat) : State :=
  let s := chunk .ready (some header13)
  { s with lanes := s.lanes.set 0 { s.lanes[(0 : Fin 4)] with
    position := some { slot := 4, frame := frame, offset := offset }, nextSlot := next } }

/-- Fewer than sixteen bytes left, one byte or none: in frame 6, and in frame 7 with the next slot FREE and not. -/
theorem witness_PackerBegins_split :
    ∀ offset ∈ [4061, 4076], ∀ frame ∈ [6, 7], ∀ next ∈ [5, 0],
      let s := packingAt frame offset next
      (running s ∧ s.lanes[(0 : Fin 4)].role = .write ∧ s.lanes[(0 : Fin 4)].full = false
        ∧ s.lanes[(0 : Fin 4)].packing = none ∧ s.waiting (.laneUnit 0) = false ∧ s.wd.layout = some lay
        ∧ s.cd.places[drivePlace 0].state = .occupied 3 ∧ s.cd.records[(3 : Fin 32)] = some cart3
        ∧ s.sc.waitList = [] ∧ s.sc.claims = [] ∧ (s.sc.producer - s.sc.consumer).toNat < lay.catalog.size / 32
        ∧ s.lanes[(0 : Fin 4)].position = some { slot := 4, frame := frame, offset := offset }
        ∧ s.lanes[(0 : Fin 4)].slots[4]? = some (.opened 14) ∧ 4076 < offset + 16 ∧ offset ≤ 4076
        ∧ (23 : Int) ≤ ((7 : Nat) - frame) * 4076 + ((cart3.limit.toNat : Int) - 1 - (14 : Word).toNat) * 32608
        ∧ (s.lanes[(0 : Fin 4)].slots[s.lanes[(0 : Fin 4)].nextSlot]? = some .free ↔ next = 5)
        ∧ s.lanes[(0 : Fin 4)].nextGroup ≠ cart3.limit ∧ s.re.hasRoom = true ∧ limitCurrent s 0)
      ∧ readyFor s 0 0 0 entry0 header13 ∧ streamBound s 0
      ∧ ∀ i f e h, readyFor s 0 i f e h → (i = entry0.stream ∧ f = entry0.buffer) ∨ entry0.order < e.order := by
  intro offset ho frame hf next hn
  refine ⟨?_, ⟨rfl, rfl, rfl, rfl⟩, chunk_bound .ready (some header13), fun i f e h => ready_only _ rfl i f e h⟩
  unfold running limitCurrent
  revert offset frame next
  decide +kernel

/-- A frame with a segment that ends in it and another header behind it: the second segment goes on in the next frame, ends
beside a third header, or has a bad mode; the first is wanted and not. -/
theorem witness_FrameTaken_headers :
    let head (m : List Host.Cell) := ringBytes m lay.rings[(0 : Fin 4)] 0 20
    let at' (m : List Host.Cell) (c : Nat) := ringBytes m lay.rings[(0 : Fin 4)] (0 + 20 + BitVec.ofNat 32 c) 16
    ∀ tag ∈ [(9 : Byte), 10],
      let first := segmentHead tag 4 5 ++ [1, 2, 3, 4]
      let m (bytes : List Byte) := frameIn (frame5 2) 0 (some 0) 0 (first ++ bytes)
      let goesOn := m (segmentHead 10 8000 6)
      let third := m (segmentHead 10 2 6 ++ [5, 6] ++ segmentHead 11 8000 7)
      let bad := m ([0xA7, 0x5E, 3] ++ (segmentHead 10 4 6).drop 3)
      (∀ x ∈ [goesOn, third, bad], headerGood (head x) = true ∧ headerName (head x) = frame5 2 ∧ fieldNat (head x) 12 2 = 0
        ∧ 4076 - fieldNat (head x) 17 2 = 4076 ∧ noneHolds (headerFaults (at' x 0)) ∧ (headerFields (at' x 0)).storedLength = 4
        ∧ (headerFields (at' x 0)).tag = tag)
      ∧ (noneHolds (headerFaults (at' goesOn 20)) ∧ 4076 - (20 + 16) < (headerFields (at' goesOn 20)).storedLength)
      ∧ (noneHolds (headerFaults (at' third 20)) ∧ (headerFields (at' third 20)).storedLength = 2
        ∧ noneHolds (headerFaults (at' third 38)) ∧ 4076 - (38 + 16) < (headerFields (at' third 38)).storedLength)
      ∧ firstHolds SegmentFaultReason.mode (headerFaults (at' bad 20)) := by
  intro head at' tag htag
  have h : tag = 9 ∨ tag = 10 := by simpa using htag
  rcases h with rfl | rfl <;>
  · refine ⟨fun x hx => ?_, ⟨head_of_ok (by decide +kernel), by decide +kernel⟩,
      ⟨head_of_ok (by decide +kernel), by decide +kernel, head_of_ok (by decide +kernel), by decide +kernel⟩, ?_⟩
    · simp only [List.mem_cons, List.not_mem_nil, or_false] at hx
      rcases hx with rfl | rfl | rfl <;>
        exact ⟨by decide +kernel, by decide +kernel, by decide +kernel, by decide +kernel, head_of_ok (by decide +kernel),
          by decide +kernel, by decide +kernel⟩
    · simp only [headerFaults, firstHolds]
      decide +kernel

/-- Frame 7 in the middle of a segment: its payload is segment bytes, and its group check right and wrong, the failures before it none and one. -/
theorem witness_FrameTaken_seventh :
    ∀ check ∈ [(0xFFFFFFFF : Word), 0], ∀ failures ∈ [0, 1],
      let m := memWrite [] 0x2000000 (frameHeader 5 check none 7 false 0)
      let u := lockedOn .verify (frame5 7) (.collect (partly true 5 4077)) m
      let s : State := { u with framers := u.framers.set 0 { u.framers[(0 : Fin 4)] with failures := failures } }
      let h := ringBytes m lay.rings[(0 : Fin 4)] 0 20
      (running s ∧ s.framers[(0 : Fin 4)].assembler = .collect (partly true 5 4077) ∧ s.framers[(0 : Fin 4)].failures = failures
        ∧ s.framers[(0 : Fin 4)].groupInHand = some { group := 5, accumulating := true, check := 0 } ∧ roomFor s 2)
      ∧ (headerGood h = true ∧ headerName h = frame5 7 ∧ fieldNat h 8 4 = check.toNat ∧ 4076 - fieldNat h 17 2 = 4076
        ∧ 4076 < (partly true 5 4077).remaining)
      ∧ ~~~ crcUpdate 0 (ringBytes m lay.rings[(0 : Fin 4)] (0 + 20) 4076) = 0xFFFFFFFF := by
  intro check hc failures _
  refine ⟨⟨rfl, rfl, rfl, rfl, rfl, (by decide : 0 + 2 < 64)⟩, ?_, ?_⟩
  · have h : check = 0xFFFFFFFF ∨ check = 0 := by simpa using hc
    rcases h with rfl | rfl <;> decide +kernel
  · rw [show (0 : Word) + 20 = 20 from rfl, payload_zeros _ (frameHeader_length ..), crcUpdate_zeros]
    rfl

/-- Door edges under an active MOVE from A01 to B12: the mail slot's door, which it does not name; doors A and B during the GET at
A01 and during the PUT at B12, and no gripper step at the PICKER. -/
theorem witness_DoorEdgesTaken_gripper :
    let o : Order := { moveOrder with active := true }
    let get : ActiveStep := { kind := .get, station := 5, part := .extending }
    let put : ActiveStep := { kind := .put, station := 28, part := .extending }
    let s := active moveOrder { state := .busy, station := some 5, step := some get }
    let t : State := { carried with
      cd := { carried.cd with doorA := { latch := false }, doorB := { latch := false }, doorMail := { latch := false } }
      lc := { state := .busy, station := some 28, step := some put, queue := [o] } }
    (running s ∧ s.waiting .directory = false ∧ loaderFree s ∧ s.re.hasRoom = true ∧ s.lc.queue = o :: [] ∧ o.active = true
      ∧ s.lc.step = some get ∧ s.cd.doorA.isOpen = false ∧ s.cd.doorB.isOpen = false ∧ s.cd.doorMail.isOpen = false
      ∧ s.cd.held = [] ∧ roomFor s 2)
    ∧ (∀ p, behind .mail p → ¬ orderNames s o p) ∧ (pickerLoaded s ↔ ({} : Lines).cartridgePresent = true)
    ∧ (worksAt get o 5 ∧ behind .a 5 ∧ ¬ behind .b 5 ∧ orderNames s o 5 ∧ orderNames s o 28 ∧ behind .b 28
      ∧ ¬ worksAt get o pickerPlace ∧ orderFormed o)
    ∧ (running t ∧ t.waiting .directory = false ∧ loaderFree t ∧ t.lc.queue = o :: [] ∧ t.lc.step = some put
      ∧ t.cd.doorA.isOpen = false ∧ t.cd.doorB.isOpen = false ∧ t.cd.held = [] ∧ roomFor t 2)
    ∧ (worksAt put o 28 ∧ ¬ worksAt put o pickerPlace)
    ∧ (pickerLoaded t ↔ ({ cartridgePresent := true } : Lines).cartridgePresent = true) := by
  refine ⟨⟨rfl, rfl, ⟨rfl, rfl⟩, rfl, rfl, rfl, rfl, rfl, rfl, rfl, rfl, rfl, by decide⟩, ?_,
    ⟨fun ⟨c, h⟩ => absurd h (shelves_picker c), nofun⟩,
    ⟨.inl ⟨rfl, rfl⟩, by unfold behind; decide, by unfold behind; decide, .inl rfl, .inr (.inl rfl), by unfold behind; decide,
      by unfold worksAt; decide, move_formed true⟩,
    ⟨rfl, rfl, ⟨rfl, rfl⟩, rfl, rfl, rfl, rfl, rfl, rfl, by decide⟩, ⟨.inr ⟨rfl, rfl⟩, by unfold worksAt; decide⟩,
    ⟨fun _ => rfl, fun _ => ⟨3, rfl⟩⟩⟩
  rintro p hp (h | h | h)
  · cases h; exact absurd hp (by unfold behind; decide)
  · cases h; exact absurd hp (by unfold behind; decide)
  · exact h

/-- No check of R152 after the second fails: no order names a place, every lane is IDLE, the places are known, the latches clear,
the doors CLOSED, the source not EMPTY, the target not OCCUPIED and the PICKER as the order needs it. -/
theorem quiet_refuses (s : State) (o : Order) (own : Option Byte) (hp : ∀ p : PlaceId, s.cd.places[p].pending = none)
    (hl : ∀ n : LaneId, s.lanes[n].role = .idle) (hu : ∀ p : PlaceId, s.cd.places[p].state ≠ .unknown)
    (hd : ∀ d ∈ [s.cd.doorA, s.cd.doorB, s.cd.doorMail], d = { latch := false })
    (hs : ∀ p, o.source = some p → s.cd.places[p].state ≠ .empty)
    (ht : ∀ p c, o.target = some p → s.cd.places[p].state ≠ .occupied c)
    (h1 : o.kind ≠ .inventory → o.kind ≠ .pickerPut → ¬ pickerLoaded s) (h2 : o.kind = .pickerPut → pickerLoaded s) :
    noneHolds (placeRefusals s o own ++ loadRefusals s o) := by
  have ha : s.cd.doorA = { latch := false } := hd _ (by simp)
  have hb : s.cd.doorB = { latch := false } := hd _ (by simp)
  have hm : s.cd.doorMail = { latch := false } := hd _ (by simp)
  simp only [placeRefusals, loadRefusals, List.cons_append, List.nil_append, noneHolds, latchSet, ha, hb, hm]
  refine ⟨?_, ?_, ?_, ?_, ?_, by simp, fun h => h1 h.1 h.2.1 h.2.2, fun h => h.2 (h2 h.1), trivial⟩
  · rintro ⟨p, t, -, h, -⟩; rw [hp p] at h; cases h
  · rintro ⟨n, -, h⟩; exact h (hl n)
  · rintro ⟨-, p, -, h | h⟩
    · exact hu p h
    · simp at h
  · rintro ⟨p, h, k⟩; exact hs p h k
  · rintro ⟨p, c, x, h, k, -⟩; exact ht p c h k

/-- The same for all the checks of R152, in an empty queue of a loader that is not HALTED. -/
theorem quiet_accepts (s : State) (o : Order) (hq : s.lc.queue = []) (hh : s.lc.state ≠ .halted)
    (h : noneHolds (placeRefusals s o none ++ loadRefusals s o)) : noneHolds (orderRefusals s o) := by
  simp only [placeRefusals, loadRefusals, List.cons_append, List.nil_append, noneHolds] at h
  simp only [orderRefusals, placeRefusals, loadRefusals, List.cons_append, List.nil_append, List.map, noneHolds]
  obtain ⟨h1, h2, h3, h4, h5, h6, h7, h8, -⟩ := h
  exact ⟨hh, by rw [hq]; decide, h1, h2, h3, h4, h5, h6, fun h => h7 h.2, fun h => h8 h.2, trivial⟩

/-- An IDLE loader with an empty queue: a MOVE's source elsewhere and where the picker stands; a PICKER_PUT's target and an
INVENTORY's only place there. -/
theorem witness_OrderAccepted_idle :
    let put : Order := { tag := 9, kind := .pickerPut, target := some 28 }
    let survey : Order := { tag := 9, kind := .inventory, scope := some .mail }
    let putRequest := request 0x44 9 [0, 28]
    let surveyRequest := request 0x43 9 [2]
    (∀ i : Int, let s := asking moveRequest { shelves with lc := { state := .idle, station := some i } }
      loaderFree s ∧ describes s moveRequest moveOrder ∧ noneHolds (orderRefusals s moveOrder) ∧ s.lc.queue = []
        ∧ s.lc.state = .idle ∧ s.lc.station = some i ∧ firstPlace s moveOrder 5)
    ∧ (∀ i ∈ [(3 : Int), 5], RequestNext (asking moveRequest { shelves with lc := { state := .idle, station := some i } })
        (some .move) moveRequest)
    ∧ ((3 : Int) ≠ (5 : PlaceId).val ∧ (5 : Int) = (5 : PlaceId).val ∧ moveOrder.source = some 5)
    ∧ (let s := asking putRequest { carried with lc := { state := .idle, station := some 28 } }
       RequestNext s (some .pickerPut) putRequest ∧ loaderFree s ∧ describes s putRequest put ∧ noneHolds (orderRefusals s put)
        ∧ s.lc.station = some 28 ∧ firstPlace s put 28 ∧ (28 : Int) = (28 : PlaceId).val ∧ put.source = none ∧ put.scope = none)
    ∧ (let s := asking surveyRequest { shelves with lc := { state := .idle, station := some 4 } }
       RequestNext s (some .inventory) surveyRequest ∧ loaderFree s ∧ describes s surveyRequest survey
        ∧ noneHolds (orderRefusals s survey) ∧ s.lc.station = some 4 ∧ firstPlace s survey 4 ∧ (4 : Int) = (4 : PlaceId).val
        ∧ survey.scope ≠ none ∧ s.lc.exchange = none) := by
  refine ⟨fun i => ⟨⟨rfl, rfl⟩, move_described _, quiet_accepts _ _ rfl nofun (move_refuses _ rfl none), rfl, rfl, rfl, .inl rfl⟩,
    ?_, by decide, ⟨next_of_ok (by decide +kernel), ⟨rfl, rfl⟩, ?_, quiet_accepts _ _ rfl nofun (quiet_refuses _ _ _ (by decide +kernel)
      (by decide +kernel) (by decide +kernel) (by decide +kernel) nofun ?_ (fun _ h => absurd rfl h) fun _ => ⟨3, rfl⟩), rfl, .inr ⟨rfl, rfl⟩,
      by decide, rfl, rfl⟩,
    next_of_ok (by decide +kernel), ⟨rfl, rfl⟩, ?_, quiet_accepts _ _ rfl nofun (quiet_refuses _ _ _ (by decide +kernel)
      (by decide +kernel) (by decide +kernel) (by decide +kernel) nofun nofun (fun h => absurd rfl h) nofun), rfl,
      ⟨.inr (.inr rfl), ?_⟩, by decide, nofun, rfl⟩
  · intro i hi
    have h : i = 3 ∨ i = 5 := by simpa using hi
    rcases h with rfl | rfl <;> exact next_of_ok (by decide +kernel)
  · show (9 : Byte).toNat = recordTag (request 0x44 9 [0, 28]) ∧ _
    decide +kernel
  · rintro p c h
    cases h
    intro k
    cases k
  · show (9 : Byte).toNat = recordTag (request 0x43 9 [2]) ∧ _
    decide +kernel
  · rintro q (h | h | h)
    · cases h
    · cases h
    · exact Nat.le_of_eq h.symm

/-- STEP_TIMEOUT of a PUT whose target is EMPTY, the cartridge still there and gone, and of a GET with the PICKER without a record,
a cartridge there and none. -/
theorem witness_GripperEventsTaken_timeouts :
    let o : Order := { moveOrder with active := true }
    let timer : Timer := { started := 0, length := 1500000 }
    let put : ActiveStep := { kind := .put, station := 28, part := .extending }
    let get : ActiveStep := { kind := .get, station := 5, part := .extending }
    let s : State := { carried with lc := { state := .busy, station := some 28, step := some put, stepTimer := some timer, queue := [o] } }
    let t := active moveOrder { state := .busy, station := some 5, step := some get, stepTimer := some timer }
    (running s ∧ loaderFree s ∧ s.re.hasRoom = true ∧ s.lc.queue = o :: [] ∧ o.active = true ∧ s.lc.step = some put ∧ orderFormed o
      ∧ s.lc.stepTimer = some timer ∧ worksAt put o 28 ∧ (28 : PlaceId) ≠ pickerPlace ∧ s.cd.places[(28 : PlaceId)].state = .empty)
    ∧ (∀ present, let left : Directory := { s.cd with places := s.cd.places.set 28 { s.cd.places[(28 : PlaceId)] with state := .unknown } }
      pickerSensed present left (if present then left else { left with
        places := left.places.set 29 { left.places[pickerPlace] with state := .empty }, records := left.records.set 3 none }))
    ∧ (running t ∧ loaderFree t ∧ t.lc.queue = o :: [] ∧ t.lc.step = some get ∧ t.lc.stepTimer = some timer
      ∧ worksAt get o 5 ∧ (5 : PlaceId) ≠ pickerPlace ∧ t.cd.places[(5 : PlaceId)].state = .occupied 3)
    ∧ (∀ present, let left : Directory := { t.cd with
        places := t.cd.places.set 5 { t.cd.places[(5 : PlaceId)] with state := .unknown }, records := t.cd.records.set 3 none }
      pickerSensed present left (if present then { left with
        places := left.places.set 29 { left.places[pickerPlace] with state := .occupied 0 }
        records := left.records.set 0 (some { place := 29 }) } else left))
    ∧ timer.started + timer.length ≤ max s.timebase 1500000 := by
  refine ⟨⟨rfl, ⟨rfl, rfl⟩, rfl, rfl, rfl, rfl, move_formed true, rfl, .inr ⟨rfl, rfl⟩, by decide, rfl⟩, fun present => ?_,
    ⟨rfl, ⟨rfl, rfl⟩, rfl, rfl, rfl, .inl ⟨rfl, rfl⟩, by decide, rfl⟩, fun present => ?_, by decide +kernel⟩
  · refine ⟨fun c h => ?_, fun h => absurd rfl (h 3)⟩
    cases PlaceState.occupied.inj (h.symm.trans (rfl : _ = PlaceState.occupied 3))
    rfl
  · refine ⟨fun c h => (nomatch h), fun _ => ⟨fun h => by subst h; rfl, fun h d hd => ?_⟩⟩
    subst h
    have : d = 0 := by
      refine Fin.ext (Nat.eq_zero_of_not_pos fun k => hd.2 0 k rfl)
    subst this
    rfl

/-- Results of a label read that waits for its last byte or has made its fifth attempt: a GET's, at the PICKER, and a survey's, at a
place with a record and without one, with more of its scope to visit and with none. -/
theorem witness_LabelLinkEventsTaken_results :
    let l : Label := #v[79, 70, 67, 48, 48, 52, 49, 55]
    let bad : Label := #v[79, 70, 67, 48, 48, 52, 49, 31]
    let exchange : Exchange := { sent := 0, limit := { started := 0, length := 5000 } }
    let move : Order := { moveOrder with active := true }
    let inventory (x : Scope) : Order := { tag := 9, kind := .inventory, scope := some x, active := true }
    let read : ActiveStep := { kind := .labelRead, station := 5, part := .reading }
    let survey (i : Int) : ActiveStep := { kind := .survey, station := i, part := .reading }
    let link (base : State) (o : Order) (step : ActiveStep) (bytes : List Byte) (attempt : Nat) (waits : Bool) : State := { base with
      re := if waits then { waiters := [{ unit := .directory, item := .post (.ringFault false 1 2) }] } else {}
      lc := { state := .busy, station := some step.station, step := some step, exchange := some exchange, exchanging := true
              attempt := attempt, received := bytes, queue := [o] } }
    (∀ base o step bytes attempt waits, base.resetAsserted = false →
      let s := link base o step bytes attempt waits
      running s ∧ s.lc.step = some step ∧ s.lc.queue = o :: [] ∧ s.lc.station = some step.station ∧ s.lc.received = bytes
        ∧ s.lc.attempt = attempt ∧ s.waiting .directory = waits ∧ (waits = false → s.re.hasRoom = true ∧ loaderFree s ∧ roomFor s 2)
        ∧ (∃ m, s.lc.exchange = some m ∧ m.stopped = false ∧ m.limit.started + m.limit.length ≤ max s.timebase 5000))
    ∧ (carried.resetAsserted = false ∧ shelves.resetAsserted = false ∧ orderFormed move ∧ (∀ x, orderFormed (inventory x)))
    ∧ ((0xD4 : Byte).toNat = (l.toList.map fun u => u.toNat).sum % 256 ∧ (0xD5 : Byte).toNat ≠ (l.toList.map fun u => u.toNat).sum % 256
      ∧ (∀ u ∈ l.toList, 0x20 ≤ u.toNat ∧ u.toNat ≤ 0x7E)
      ∧ (0xBC : Byte).toNat = (bad.toList.map fun u => u.toNat).sum % 256 ∧ ∃ u ∈ bad.toList, u.toNat < 0x20 ∨ 0x7E < u.toNat)
    ∧ (labelTakenBy carried.cd pickerPlace (some l) carried.cd []
      ∧ labelTakenBy carried.cd pickerPlace none { carried.cd with records := carried.cd.records.set 3 (some {
          cart3 with label := none, place := 29, written := 0, verified := 0, limit := 0, condition := .unset }) }
        [.labelChanged pickerPlace 3 (some l) none]
      ∧ labelTakenBy shelves.cd 5 (some l) shelves.cd []
      ∧ ∀ p ∈ [(6 : PlaceId), 4], labelTakenBy shelves.cd p none { shelves.cd with
          places := shelves.cd.places.set p { shelves.cd.places[p] with state := .occupied 0 }
          records := shelves.cd.records.set 0 (some { place := p }) } [])
    ∧ (read.kind = .labelRead ∧ read.part = .reading ∧ move.target = some 28 ∧ read.station ≠ (28 : PlaceId).val)
    ∧ (∀ p : PlaceId, (survey p.val).kind = .survey ∧ (survey p.val).part = .reading ∧ (survey p.val).station = p.val)
    ∧ (∀ s : State, (∀ q ∈ [(5 : PlaceId), 6], orderNames s (inventory .a) q)
      ∧ (∀ r, orderNames s (inventory .a) r → (5 : PlaceId).val < r.val → (6 : PlaceId).val ≤ r.val)
      ∧ ∀ r, orderNames s (inventory .mail) r → r.val ≤ (4 : PlaceId).val) := by
  refine ⟨fun base o step bytes attempt waits h => ?_, ⟨rfl, rfl, move_formed true, fun _ => ⟨⟨nofun, fun _ => rfl⟩, fun _ => ⟨rfl, rfl⟩⟩⟩,
    by decide +kernel, ⟨.inl ⟨3, _, rfl, rfl, .inl ⟨rfl, rfl, rfl⟩⟩, .inl ⟨3, _, rfl, rfl, .inr ⟨nofun, rfl, rfl⟩⟩,
      .inl ⟨3, _, rfl, rfl, .inl ⟨rfl, rfl, rfl⟩⟩, fun p hp => ?_⟩, ⟨rfl, rfl, rfl, by decide⟩, fun _ => ⟨rfl, rfl, rfl⟩, fun s => ⟨?_, fun r _ h => h, ?_⟩⟩
  · refine ⟨h, rfl, rfl, rfl, rfl, rfl, by cases waits <;> rfl, ?_, _, rfl, rfl, Nat.le_max_right _ _⟩
    rintro rfl
    exact ⟨rfl, ⟨rfl, rfl⟩, rfl, (by decide : 0 + 2 < 64)⟩
  · have h : p = 6 ∨ p = 4 := by simpa using hp
    rcases h with rfl | rfl <;>
      exact .inr ⟨nofun, rfl, 0, ⟨rfl, fun _ h => absurd h (Nat.not_lt_zero _)⟩, rfl⟩
  · intro q hq
    have h : q = 5 ∨ q = 6 := by simpa using hq
    rcases h with rfl | rfl <;> exact .inr (.inr ⟨by decide, by decide⟩)
  · rintro r (h | h | h)
    · cases h
    · cases h
    · exact Nat.le_of_eq h

/-! ## Small tests of stops and closes -/

/-- R160, R163: a halt during an exchange leaves it in progress, and its byte makes the link IDLE. -/
theorem test_halt_keeps_exchange :
    let exchange : Exchange := { sent := 0, limit := { started := 0, length := 5000 } }
    let s := asking (request 0x45 0 []) (active moveOrder {
      state := .busy, station := some 5, step := some { kind := .labelRead, station := 5, part := .reading }
      exchange := some exchange, exchanging := true, attempt := 1, received := [1] })
    let t := after (.loaderHalt {}) s
    t.lc.state = .halted ∧ t.lc.exchange = some { exchange with stopped := true } ∧ t.lc.exchanging = true
      ∧ (after (.labelExchange 7 {}) t).lc.exchange = none ∧ (after (.labelExchange 7 {}) t).lc.exchanging = false := by
  decide +kernel

/-- R81, R86: a close pending is dropped when the slot closes FULL, before the segment ends. -/
theorem test_full_close_drops_pending :
    let s := copyingAt [1, 2, 3] 7 4074
    let s : State := { s with lanes := s.lanes.set 0 { s.lanes[(0 : Fin 4)] with closePending := some (.age, 4) } }
    let t := after (.frameComplete 0 0) s
    t.lanes[(0 : Fin 4)].closePending = none ∧ t.lanes[(0 : Fin 4)].slots[4]? = some (.ready 14)
      ∧ t.lanes[(0 : Fin 4)].packing.isSome = true := by decide +kernel

/-- R149: the jaw output last driven stays driven at power-on reset. -/
theorem test_reset_keeps_jaw :
    let t := after (.powerOnReset 2 {} {}) { s0 with lc := { outputs := { jawClose := true, motorRun := true } } }
    t.lc.outputs.jawClose = true ∧ t.lc.outputs.motorRun = false ∧ t.lc.outputs.gripperRetract = true := by decide +kernel

/-- R46, R54: a chunk that closed while the JOB_DONE of a LANE_RESET waited is given up when the slot is freed. -/
theorem test_chunk_given_up_when_freed :
    let s := fed #v[{ state := .compressing, entry := some entry0 }, { state := .closed }] {}
    let s : State := { s with
      ce := { inFlight := some { entry := entry0 }, queue := [{ entry0 with buffer := 1 }] }
      jt := { s.jt with ending := some 0 }
      re := { waiters := [{ unit := .jobTable, item := .post (.jobDone 0 s.jt.jobs[(0 : Fin 8)].record .laneReset) }] } }
    let t := after (.backlogAdmit {}) s
    t.streams[(0 : Fin 4)].phase = .free ∧ t.streams[(0 : Fin 4)].buffers[(1 : Fin 2)].state = .free ∧ t.ce.queue = []
      ∧ t.ce.inFlight = some { entry := entry0, discard := true } := by decide +kernel

/-- R102, R103: a slip that gives up a partial segment and meets a header fault lets the consumed mark rise before its
SEGMENT_FAULT has joined. -/
theorem test_mark_follows_before_waiting_fault :
    let p : Assembly := { partly true 5 4076 with pieces := [{ position := 0, length := 9 }] }
    let u := lockedOn .verify (frame5 2) (.collect p) (memWrite [] 0x2001000 (frameHeader 5 0 (some 0) 3 false 0))
    let s : State := { u with
      framers := u.framers.set 0 { u.framers[(0 : Fin 4)] with scan := 4096 }
      wd := { u.wd with ringAperture := u.wd.ringAperture.set 0 { expected := 8192, limit := 0x400000 } }
      re := { backlog := List.replicate 64 (.ringFault false 1 2) } }
    let t := after (.frameTake 0) s
    t.waiting (.framer 0) = true ∧ t.framers[(0 : Fin 4)].segmentFaults = 1 ∧ t.framers[(0 : Fin 4)].consumed = 4096
      ∧ t.wd.ringAperture[(0 : Fin 4)].limit = 0x401000 := by
  decide +kernel

/-- R125: a decode in flight goes on with its input bytes of the layout under which it was taken. -/
theorem test_decode_reads_old_ring :
    let u := decoding .verify .unbound .active false true 0 false
    let s : State := { u with
      mem := memWrite [] 0x2000000 [0x08, 0x41, 0x42, 0x43, 0x02, 0x06, 0x58]
      wd := { u.wd with layout := some { lay with rings := lay.rings.set 0 { base := 0x6000000, size := 0x400000 } } } }
    let t := after .expansionComplete s
    t.de.buffer = chunkABC ∧ t.de.operation.isNone = true ∧ t.jt = s.jt := by decide +kernel

/-- A RESTORE or VERIFY job of lane 0, its end evaluation done, whose JOB_DONE waits with an outcome after the given waiters;
the lane retains a DRAINED slot, and a LANE_RESET of the lane is in the request ring. -/
def evaluated (first : List Waiter) (outcome : JobOutcome) (backlog : Nat) (h : Option InHand) (kind : JobKind := .restore) :
    State :=
  let s := asking (request 0x21 0 [0]) (evaluating 0 none)
  let r : JobRecord := { s.jt.jobs[(0 : Fin 8)].record with kind := kind }
  { s with
    de := {}, jt := { s.jt with jobs := s.jt.jobs.set 0 { live := true, record := r }, ending := some 0 }
    lanes := s.lanes.set 0 { role := .read, slots := [.drained 11, .free], nextSlot := 1 }
    re := { s.re with
      inHand := h, reservation := h.any fun h => h.reserved, backlog := List.replicate backlog (.ringFault false 1 2)
      waiters := first ++ [{ unit := .jobTable, item := .post (.jobDone 0 r outcome) }] } }

/-- R132: a LANE_RESET that obtains its reservation, at once or at its BACKLOG_ADMIT, while the JOB_DONE of an evaluated RESTORE
job waits, has met the evaluation; one that finds an aborted job's JOB_DONE waiting has not. -/
theorem test_reset_meets_done_evaluation :
    let h : InHand := { bytes := request 0x21 0 [0], reserved := false }
    let met (s : State) : Option Bool := s.re.inHand.map fun h => h.reserved && h.metEvaluation
    met (after .laneReset (evaluated [] .complete 62 none)) = some true
    ∧ met (after (.backlogAdmit {}) (evaluated [{ unit := .requestEngine, item := .reservation }] .complete 63 (some h))) = some true
    ∧ met (after .laneReset (evaluated [] .aborted 62 none)) = some false := by decide +kernel

/-- R127, R132: the JOB_DONE joins, the lane becomes IDLE, and the LANE_RESET that met the evaluation is answered and leaves the
DRAINED slot; one that did not frees it (R87). -/
theorem test_met_reset_keeps_slots :
    let h : InHand := { bytes := request 0x21 0 [0], reserved := true, metEvaluation := true }
    let t := after (.backlogAdmit {}) (evaluated [] .complete 62 (some h))
    let u := after (.backlogAdmit {}) (evaluated [] .aborted 62 (some { h with metEvaluation := false }))
    t.jt.jobs[(0 : Fin 8)].live = false ∧ lastCode t = some .done ∧ t.lanes[(0 : Fin 4)].role = .idle
      ∧ t.lanes[(0 : Fin 4)].slots = [.drained 11, .free] ∧ u.lanes[(0 : Fin 4)].slots = [.free, .free] := by decide +kernel

/-- R87, R127: a LANE_RESET that obtains its reservation after a VERIFY evaluation is done, while the JOB_DONE waits, waits for
the post alone and then frees the DRAINED slot and sets the next slot index to 0. -/
theorem test_reset_after_verify_evaluation :
    let s := after .laneReset (evaluated [] .complete 62 none .verify)
    let t := after (.backlogAdmit {}) s
    s.re.inHand.isSome = true ∧ s.lanes[(0 : Fin 4)].slots = [.drained 11, .free]
      ∧ t.jt.jobs[(0 : Fin 8)].live = false ∧ lastCode t = some .done ∧ t.lanes[(0 : Fin 4)].role = .idle
      ∧ t.lanes[(0 : Fin 4)].slots = [.free, .free] ∧ t.lanes[(0 : Fin 4)].nextSlot = 0 := by decide +kernel

/-- R143, R157: the retracted gripper of a GET from a drive leaves the drive EMPTY and the record in the PICKER with no origin. -/
theorem test_get_from_drive :
    let o : Order := { tag := 9, kind := .dismount, source := some 0, target := some 28, active := true }
    let s : State := { loaded with
      cd := { loaded.cd with records := loaded.cd.records.set 3 (some { cart3 with origin := some 5 }) }
      lc := {
        state := .busy, station := some 0, step := some { kind := .get, station := 0, part := .retracting }, queue := [o]
        stepTimer := some { started := 0, length := 9 } } }
    let t := after (.gripperStepEnd { lines := { retracted := true } }) s
    t.cd.places[(0 : PlaceId)].state = .empty ∧ t.cd.places[pickerPlace].state = .occupied 3
      ∧ t.cd.records[(3 : CartId)] = some { cart3 with place := 29, origin := none }
      ∧ t.lc.step = some { kind := .labelRead, station := 0, part := .reading } := by decide +kernel

end Sys2Proof.Tests
end

section
/-! PROOFS. The Compressor's encoding (R57 to R61) and its expansion (R66, R121). The encoder is described once, by what one
step of it emits (`encodeFrom_step`); the relation `Encodes` collects those steps for a whole token list, and both obligations
are about a token list that encodes the chunk. -/

namespace Sys2Proof.Proofs.Compressor

open Sys2Proof Sys2Proof.Machine

/-! ## The head table holds only positions already passed (R57) -/

/-- Every non-empty entry of the table holds a position below `p`. -/
def Below (t : HeadTable) (p : Nat) : Prop := ∀ e ∈ t, e.2 < p

theorem below_headLookup {t : HeadTable} {p h c : Nat} (ht : Below t p) (hc : headLookup t h = some c) : c < p := by
  obtain ⟨e, he, rfl⟩ := Option.map_eq_some_iff.mp hc
  exact ht e (List.mem_of_find?_eq_some he)

theorem below_headSet {t : HeadTable} {p p' q : Nat} (h : Nat) (ht : Below t p) (hp : p ≤ p') (hq : q < p') :
    Below (headSet t h q) p' := by
  intro e he
  rcases List.mem_cons.mp he with rfl | he
  · exact hq
  · exact (ht e (List.mem_of_mem_filter he)).trans_le hp

theorem below_updateInside {t : HeadTable} (chunk : Array Byte) {p l : Nat} (ht : Below t (p + 1)) (hl : 1 ≤ l) :
    Below (updateInside chunk p l t) (p + l) := by
  unfold updateInside
  refine List.foldlRecOn (motive := fun t => Below t (p + l)) _ _ (fun e he => (ht e he).trans_le (by omega))
    fun t ht i hi => ?_
  have hi : i < l - 1 := List.mem_range.mp hi
  split
  · exact ht
  · exact below_headSet _ ht le_rfl (by omega)

/-! ## One step of the encoder (R58) -/

theorem matchLength_le (chunk : Array Byte) (c p n : Nat) : matchLength chunk c p n ≤ n := by
  induction n generalizing c p with
  | zero => exact le_rfl
  | succ n ih =>
    have := ih (c + 1) (p + 1)
    simp only [matchLength]
    split <;> omega

theorem getD_eq_of_lt_matchLength {chunk : Array Byte} {c p n i : Nat} (hi : i < matchLength chunk c p n) :
    chunk.getD (c + i) 0 = chunk.getD (p + i) 0 := by
  induction n generalizing c p i with
  | zero => exact absurd hi (Nat.not_lt_zero i)
  | succ n ih =>
    simp only [matchLength] at hi
    split at hi
    next heq =>
      cases i with
      | zero => exact heq
      | succ i => simpa only [Nat.add_right_comm, Nat.add_assoc] using ih (c := c + 1) (p := p + 1) (i := i) (by omega)
    next => exact absurd hi (Nat.not_lt_zero i)

/-- What a match that the encoder emits at position `p` satisfies: its distance and length are in the token's ranges, it stays
inside the chunk, and each byte it covers repeats the byte `d` before it. -/
structure IsMatch (chunk : Array Byte) (p d l : Nat) : Prop where
  one_le_distance : 1 ≤ d
  distance_le : d ≤ p
  distance_le_window : d ≤ 4096
  three_le_length : 3 ≤ l
  length_le : l ≤ 18
  within : p + l ≤ chunk.size
  repeats : ∀ i < l, chunk.getD (p + i) 0 = chunk.getD (p + i - d) 0

/-- The length of the match at `p` that the table's candidate gives, 0 where it gives none (R58 steps 1 to 3). -/
def matchFound (chunk : Array Byte) (p : Nat) (t : HeadTable) : Nat :=
  match headLookup t (hashAt chunk p) with
  | none => 0
  | some c => if 4096 < p - c then 0 else matchLength chunk c p (min 18 (chunk.size - p))

/-- The distance of the match that `matchFound` measures. -/
def candidateDistance (chunk : Array Byte) (p : Nat) (t : HeadTable) : Nat := p - (headLookup t (hashAt chunk p)).getD 0

theorem isMatch_of_three_le_matchFound {chunk : Array Byte} {p : Nat} {t : HeadTable} (ht : Below t p)
    (hl : 3 ≤ matchFound chunk p t) : IsMatch chunk p (candidateDistance chunk p t) (matchFound chunk p t) := by
  unfold matchFound candidateDistance at *
  cases hlook : headLookup t (hashAt chunk p) with
  | none => simp [hlook] at hl
  | some c =>
    have hc := below_headLookup ht hlook
    have hle := matchLength_le chunk c p (min 18 (chunk.size - p))
    by_cases hw : 4096 < p - c
    · simp [hlook, hw] at hl
    simp only [hlook, if_neg hw] at hl
    simp only [if_neg hw, Option.getD_some]
    refine ⟨by omega, by omega, by omega, hl, by omega, by omega, fun i hi => ?_⟩
    rw [← getD_eq_of_lt_matchLength hi, show p + i - (p - c) = c + i by omega]

theorem encodeFrom_of_three_left {chunk : Array Byte} {p : Nat} (n : Nat) (t : HeadTable) (h : 3 ≤ chunk.size - p) :
    (encodeFrom chunk (n + 1) p t).1 =
      if 3 ≤ matchFound chunk p t then
        .copy (candidateDistance chunk p t) (matchFound chunk p t)
          :: (encodeFrom chunk n (p + matchFound chunk p t)
            (updateInside chunk p (matchFound chunk p t) (headSet t (hashAt chunk p) p))).1
      else .literal (chunk.getD p 0) :: (encodeFrom chunk n (p + 1) (headSet t (hashAt chunk p) p)).1 := by
  rw [encodeFrom, if_neg (by omega), if_neg (by omega)]
  exact apply_ite Prod.fst (3 ≤ matchFound chunk p t) _ _

/-- Inside the chunk the encoder emits a literal and advances by one, or emits a match and advances by its length. -/
theorem encodeFrom_step {chunk : Array Byte} {p : Nat} {t : HeadTable} (n : Nat) (hp : p < chunk.size) (ht : Below t p) :
    (∃ t', Below t' (p + 1)
      ∧ (encodeFrom chunk (n + 1) p t).1 = .literal (chunk.getD p 0) :: (encodeFrom chunk n (p + 1) t').1)
    ∨ ∃ d l t', IsMatch chunk p d l ∧ Below t' (p + l)
      ∧ (encodeFrom chunk (n + 1) p t).1 = .copy d l :: (encodeFrom chunk n (p + l) t').1 := by
  have hset : Below (headSet t (hashAt chunk p) p) (p + 1) := below_headSet _ ht p.le_succ p.lt_succ_self
  by_cases htail : chunk.size - p < 3
  · refine .inl ⟨t, fun e he => (ht e he).trans p.lt_succ_self, ?_⟩
    rw [encodeFrom, if_neg hp.not_ge, if_pos htail]
  rw [encodeFrom_of_three_left n t (Nat.not_lt.mp htail)]
  by_cases hl : 3 ≤ matchFound chunk p t
  · rw [if_pos hl]
    exact .inr ⟨_, _, _, isMatch_of_three_le_matchFound ht hl, below_updateInside chunk hset (by omega), rfl⟩
  · rw [if_neg hl]
    exact .inl ⟨_, hset, rfl⟩

/-! ## A token list that encodes the rest of a chunk -/

/-- The tokens encode the chunk's bytes from position `p` to its end. -/
inductive Encodes (chunk : Array Byte) : Nat → List Token → Prop where
  | done : Encodes chunk chunk.size []
  | literal {p : Nat} {ts : List Token} (hp : p < chunk.size) (rest : Encodes chunk (p + 1) ts) :
      Encodes chunk p (.literal (chunk.getD p 0) :: ts)
  | copy {p d l : Nat} {ts : List Token} (hm : IsMatch chunk p d l) (rest : Encodes chunk (p + l) ts) :
      Encodes chunk p (.copy d l :: ts)

theorem encodeFrom_encodes {chunk : Array Byte} {n p : Nat} {t : HeadTable} (hp : p ≤ chunk.size) (hn : chunk.size ≤ p + n)
    (ht : Below t p) : Encodes chunk p (encodeFrom chunk n p t).1 := by
  induction n generalizing p t with
  | zero =>
    obtain rfl : p = chunk.size := hp.antisymm hn
    exact .done
  | succ n ih =>
    rcases hp.eq_or_lt with rfl | hlt
    · rw [encodeFrom, if_pos le_rfl]
      exact .done
    rcases encodeFrom_step n hlt ht with ⟨t', ht', heq⟩ | ⟨d, l, t', hm, ht', heq⟩
    · rw [heq]
      exact .literal hlt (ih hlt (by omega) ht')
    · have := hm.three_le_length
      rw [heq]
      exact .copy hm (ih hm.within (by omega) ht')

theorem encodeChunk_encodes (data : List Byte) : Encodes data.toArray 0 (encodeChunk data).1 :=
  encodeFrom_encodes (Nat.zero_le _) (by simp) nofun

/-! ## Counts of tokens and of the bytes they stand for -/

/-- The chunk bytes a token stands for. -/
def span : Token → Nat
  | .literal _ => 1
  | .copy _ l => l

def isLiteral : Token → Bool
  | .literal _ => true
  | .copy _ _ => false

def isCopy : Token → Bool
  | .literal _ => false
  | .copy _ _ => true

/-- The chunk bytes a token stands for when it is a match. -/
def copySpan : Token → Nat
  | .literal _ => 0
  | .copy _ l => l

def literals (ts : List Token) : Nat := ts.countP isLiteral

def copies (ts : List Token) : Nat := ts.countP isCopy

def copiedBytes (ts : List Token) : Nat := (ts.map copySpan).sum

@[simp] theorem literals_nil : literals [] = 0 := rfl
@[simp] theorem literals_literal (b : Byte) (ts : List Token) : literals (.literal b :: ts) = literals ts + 1 :=
  List.countP_cons_of_pos rfl
@[simp] theorem literals_copy (d l : Nat) (ts : List Token) : literals (.copy d l :: ts) = literals ts :=
  List.countP_cons_of_neg nofun
@[simp] theorem copies_nil : copies [] = 0 := rfl
@[simp] theorem copies_literal (b : Byte) (ts : List Token) : copies (.literal b :: ts) = copies ts :=
  List.countP_cons_of_neg nofun
@[simp] theorem copies_copy (d l : Nat) (ts : List Token) : copies (.copy d l :: ts) = copies ts + 1 :=
  List.countP_cons_of_pos rfl
@[simp] theorem copiedBytes_nil : copiedBytes [] = 0 := rfl
@[simp] theorem copiedBytes_literal (b : Byte) (ts : List Token) : copiedBytes (.literal b :: ts) = copiedBytes ts := by
  simp [copiedBytes, copySpan]
@[simp] theorem copiedBytes_copy (d l : Nat) (ts : List Token) : copiedBytes (.copy d l :: ts) = l + copiedBytes ts := by
  simp [copiedBytes, copySpan]

theorem length_eq_literals_add_copies (ts : List Token) : ts.length = literals ts + copies ts := by
  induction ts with
  | nil => rfl
  | cons t ts ih =>
    cases t with
    | literal b => rw [List.length_cons, literals_literal, copies_literal, ih, Nat.add_right_comm]
    | copy d l => rw [List.length_cons, literals_copy, copies_copy, ih, Nat.add_assoc]

theorem length_tokenBytes_flatMap (ts : List Token) :
    (ts.flatMap tokenBytes).length = literals ts + 2 * copies ts := by
  induction ts with
  | nil => rfl
  | cons t ts ih =>
    rw [List.flatMap_cons, List.length_append, ih]
    cases t with
    | literal b =>
      simp only [tokenBytes, List.length_cons, List.length_nil, literals_literal, copies_literal]
      omega
    | copy d l =>
      simp only [tokenBytes, List.length_cons, List.length_nil, literals_copy, copies_copy]
      omega

theorem Encodes.literals_add_copiedBytes {chunk : Array Byte} {p : Nat} {ts : List Token} (h : Encodes chunk p ts) :
    p + (literals ts + copiedBytes ts) = chunk.size := by
  induction h with
  | done => rfl
  | literal _ _ ih =>
    rw [literals_literal, copiedBytes_literal]
    omega
  | copy _ _ ih =>
    rw [literals_copy, copiedBytes_copy]
    omega

theorem Encodes.copiedBytes_bounds {chunk : Array Byte} {p : Nat} {ts : List Token} (h : Encodes chunk p ts) :
    3 * copies ts ≤ copiedBytes ts ∧ copiedBytes ts ≤ 18 * copies ts := by
  induction h with
  | done => exact ⟨le_rfl, le_rfl⟩
  | literal _ _ ih => rwa [copies_literal, copiedBytes_literal]
  | copy hm _ ih =>
    have hshort := hm.three_le_length
    have hlong := hm.length_le
    rw [copies_copy, copiedBytes_copy]
    omega

/-- The tokens before a match stand for the bytes before its position. -/
theorem Encodes.match_at {chunk : Array Byte} {before after : List Token} {p d l : Nat}
    (h : Encodes chunk p (before ++ .copy d l :: after)) : IsMatch chunk (p + (before.map span).sum) d l := by
  induction before generalizing p with
  | nil =>
    cases h with
    | copy hm _ => exact hm
  | cons t before ih =>
    rw [List.map_cons, List.sum_cons, ← Nat.add_assoc]
    cases h with
    | literal _ rest => exact ih rest
    | copy _ rest => exact ih rest

/-! ## The token stream group by group (R60) -/

/-- The bound on the number of groups does not matter once it covers the tokens. -/
theorem tokenGroups_eq_of_length_le {n m : Nat} {ts : List Token} (hn : ts.length ≤ n) (hm : ts.length ≤ m) :
    tokenGroups n ts = tokenGroups m ts := by
  induction n generalizing m ts with
  | zero =>
    obtain rfl := List.eq_nil_of_length_eq_zero (Nat.le_zero.mp hn)
    cases m <;> rfl
  | succ n ih =>
    rcases ts with _ | ⟨t, ts⟩
    · cases m <;> rfl
    cases m with
    | zero => exact absurd hm (Nat.not_succ_le_zero _)
    | succ m =>
      have hdrop : ((t :: ts).drop 8).length ≤ ts.length := by simp
      simp only [tokenGroups]
      rw [ih (hdrop.trans (Nat.le_of_succ_le_succ hn)) (hdrop.trans (Nat.le_of_succ_le_succ hm))]

/-- The bytes of a stream from inside a group on, with `k` tokens of the group to come. -/
def streamWithin (k : Nat) (ts : List Token) : List Byte := (ts.take k).flatMap tokenBytes ++ tokenStream (ts.drop k)

@[simp] theorem tokenStream_nil : tokenStream [] = [] := rfl

/-- A stream that is not empty begins with the flag byte of its first group. -/
theorem tokenStream_eq_flag_cons {ts : List Token} (h : ts ≠ []) :
    tokenStream ts = BitVec.ofNat 8 (flagValue (ts.take 8)) :: streamWithin 8 ts := by
  cases ts with
  | nil => exact absurd rfl h
  | cons t ts =>
    rw [tokenStream, List.length_cons]
    simp only [tokenGroups, List.cons_append]
    rw [streamWithin, tokenStream, tokenGroups_eq_of_length_le (by simp) le_rfl]

@[simp] theorem streamWithin_zero (ts : List Token) : streamWithin 0 ts = tokenStream ts := by
  simp [streamWithin]

@[simp] theorem streamWithin_nil (k : Nat) : streamWithin k [] = [] := by
  simp [streamWithin]

@[simp] theorem streamWithin_succ_cons (k : Nat) (t : Token) (ts : List Token) :
    streamWithin (k + 1) (t :: ts) = tokenBytes t ++ streamWithin k ts := by
  simp [streamWithin]

/-- R61's packed size, of any token list. -/
theorem length_tokenStream (ts : List Token) :
    (tokenStream ts).length = (ts.length + 7) / 8 + literals ts + 2 * copies ts := by
  suffices h : (tokenStream ts).length = (ts.length + 7) / 8 + (ts.flatMap tokenBytes).length by
    rw [h, length_tokenBytes_flatMap, Nat.add_assoc]
  induction hn : ts.length using Nat.strong_induction_on generalizing ts with
  | _ n ih =>
    rcases eq_or_ne ts [] with rfl | hne
    · simp [← hn]
    have hpos : 0 < ts.length := List.length_pos_iff.mpr hne
    have hrest := ih (ts.drop 8).length (by rw [List.length_drop]; omega) (ts.drop 8) rfl
    have hsplit : ((ts.take 8).flatMap tokenBytes).length + ((ts.drop 8).flatMap tokenBytes).length
        = (ts.flatMap tokenBytes).length := by
      rw [← List.length_append, ← List.flatMap_append, List.take_append_drop]
    rw [tokenStream_eq_flag_cons hne, streamWithin, List.length_cons, List.length_append, hrest, List.length_drop]
    omega

/-- Settles O59: the stream's length is a count over any token list, and in a list that encodes the chunk every match stands
for 3 to 18 bytes. -/
theorem packedSizeCounted : Obligations.PackedSizeCounted := by
  intro data tokens n
  have henc : Encodes data.toArray 0 tokens := encodeChunk_encodes data
  have hsize : (tokenStream tokens).length = (tokens.length + 7) / 8 + literals tokens + 2 * copies tokens :=
    length_tokenStream tokens
  have hcount : tokens.length = literals tokens + copies tokens := length_eq_literals_add_copies tokens
  have hchunk : literals tokens + copiedBytes tokens = n := by simpa using henc.literals_add_copiedBytes
  have hbounds := henc.copiedBytes_bounds
  have hlargest : (tokenStream tokens).length ≤ n + (n + 7) / 8 := by omega
  refine ⟨hsize, hcount, hchunk, hlargest, fun hnone => ?_, fun hn => by omega⟩
  have hnone : copies tokens = 0 := hnone
  omega

/-! ## Expansion follows the encoding (R66, R121) -/

theorem flagValue_lt (ts : List Token) : flagValue ts < 2 ^ ts.length := by
  induction ts with
  | nil => exact Nat.one_pos
  | cons t ts ih =>
    rw [List.length_cons, pow_succ]
    cases t <;> simp only [flagValue] <;> omega

theorem toNat_flagByte (ts : List Token) :
    (BitVec.ofNat 8 (flagValue (ts.take 8))).toNat = flagValue (ts.take 8) := by
  have hpow : 2 ^ (ts.take 8).length ≤ 2 ^ 8 := Nat.pow_le_pow_right two_pos (List.length_take_le 8 ts)
  exact Nat.mod_eq_of_lt ((flagValue_lt _).trans_le hpow)

/-- The two bytes of a match read back as its distance and length. -/
theorem tokenBytes_copy_read {d l : Nat} (hd : 1 ≤ d) (hd' : d ≤ 4096) (hl : 3 ≤ l) (hl' : l ≤ 18) :
    ∃ u w : Byte, tokenBytes (.copy d l) = [u, w] ∧ u.toNat + 256 * (w.toNat / 16) + 1 = d ∧ w.toNat % 16 + 3 = l := by
  refine ⟨_, _, rfl, ?_, ?_⟩ <;> simp only [BitVec.toNat_ofNat] <;> omega

theorem getD_extract_zero {chunk : Array Byte} {p q : Nat} (hq : q < p) (hp : p ≤ chunk.size) :
    (chunk.extract 0 p).getD q 0 = chunk.getD q 0 := by
  simp [Array.getD, hq, Nat.min_eq_left hp, hq.trans_le hp]

theorem push_getD_extract_zero {chunk : Array Byte} {p : Nat} (hp : p < chunk.size) :
    (chunk.extract 0 p).push (chunk.getD p 0) = chunk.extract 0 (p + 1) := by
  rw [Array.extract_succ_right p.succ_pos hp]
  simp [Array.getD, hp]

theorem size_extract_zero {chunk : Array Byte} {p : Nat} (hp : p ≤ chunk.size) : (chunk.extract 0 p).size = p := by
  simp [hp]

/-- Copying a match byte by byte extends the chunk's first `p` bytes, also where it overlaps itself. -/
theorem copyMatch_extract {chunk : Array Byte} {p d l : Nat} (hd : 1 ≤ d) (hdp : d ≤ p) (hl : p + l ≤ chunk.size)
    (hrep : ∀ i < l, chunk.getD (p + i) 0 = chunk.getD (p + i - d) 0) :
    copyMatch d l (chunk.extract 0 p) = chunk.extract 0 (p + l) := by
  induction l generalizing p with
  | zero => rfl
  | succ l ih =>
    have hbyte : (chunk.extract 0 p).getD (p - d) 0 = chunk.getD p 0 := by
      rw [getD_extract_zero (by omega) (by omega)]
      exact (hrep 0 l.succ_pos).symm
    rw [copyMatch, size_extract_zero (by omega), hbyte, push_getD_extract_zero (by omega), ih (by omega) (by omega) fun i hi => ?_,
      Nat.add_right_comm, Nat.add_assoc]
    rw [show p + 1 + i = p + (i + 1) by omega]
    exact hrep (i + 1) (by omega)

section Steps
variable {raw n k flags : Nat} {input : List Byte} {out : Array Byte}

theorem expandFrom_full (h : raw ≤ out.size) :
    expandFrom raw (n + 1) k flags [] out = { output := out, fault := none } := by
  rw [expandFrom, if_pos h]
  rfl

theorem expandFrom_flag (f : Byte) (h : out.size < raw) :
    expandFrom raw (n + 1) 0 flags (f :: input) out = expandFrom raw n 8 f.toNat input out := by
  rw [expandFrom, if_neg h.not_ge, if_pos rfl]

theorem expandFrom_literal (b : Byte) (h : out.size < raw) (hf : flags % 2 = 0) :
    expandFrom raw (n + 1) (k + 1) flags (b :: input) out = expandFrom raw n k (flags / 2) input (out.push b) := by
  rw [expandFrom, if_neg h.not_ge, if_neg k.succ_ne_zero, if_pos hf]
  rfl

theorem expandFrom_copy {u w : Byte} {d l : Nat} (hu : u.toNat + 256 * (w.toNat / 16) + 1 = d) (hw : w.toNat % 16 + 3 = l)
    (hd : d ≤ out.size) (hl : out.size + l ≤ raw) (hf : flags % 2 = 1) :
    expandFrom raw (n + 1) (k + 1) flags (u :: w :: input) out
      = expandFrom raw n k (flags / 2) input (copyMatch d l out) := by
  subst hu hw
  rw [expandFrom, if_neg (by omega), if_neg k.succ_ne_zero, if_neg (by omega)]
  simp only [if_neg hd.not_gt, if_neg hl.not_gt]
  rfl

end Steps

theorem Encodes.lt_size_of_ne_nil {chunk : Array Byte} {p : Nat} {ts : List Token} (h : Encodes chunk p ts) (hne : ts ≠ []) :
    p < chunk.size := by
  cases h with
  | done => exact absurd rfl hne
  | literal hp _ => exact hp
  | copy hm _ =>
    have := hm.three_le_length
    have := hm.within
    omega

/-- Expanding the stream of tokens that encode the rest of a chunk completes the chunk, from any place inside a group. -/
theorem expandFrom_streamWithin {chunk : Array Byte} {n k p : Nat} {ts : List Token} (h : Encodes chunk p ts)
    (hn : (streamWithin k ts).length < n) :
    expandFrom chunk.size n k (flagValue (ts.take k)) (streamWithin k ts) (chunk.extract 0 p)
      = { output := chunk, fault := none } := by
  induction n generalizing k p ts with
  | zero => exact absurd hn (Nat.not_lt_zero _)
  | succ n ih =>
    rcases eq_or_ne ts [] with rfl | hne
    · cases h
      rw [streamWithin_nil, Array.extract_size, expandFrom_full le_rfl]
    have hp := h.lt_size_of_ne_nil hne
    have hsize : (chunk.extract 0 p).size = p := size_extract_zero hp.le
    cases k with
    | zero =>
      rw [streamWithin_zero, tokenStream_eq_flag_cons hne, List.length_cons] at hn
      rw [streamWithin_zero, tokenStream_eq_flag_cons hne, expandFrom_flag _ (by omega), toNat_flagByte]
      exact ih h (by omega)
    | succ k =>
      cases h with
      | done => exact absurd rfl hne
      | @literal _ ts hp rest =>
        rw [streamWithin_succ_cons, tokenBytes, List.singleton_append, List.length_cons] at hn
        rw [streamWithin_succ_cons, tokenBytes, List.singleton_append, List.take_succ_cons, flagValue,
          expandFrom_literal _ (by omega) (by omega), push_getD_extract_zero hp, Nat.mul_div_cancel_left _ two_pos]
        exact ih rest (by omega)
      | @copy _ d l ts hm rest =>
        obtain ⟨u, w, hbytes, hu, hw⟩ :=
          tokenBytes_copy_read hm.one_le_distance hm.distance_le_window hm.three_le_length hm.length_le
        have hcopied := copyMatch_extract hm.one_le_distance hm.distance_le hm.within hm.repeats
        have hdist := hm.distance_le
        have hin := hm.within
        rw [streamWithin_succ_cons, hbytes, List.cons_append, List.singleton_append, List.length_cons, List.length_cons] at hn
        rw [streamWithin_succ_cons, hbytes, List.cons_append, List.singleton_append, List.take_succ_cons, flagValue,
          expandFrom_copy hu hw (by omega) (by omega) (by omega), hcopied,
          show (1 + 2 * flagValue (ts.take k)) / 2 = flagValue (ts.take k) by omega]
        exact ih rest (by omega)

theorem expandSegment_tokenStream {data : List Byte} {ts : List Token} (h : Encodes data.toArray 0 ts) :
    expandSegment .packed data.length (tokenStream ts) = { output := data.toArray, fault := none } := by
  have hrun := expandFrom_streamWithin (k := 0) h (Nat.lt_succ_self _)
  rwa [streamWithin_zero, List.size_toArray, Array.extract_zero] at hrun

/-! ## The segment of a chunk (R62, R63) -/

theorem segment_eq (e : ChunkEntry) (data : List Byte) :
    e.segment data = (e.header .packed (tokenStream (encodeChunk data).1).length, tokenStream (encodeChunk data).1)
      ∨ e.segment data = (e.header .plain data.length, data) := by
  unfold ChunkEntry.segment guardExpansion
  split
  · exact .inl rfl
  · exact .inr rfl

theorem expandSegment_segment {e : ChunkEntry} {data : List Byte} (hraw : e.rawLength = data.length) :
    expandSegment (e.segment data).1.mode (e.segment data).1.rawLength (e.segment data).2
      = { output := data.toArray, fault := none } := by
  rcases segment_eq e data with heq | heq
  · rw [heq]
    simp only [ChunkEntry.header, hraw]
    exact expandSegment_tokenStream (encodeChunk_encodes data)
  · rw [heq]
    rfl

theorem header_congr {e e' : ChunkEntry} (hraw : e.rawLength = e'.rawLength) (htag : e.tag = e'.tag)
    (hseq : e.sequence = e'.sequence) (hcheck : e.rawCheck = e'.rawCheck) (mode : Mode) (stored : Nat) :
    e.header mode stored = e'.header mode stored := by
  simp only [ChunkEntry.header, hraw, htag, hseq, hcheck]

/-- Settles O60: the encoder's matches repeat bytes already passed, so expansion copies them from its own output; the segment
takes nothing of the entry but the four fields of its header. -/
theorem expansionReproducesChunk : Obligations.ExpansionReproducesChunk := by
  refine ⟨fun data _ _ => ⟨fun before after d l htokens => ?_, ?_, fun e hraw => ⟨expandSegment_segment hraw, rfl⟩⟩,
    fun data e e' hraw htag hseq hcheck => ?_⟩
  · have hm : IsMatch data.toArray (0 + (before.map span).sum) d l := (htokens ▸ encodeChunk_encodes data).match_at
    rw [Nat.zero_add] at hm
    exact ⟨hm.one_le_distance, hm.distance_le, hm.distance_le_window, hm.three_le_length, hm.length_le⟩
  · exact expandSegment_tokenStream (encodeChunk_encodes data)
  · simp only [ChunkEntry.segment, header_congr hraw htag hseq hcheck]

end Sys2Proof.Proofs.Compressor
end

section
/-! PROOFS. The return path's headers (R104, R113). A good frame header is four tests over its bytes
(`headerGood_iff`); the header the packer writes passes them because each of its fields reads back. A segment header's checks
are a chain of tests (`readSegmentHeader_eq`), read against the list of its faults one test at a time. -/

namespace Sys2Proof.Proofs.ReturnPath

open Sys2Proof Sys2Proof.Machine Sys2Proof.Safety Sys2Proof.Laws

/-! ## Little-endian fields -/

theorem leNat_lt (bs : List Byte) : leNat bs < 256 ^ bs.length := by
  induction bs with
  | nil => exact Nat.one_pos
  | cons b bs ih =>
    have hb : b.toNat < 256 := b.isLt
    rw [leNat, List.length_cons, pow_succ]
    omega

theorem leNat_leBytes (n v : Nat) : leNat (leBytes n v) = v % 256 ^ n := by
  induction n generalizing v with
  | zero => exact (Nat.mod_one v).symm
  | succ n ih => rw [pow_succ', Nat.mod_mul, leBytes, leNat, ih, BitVec.toNat_ofNat]

theorem leWord_word (w : Word) : leWord (word w) = w := by
  have hw : w.toNat % 256 ^ 4 = w.toNat := Nat.mod_eq_of_lt w.isLt
  rw [leWord, word, leNat_leBytes, hw, BitVec.ofNat_toNat, BitVec.setWidth_eq]

theorem fieldNat_lt (bs : List Byte) (offset size : Nat) : fieldNat bs offset size < 256 ^ size :=
  (leNat_lt _).trans_le (Nat.pow_le_pow_right (by decide) (List.length_take_le size _))

/-! ## The sum of bytes -/

theorem toNat_foldl_add (bs : List Byte) (a : Byte) :
    (bs.foldl (· + ·) a).toNat = (a.toNat + (bs.map fun b => b.toNat).sum) % 256 := by
  induction bs generalizing a with
  | nil => exact (Nat.mod_eq_of_lt a.isLt).symm
  | cons b bs ih =>
    rw [List.foldl_cons, ih, BitVec.toNat_add, List.map_cons, List.sum_cons]
    omega

theorem byteSum_eq_zero_iff (bs : List Byte) : byteSum bs = 0 ↔ (bs.map fun b => b.toNat).sum % 256 = 0 := by
  have hsum : (byteSum bs).toNat = (bs.map fun b => b.toNat).sum % 256 := by
    rw [byteSum, toNat_foldl_add]
    exact congrArg (· % 256) (Nat.zero_add _)
  rw [← BitVec.toNat_inj, hsum]
  rfl

/-- The last byte of a header makes its bytes sum to 0 (R70). -/
theorem byteSum_append_complement (bs : List Byte) : byteSum (bs ++ [0 - byteSum bs]) = 0 := by
  rw [byteSum, List.foldl_append]
  exact (add_sub_cancel (byteSum bs) 0)

/-! ## Good headers and the frames they name (R104) -/

theorem headerGood_iff (h : List Byte) :
    headerGood h = true ↔ h.take 4 = syncPattern ∧ fieldNat h 15 1 = 1 ∧ byteSum h = 0 ∧ fieldNat h 14 1 ≤ 7 := by
  simp only [headerGood, Bool.and_eq_true, decide_eq_true_eq, and_assoc]

theorem toNat_headerName_group (h : List Byte) : (headerName h).group.toNat = fieldNat h 4 4 :=
  Nat.mod_eq_of_lt (fieldNat_lt h 4 4)

theorem headerName_index_val {h : List Byte} (hi : fieldNat h 14 1 ≤ 7) : (headerName h).index.val = fieldNat h 14 1 :=
  Nat.mod_eq_of_lt (Nat.lt_succ_of_le hi)

theorem next_of_index_lt {x : FrameName} (h : x.index.val < 7) :
    x.next.group = x.group ∧ x.next.index.val = x.index.val + 1 := by
  rw [FrameName.next, if_neg h.ne]
  exact ⟨rfl, Fin.val_add_one_of_lt (Fin.lt_def.mpr h)⟩

theorem next_of_index_last {x : FrameName} (h : x.index.val = 7) :
    x.next.group = x.group + 1 ∧ x.next.index.val = 0 := by
  rw [FrameName.next, if_pos h]
  exact ⟨rfl, rfl⟩

/-- Adding the signed difference of two group numbers to the first gives the second. -/
theorem add_ofInt_toInt_sub (a b : Word) : b = a + BitVec.ofInt 32 (b - a).toInt := by
  rw [BitVec.ofInt_toInt, add_sub_cancel]

/-! ## The header the packer writes (R70) -/

section Written
variable (group check : Word) (first : Option Nat) (index : Nat) (padClosed : Bool) (fill : Nat)

theorem take_frameHeader_sync : (frameHeader group check first index padClosed fill).take 4 = syncPattern := rfl

theorem take_frameHeader_group : ((frameHeader group check first index padClosed fill).drop 4).take 4 = word group := rfl

theorem fieldNat_frameHeader_format : fieldNat (frameHeader group check first index padClosed fill) 15 1 = 1 := rfl

theorem byteSum_frameHeader : byteSum (frameHeader group check first index padClosed fill) = 0 :=
  byteSum_append_complement _

variable {index}

theorem fieldNat_frameHeader_index (hi : index ≤ 7) :
    fieldNat (frameHeader group check first index padClosed fill) 14 1 = index :=
  calc fieldNat (frameHeader group check first index padClosed fill) 14 1
      = leNat (leBytes 1 index) := rfl
    _ = index % 256 ^ 1 := leNat_leBytes 1 index
    _ = index := Nat.mod_eq_of_lt (by omega)

theorem headerGood_frameHeader (hi : index ≤ 7) :
    headerGood (frameHeader group check first index padClosed fill) = true :=
  (headerGood_iff _).mpr ⟨take_frameHeader_sync .., fieldNat_frameHeader_format .., byteSum_frameHeader ..,
    (fieldNat_frameHeader_index group check first padClosed fill hi).trans_le hi⟩

theorem headerName_frameHeader_group :
    (headerName (frameHeader group check first index padClosed fill)).group = group := by
  rw [headerName, take_frameHeader_group, leWord_word]

theorem headerName_frameHeader_index (hi : index ≤ 7) :
    (headerName (frameHeader group check first index padClosed fill)).index.val = index := by
  have hfield := fieldNat_frameHeader_index group check first padClosed fill hi
  rw [headerName_index_val (hfield.trans_le hi), hfield]

end Written

/-! ## The checks of a segment header (R113) -/

section Tests
variable {ε α : Type} {p : Prop} [Decidable p] {c : ε} {rest : List (Prop × ε)} {next : Except ε α}

/-- A test at the head of a list of faults answers its code, where the tests after it answer the first fault of the rest. -/
theorem ite_error_of_firstHolds {code : ε} (h : firstHolds code ((p, c) :: rest))
    (hrest : firstHolds code rest → next = .error code) : (if p then .error c else next) = .error code := by
  obtain ⟨hp, rfl⟩ | ⟨hp, h⟩ := h
  · exact if_pos hp
  · exact (if_neg hp).trans (hrest h)

theorem ite_error_of_noneHolds {v : α} (h : noneHolds ((p, c) :: rest)) (hrest : noneHolds rest → next = .ok v) :
    (if p then .error c else next) = .ok v :=
  (if_neg h.1).trans (hrest h.2)

end Tests

/-- Reading a segment header runs the tests of `headerFaults` in their order. -/
theorem readSegmentHeader_eq (h : List Byte) : readSegmentHeader h =
    if h.take 2 ≠ [0xA7, 0x5E] then .error .mark
    else if fieldNat h 2 1 ≠ 1 ∧ fieldNat h 2 1 ≠ 2 then .error .mode
    else if fieldNat h 4 2 < 1 ∨ 16384 < fieldNat h 4 2 then .error .length
    else if fieldNat h 6 2 < 1 ∨ fieldNat h 4 2 < fieldNat h 6 2 then .error .length
    else if fieldNat h 2 1 = 2 ∧ fieldNat h 6 2 ≠ fieldNat h 4 2 then .error .length
    else .ok (headerFields h) := by
  have outside (a b n : Nat) : ¬ (a ≤ n ∧ n ≤ b) ↔ n < a ∨ b < n := by omega
  simp only [readSegmentHeader, outside]
  rfl

theorem readSegmentHeader_of_firstHolds {h : List Byte} {reason : SegmentFaultReason}
    (hfirst : firstHolds reason (headerFaults h)) : readSegmentHeader h = .error reason := by
  rw [readSegmentHeader_eq]
  exact ite_error_of_firstHolds hfirst fun hmode => ite_error_of_firstHolds hmode fun hraw =>
    ite_error_of_firstHolds hraw fun hstored => ite_error_of_firstHolds hstored fun hplain =>
    ite_error_of_firstHolds hplain False.elim

theorem readSegmentHeader_of_noneHolds {h : List Byte} (hnone : noneHolds (headerFaults h)) :
    readSegmentHeader h = .ok (headerFields h) := by
  rw [readSegmentHeader_eq]
  exact ite_error_of_noneHolds hnone fun hmode => ite_error_of_noneHolds hmode fun hraw =>
    ite_error_of_noneHolds hraw fun hstored => ite_error_of_noneHolds hstored fun hplain =>
    ite_error_of_noneHolds hplain fun _ => rfl

/-- Settles O43: the sum test is the byte sum read as a number, the distance's `g` is the signed difference of the group
numbers, and each field of the header the packer writes reads back. -/
theorem headerJudged : Obligations.HeaderJudged := by
  refine ⟨fun h _ => ⟨?_, fun hgood => ?_⟩, fun x => ⟨next_of_index_lt, next_of_index_last⟩, fun x y => ?_,
    fun h _ => ⟨fun reason => readSegmentHeader_of_firstHolds, readSegmentHeader_of_noneHolds⟩,
    fun group check first index padClosed fill hi => ?_⟩
  · rw [headerGood_iff, byteSum_eq_zero_iff, syncPattern]
  · obtain ⟨-, -, -, hindex⟩ := (headerGood_iff h).mp hgood
    exact ⟨toNat_headerName_group h, headerName_index_val hindex⟩
  · exact ⟨(y.group - x.group).toInt, BitVec.le_toInt _, Int.le_sub_one_of_lt BitVec.toInt_lt,
      add_ofInt_toInt_sub _ _, rfl, decide_eq_true_iff⟩
  · exact ⟨frameHeader_length .., headerGood_frameHeader group check first padClosed fill hi,
      headerName_frameHeader_group .., headerName_frameHeader_index group check first padClosed fill hi⟩

end Sys2Proof.Proofs.ReturnPath
end

section
/-! PROOFS. Staging memory stays canonical. -/
namespace Sys2Proof.Proofs.Canonical
open Sys2Proof Sys2Proof.Machine Sys2Proof.Safety Sys2Proof.Laws

variable {s : State}

/-! ## What leaves memory alone -/

theorem foldl_mem {α : Type} (f : State → α → State) (hf : ∀ s x, (f s x).mem = s.mem) (xs : List α) (s : State) :
    (xs.foldl f s).mem = s.mem := by
  induction xs generalizing s with
  | nil => rfl
  | cons x xs ih => exact (ih _).trans (hf s x)

@[simp] theorem fillBuffer_mem (i : StreamId) (b : Fin 2) (o : Bool) (bs : List Byte) : (fillBuffer i b o bs s).mem = s.mem := rfl
@[simp] theorem streamClosing_mem (i : StreamId) : (streamClosing i s).mem = s.mem := rfl
@[simp] theorem closeChunk_mem (i : StreamId) (b : Fin 2) : (closeChunk i b s).mem = s.mem := by
  unfold closeChunk
  split
  · rfl
  · dsimp only; split <;> rfl
theorem placeBytes_mem (i : StreamId) (n : Nat) (bs : List Byte) : (placeBytes i n bs s).1.mem = s.mem := by
  induction n generalizing bs s with
  | zero => rfl
  | succ n ih =>
    unfold placeBytes
    split
    · rfl
    · split
      · rfl
      next b opens _ =>
        dsimp only
        generalize 16384 - (if opens then 0 else s.streams[i].buffers[b].data.length) = room
        split
        · rfl
        · exact (ih _).trans (closeChunk_mem i b)
@[simp] theorem giveUpBuffer_mem (i : StreamId) (stop : Bool) (b : Fin 2) : (giveUpBuffer i stop s b).mem = s.mem := by
  unfold giveUpBuffer
  split
  case h_6 => split <;> rfl
  all_goals rfl
@[simp] theorem giveUpStream_mem (i : StreamId) (stop : Bool) : (giveUpStream i stop s).mem = s.mem :=
  foldl_mem _ (fun _ _ => giveUpBuffer_mem ..) _ s
theorem freeStream_mem (i : StreamId) : (freeStream i s).mem = s.mem := by
  unfold freeStream
  rw [setStreamAperture_mem, modStream_mem, giveUpStream_mem]
@[simp] theorem bindStream_mem (i : StreamId) (k : SlotId) : (bindStream i k s).mem = s.mem := rfl
@[simp] theorem endClaim_mem (n : LaneId) : (endClaim n s).mem = s.mem := by
  unfold endClaim; split <;> rfl
@[simp] theorem leaveCatalog_mem (n : LaneId) : (leaveCatalog n s).mem = s.mem := endClaim_mem n
@[simp] theorem laneIdle_mem (n : LaneId) : (laneIdle n s).mem = s.mem := leaveCatalog_mem n
@[simp] theorem idleTest_mem (n : LaneId) : (idleTest n s).mem = s.mem := by
  unfold idleTest; split
  · exact laneIdle_mem n
  · rfl
@[simp] theorem closeGroup_mem (n : LaneId) (c : CloseReason) : (closeGroup n c s).mem = s.mem := by
  unfold closeGroup; split
  · rfl
  · exact post_mem ..
@[simp] theorem recomputeConsumed_mem (n : LaneId) : (recomputeConsumed n s).mem = s.mem := by
  unfold recomputeConsumed; dsimp only; split <;> rfl
@[simp] theorem settleUnchecked_mem (n : LaneId) : (settleUnchecked n s).mem = s.mem := by
  unfold settleUnchecked; split <;> rfl
@[simp] theorem stopFramer_mem (n : LaneId) : (stopFramer n s).mem = s.mem := by
  unfold stopFramer; split
  · simp
  · rfl
@[simp] theorem unbindFramer_mem (n : LaneId) : (unbindFramer n s).mem = s.mem := by
  unfold unbindFramer; dsimp only; split
  · split <;> rfl
  · rfl
@[simp] theorem signalUnbind_mem (n : LaneId) : (signalUnbind n s).mem = s.mem := by
  unfold signalUnbind; split
  · rfl
  · exact unbindFramer_mem n
@[simp] theorem dueCheck_mem (k : SlotId) : (dueCheck k s).mem = s.mem := by
  unfold dueCheck; split <;> rfl
theorem cutOffJob_mem (k : SlotId) : (cutOffJob s k).mem = s.mem := by
  unfold cutOffJob
  simp only [modJob_mem, streamClosing_mem, giveUpStream_mem]
@[simp] theorem raiseWritten_mem (n : LaneId) : (raiseWritten n s).mem = s.mem := by
  unfold raiseWritten; split <;> rfl

/-! ## Lane Units and the Job Table -/

theorem ite_canonical {c : Prop} [Decidable c] {t u : State} (ht : memoryCanonical t) (hu : memoryCanonical u) :
    memoryCanonical (if c then t else u) := by
  split
  · exact ht
  · exact hu

theorem canonical_of_mem_eq {t : State} (e : t.mem = s.mem) (h : memoryCanonical s) : memoryCanonical t := by
  unfold memoryCanonical; rw [e]; exact h

theorem writePayload_canonical (n : LaneId) (bs : List Byte) (h : memoryCanonical s) :
    memoryCanonical (writePayload n bs s) := by
  unfold writePayload
  split
  · exact h
  · exact store_wf s _ _ h

theorem completeFrame_canonical (n : LaneId) (pad : Bool) (fill : Nat) (h : memoryCanonical s) :
    memoryCanonical (completeFrame n pad fill s) := by
  unfold completeFrame
  split
  · exact h
  · dsimp only
    split <;> exact store_wf s _ _ h

theorem fillFrame_canonical (n : LaneId) (pad : Bool) (h : memoryCanonical s) : memoryCanonical (fillFrame n pad s) := by
  unfold fillFrame
  split
  · exact h
  · exact completeFrame_canonical n _ _ (writePayload_canonical n _ h)

theorem fillFrames_canonical (n : LaneId) (k : Nat) (h : memoryCanonical s) : memoryCanonical (fillFrames n k s) := by
  induction k generalizing s with
  | zero => exact h
  | succ k ih => exact ih (fillFrame_canonical n true h)

theorem padClose_canonical (n : LaneId) (c : CloseReason) (h : memoryCanonical s) : memoryCanonical (padClose n c s) := by
  unfold padClose
  split
  · exact h
  · exact canonical_of_mem_eq (closeGroup_mem n c) (fillFrames_canonical n _ h)

theorem closeOrPend_canonical (n : LaneId) (c : CloseReason) (h : memoryCanonical s) :
    memoryCanonical (closeOrPend n c s) := by
  unfold closeOrPend
  split
  · exact h
  · split
    · exact h
    · exact padClose_canonical n c h

theorem flushTest_canonical (n : LaneId) (h : memoryCanonical s) : memoryCanonical (flushTest n s) := by
  unfold flushTest
  split
  · exact padClose_canonical n _ h
  · exact h

theorem takeLaneSignal_canonical (n : LaneId) (x : LaneSignal) (h : memoryCanonical s) :
    memoryCanonical (takeLaneSignal n x s) := by
  cases x with
  | flushTest => exact flushTest_canonical n h
  | idleTest => exact canonical_of_mem_eq (idleTest_mem n) h

theorem laneSignal_canonical (n : LaneId) (x : LaneSignal) (h : memoryCanonical s) :
    memoryCanonical (laneSignal n x s) := by
  unfold laneSignal
  split
  · exact h
  · exact takeLaneSignal_canonical n x h

theorem ageClose_canonical (n : LaneId) (h : memoryCanonical s) : memoryCanonical (ageClose n s) := by
  unfold ageClose
  split
  · exact closeOrPend_canonical n _ h
  · exact h

theorem freeSlot_canonical (k : SlotId) (h : memoryCanonical s) : memoryCanonical (freeSlot k s) := by
  unfold freeSlot
  dsimp only
  split
  · exact laneSignal_canonical _ _ (canonical_of_mem_eq (freeStream_mem _) h)
  all_goals exact canonical_of_mem_eq ((signalUnbind_mem _).trans (laneIdle_mem _)) h

theorem endJob_canonical (k : SlotId) (o : JobOutcome) (h : memoryCanonical s) : memoryCanonical (endJob k o s) := by
  have hp := canonical_of_mem_eq (post_mem .jobTable (.jobDone k s.jt.jobs[k].record o) s) h
  unfold endJob
  dsimp only
  split
  · exact freeSlot_canonical k hp
  · exact hp

theorem takeFlushTest_canonical (k : SlotId) (h : memoryCanonical s) : memoryCanonical (takeFlushTest k s).1 := by
  unfold takeFlushTest
  dsimp only
  split
  · exact laneSignal_canonical _ _ h
  · exact h

theorem takeJobSignal_canonical (x : JobSignal) (h : memoryCanonical s) : memoryCanonical (takeJobSignal x s).1 := by
  cases x with
  | flushTest k => exact takeFlushTest_canonical k h
  | released n g => exact h
  | fullSet n => exact canonical_of_mem_eq (foldl_mem _ (fun _ _ => cutOffJob_mem _) _ s) h
  | endCondition k =>
    rw [takeJobSignal]
    split
    · exact canonical_of_mem_eq (dueCheck_mem k) h
    · exact h
  | evaluationDone k => exact h
  | ending k o =>
    rw [takeJobSignal]
    dsimp only
    split
    · exact endJob_canonical k o h
    · exact h

theorem takeJobSignals_canonical (m : Nat) (h : memoryCanonical s) : memoryCanonical (takeJobSignals m s) := by
  induction m generalizing s with
  | zero => exact h
  | succ m ih =>
    unfold takeJobSignals
    split
    · exact h
    · split
      · exact h
      · exact ih (takeJobSignal_canonical _ h)

theorem jobSignals_canonical (xs : List JobSignal) (h : memoryCanonical s) : memoryCanonical (jobSignals xs s) :=
  takeJobSignals_canonical _ h

theorem bufferChanged_canonical (i : StreamId) (h : memoryCanonical s) : memoryCanonical (bufferChanged i s) := by
  unfold bufferChanged
  dsimp only
  split
  · exact h
  · exact jobSignals_canonical _ h

theorem jobDoneJoined_canonical (h : memoryCanonical s) : memoryCanonical (jobDoneJoined s) := by
  unfold jobDoneJoined
  dsimp only
  split
  · exact takeJobSignals_canonical _ h
  · exact takeJobSignals_canonical _ (freeSlot_canonical _ h)

/-! ## The Compressor and the packer -/

theorem compressorTake_canonical (h : memoryCanonical s) : memoryCanonical (compressorTake s) := by
  unfold compressorTake
  split
  · exact bufferChanged_canonical _ h
  · exact h

theorem compressionComplete_canonical (h : memoryCanonical s) : memoryCanonical (compressionComplete s) := by
  unfold compressionComplete
  split
  · exact h
  · dsimp only
    split <;> exact bufferChanged_canonical _ h

theorem setFull_canonical (n : LaneId) (h : memoryCanonical s) : memoryCanonical (setFull n s) :=
  jobSignals_canonical _ (canonical_of_mem_eq (leaveCatalog_mem n) h)

theorem fullClose_canonical (n : LaneId) (h : memoryCanonical s) : memoryCanonical (fullClose n s) := by
  have hc := canonical_of_mem_eq (closeGroup_mem n .full) h
  unfold fullClose
  dsimp only
  split
  · split
    · exact setFull_canonical n hc
    · exact hc
  · exact hc

theorem startCopying_canonical (n : LaneId) (h : memoryCanonical s) : memoryCanonical (startCopying n s) := by
  unfold startCopying
  dsimp only
  split <;> exact h

theorem headerNotSplit_canonical (n : LaneId) (h : memoryCanonical s) : memoryCanonical (headerNotSplit n s) := by
  unfold headerNotSplit
  split
  · exact h
  · split
    · exact h
    · dsimp only
      split
      · exact fullClose_canonical n (fillFrame_canonical n _ h)
      · exact fillFrame_canonical n _ h

theorem catalogAppend_canonical (n : LaneId) (r : List Byte) (h : memoryCanonical s) :
    memoryCanonical (catalogAppend n r s) := by
  unfold catalogAppend
  split
  · exact h
  · exact store_wf s _ _ h

theorem beginSegment_canonical (n : LaneId) (e : ChunkEntry) (x : SegmentHeader) (h : memoryCanonical s) :
    memoryCanonical (beginSegment n e x s) := by
  unfold beginSegment
  dsimp only
  split
  · exact headerNotSplit_canonical n (bufferChanged_canonical _ (catalogAppend_canonical n _ h))
  · exact startCopying_canonical n (headerNotSplit_canonical n (bufferChanged_canonical _ (catalogAppend_canonical n _ h)))

theorem packerBeginSegment_canonical (n : LaneId) (now : Nat) (h : memoryCanonical s) :
    memoryCanonical (packerBeginSegment n now s) := by
  unfold packerBeginSegment
  dsimp only
  split
  · split
    · exact canonical_of_mem_eq (endClaim_mem n) h
    · split
      · exact setFull_canonical n (padClose_canonical n _ h)
      · split
        · exact h
        · split
          · exact beginSegment_canonical n _ _ h
          · split <;> exact h
  · exact h

theorem continueSegment_canonical (n : LaneId) (h : memoryCanonical s) : memoryCanonical (continueSegment n s) := by
  unfold continueSegment
  split
  · exact h
  · split <;> exact h

theorem frameComplete_canonical (n : LaneId) (now : Nat) (h : memoryCanonical s) :
    memoryCanonical (frameComplete n now s) := by
  unfold frameComplete
  split
  · dsimp only
    split
    · split
      · exact continueSegment_canonical n (fullClose_canonical n (completeFrame_canonical n _ _ (writePayload_canonical n _ h)))
      · exact completeFrame_canonical n _ _ (writePayload_canonical n _ h)
    · exact h
  · exact h

theorem applyPending_canonical (n : LaneId) (h : memoryCanonical s) : memoryCanonical (applyPending n s) := by
  unfold applyPending
  split
  · exact h
  · dsimp only
    split
    · exact padClose_canonical n _ h
    · exact h

theorem segmentPacked_canonical (n : LaneId) (h : memoryCanonical s) : memoryCanonical (segmentPacked n s) := by
  unfold segmentPacked
  split
  · exact h
  · split
    · exact bufferChanged_canonical _ (applyPending_canonical n (writePayload_canonical n _ h))
    · exact h

theorem starveTest_canonical (n : LaneId) (h : memoryCanonical s) : memoryCanonical (starveTest n s) := by
  unfold starveTest
  dsimp only
  split
  · exact h
  · split
    · exact closeOrPend_canonical n _ h
    · exact h

/-- What a release does after the Job Table has its signal keeps memory canonical. -/
theorem releaseEnd_canonical (n : LaneId) {u : State} (h : memoryCanonical u) : memoryCanonical (
    if u.lanes[n].role = .write then idleTest n (starveTest n (u.modLane n fun l => l.drainTiming u.timebase)) else u) := by
  split
  · exact canonical_of_mem_eq (idleTest_mem n) (starveTest_canonical n h)
  · exact h

theorem releaseGroup_canonical (n : LaneId) (k : Nat) (g : Word) (h : memoryCanonical s) :
    memoryCanonical (releaseGroup n k g s) := by
  have hr : memoryCanonical (jobSignals [.released n g] (settleLane n g (raiseWritten n (s.modLane n fun l => l.setSlot k (.drained g))))) :=
    jobSignals_canonical _ (catalogSweep_wf _ _ (canonical_of_mem_eq (raiseWritten_mem n) h))
  exact releaseEnd_canonical n hr

theorem takeFinalByte_canonical (n : LaneId) (k : Nat) (h : memoryCanonical s) : memoryCanonical (takeFinalByte n k s) := by
  unfold takeFinalByte
  dsimp only
  split
  · split
    · exact releaseGroup_canonical n k _ h
    · exact h
  all_goals exact h

theorem finalByteSignal_canonical (n : LaneId) (k : Nat) (h : memoryCanonical s) :
    memoryCanonical (finalByteSignal n k s) := by
  unfold finalByteSignal
  split
  · exact h
  · exact takeFinalByte_canonical n k h

theorem takeHeldReads_canonical (n : LaneId) (m : Nat) (h : memoryCanonical s) : memoryCanonical (takeHeldReads n m s) := by
  induction m generalizing s with
  | zero => exact h
  | succ m ih =>
    unfold takeHeldReads
    split
    · exact h
    · split
      · exact h
      · exact ih (takeFinalByte_canonical n _ h)

theorem takeHeldSignals_canonical (n : LaneId) (m : Nat) (h : memoryCanonical s) :
    memoryCanonical (takeHeldSignals n m s) := by
  induction m generalizing s with
  | zero => exact h
  | succ m ih =>
    unfold takeHeldSignals
    split
    · exact h
    · split
      · exact h
      · exact ih (takeLaneSignal_canonical n _ h)

theorem resumePacker_canonical (n : LaneId) (h : memoryCanonical s) : memoryCanonical (resumePacker n s) := by
  unfold resumePacker
  split
  · exact h
  · split
    · exact startCopying_canonical n h
    · exact continueSegment_canonical n h

theorem laneJoined_canonical (n : LaneId) (h : memoryCanonical s) : memoryCanonical (laneJoined n s) :=
  takeHeldSignals_canonical n _ (takeHeldReads_canonical n _ (resumePacker_canonical n h))

/-! ## The Return Framers -/

theorem framerCount_canonical (n : LaneId) (f : Counters → Counters) (h : memoryCanonical s) :
    memoryCanonical (framerCount n f s) := by
  unfold framerCount
  split
  · exact h
  · split <;> exact h

theorem framerPost_canonical (n : LaneId) (r : Report) (h : memoryCanonical s) : memoryCanonical (framerPost n r s) := by
  refine canonical_of_mem_eq ?_ h
  unfold framerPost
  rw [post_mem]
  split
  · rfl
  · exact recomputeConsumed_mem n

theorem loseLock_canonical (n : LaneId) (reason : LostReason) (x : Word) (h : memoryCanonical s) :
    memoryCanonical (loseLock n reason x s) := by
  refine canonical_of_mem_eq ?_ h
  unfold loseLock
  dsimp only
  split <;> simp

theorem endTaking_canonical (n : LaneId) (h : memoryCanonical s) : memoryCanonical (endTaking n s) := by
  unfold endTaking
  split
  · exact h
  · exact jobSignals_canonical _ (canonical_of_mem_eq (stopFramer_mem n) h)

theorem framerSettle_canonical (n : LaneId) (h : memoryCanonical s) : memoryCanonical (framerSettle n s) := by
  have hr (t : State) (ht : memoryCanonical t) : memoryCanonical
      (if (recomputeConsumed n t).verifyEnded n then endTaking n (recomputeConsumed n t) else recomputeConsumed n t) := by
    have hc := canonical_of_mem_eq (recomputeConsumed_mem n) ht
    split
    · exact endTaking_canonical n hc
    · exact hc
  unfold framerSettle
  split
  · exact h
  · dsimp only
    by_cases hp : s.framers[n].phase = .stopped
    · rw [if_pos hp]; exact hr _ h
    · rw [if_neg hp]; exact hr _ h

theorem syncSearchTest_canonical (n : LaneId) (h : memoryCanonical s) : memoryCanonical (syncSearchTest n s) := by
  unfold syncSearchTest
  split
  · dsimp only
    split
    · exact h
    · exact framerSettle_canonical n h
  · exact h

theorem gainLock_canonical (n : LaneId) (x : FrameName) (h : memoryCanonical s) : memoryCanonical (gainLock n x s) :=
  framerSettle_canonical n (framerPost_canonical n _ h)

theorem syncConfirm_canonical (n : LaneId) (h : memoryCanonical s) : memoryCanonical (syncConfirm n s) := by
  unfold syncConfirm
  dsimp only
  split
  · split
    · split
      · split
        · exact h
        · exact framerSettle_canonical n h
      · exact h
    · split
      · split
        · exact gainLock_canonical n _ h
        · exact framerSettle_canonical n h
      · exact h
    · exact h
  · exact h

theorem groupFrame_canonical (n : LaneId) (x : FrameName) (slip : Bool) (bs : List Byte) (h : memoryCanonical s) :
    memoryCanonical (groupFrame n x slip bs s) := by
  rw [groupFrame_eq]; exact h

theorem settleGroup_canonical (n : LaneId) (w : FrameWork) (h : memoryCanonical s) : memoryCanonical (settleGroup n w s) := by
  unfold settleGroup
  dsimp only
  split
  · exact h
  · split
    · split
      · exact canonical_of_mem_eq (settleUnchecked_mem n) h
      · split
        · exact h
        · exact framerPost_canonical n _ (framerCount_canonical n _ h)
    · exact h

theorem finishFrame_canonical (n : LaneId) (w : FrameWork) (lost : Bool) (h : memoryCanonical s) :
    memoryCanonical (finishFrame n w lost s) := by
  unfold finishFrame
  split
  · exact loseLock_canonical n _ _ h
  · exact h

theorem segmentFault_canonical (n : LaneId) (w : FrameWork) (reason : SegmentFaultReason) (x : Word) (name : FrameName)
    (h : memoryCanonical s) : memoryCanonical (segmentFault n w reason x name s) :=
  framerPost_canonical n _ h

theorem readHeader_canonical (n : LaneId) (w : FrameWork) (h : memoryCanonical s) : memoryCanonical (readHeader n w s) := by
  unfold readHeader
  dsimp only
  split
  · exact segmentFault_canonical n _ _ _ _ h
  · split
    · exact endTaking_canonical n h
    · exact h

theorem joinQueue_canonical (n : LaneId) (a : Assembly) (h : memoryCanonical s) : memoryCanonical (joinQueue n a s) := by
  unfold joinQueue
  split <;> exact h

theorem completeSegment_canonical (n : LaneId) (w : FrameWork) (a : Assembly) (h : memoryCanonical s) :
    memoryCanonical (completeSegment n w a s) := by
  unfold completeSegment
  dsimp only
  split
  · exact h
  · split
    · split
      · exact endTaking_canonical n (joinQueue_canonical n a h)
      · exact joinQueue_canonical n a h
    · exact h

theorem gather_canonical (n : LaneId) (w : FrameWork) (a : Assembly) (h : memoryCanonical s) :
    memoryCanonical (gather n w a s) := by
  unfold gather
  dsimp only
  split
  · exact completeSegment_canonical n _ _ h
  · split
    · exact h
    · exact segmentFault_canonical n _ _ _ _ h

theorem assemblerStep_canonical (n : LaneId) (w : FrameWork) (h : memoryCanonical s) :
    memoryCanonical (assemblerStep n w s) := by
  unfold assemblerStep
  split
  · split <;> exact h
  · split
    · exact h
    · split <;> exact h
  · split
    · exact h
    · split
      · exact readHeader_canonical n w h
      · exact segmentFault_canonical n _ _ _ _ h
  · exact gather_canonical n w _ h
  · exact h

theorem runFrame_canonical (n : LaneId) (m : Nat) (h : memoryCanonical s) : memoryCanonical (runFrame n m s) := by
  induction m generalizing s with
  | zero => exact h
  | succ m ih =>
    unfold runFrame
    split
    · exact h
    · split
      · exact h
      · split
        · exact endTaking_canonical n h
        · split
          · exact ih (assemblerStep_canonical n _ h)
          · exact ih (settleGroup_canonical n _ h)
          · exact finishFrame_canonical n _ _ h

theorem continueFrame_canonical (n : LaneId) (h : memoryCanonical s) : memoryCanonical (continueFrame n s) :=
  framerSettle_canonical n (runFrame_canonical n _ h)

theorem acceptFrame_canonical (n : LaneId) (bs : List Byte) (slip : Option Nat) (h : memoryCanonical s) :
    memoryCanonical (acceptFrame n bs slip s) := by
  unfold acceptFrame
  refine continueFrame_canonical n (groupFrame_canonical n _ _ _ ?_)
  cases slip with
  | none => exact h
  | some d => exact framerCount_canonical n _ h

theorem missFrame_canonical (n : LaneId) (h : memoryCanonical s) : memoryCanonical (missFrame n s) := by
  have hc := framerCount_canonical n (fun c => { c with framesMissed := satInc c.framesMissed }) h
  unfold missFrame
  dsimp only
  split
  · exact framerSettle_canonical n (loseLock_canonical n _ _ hc)
  · exact framerSettle_canonical n hc

theorem frameTake_canonical (n : LaneId) (h : memoryCanonical s) : memoryCanonical (frameTake n s) := by
  unfold frameTake
  dsimp only
  split
  · split
    · exact h
    · split
      · exact missFrame_canonical n h
      · split
        · exact acceptFrame_canonical n _ _ h
        · split
          · exact acceptFrame_canonical n _ _ h
          · exact framerSettle_canonical n h
  · exact h

theorem resyncFramer_canonical (n : LaneId) (h : memoryCanonical s) : memoryCanonical (resyncFramer n s) := by
  unfold resyncFramer
  split
  · split
    · exact framerSettle_canonical n (loseLock_canonical n _ _ h)
    · exact framerSettle_canonical n (canonical_of_mem_eq (settleUnchecked_mem n) h)
  · exact h

theorem takeAdmitted_canonical (n : LaneId) (h : memoryCanonical s) : memoryCanonical (takeAdmitted n s) := by
  unfold takeAdmitted
  split
  · dsimp only
    split
    · exact framerSettle_canonical n (endTaking_canonical n h)
    · exact continueFrame_canonical n h
  · exact h

theorem takeFramerSignal_canonical (n : LaneId) (x : FramerSignal) (h : memoryCanonical s) :
    memoryCanonical (takeFramerSignal n x s) := by
  cases x with
  | admitted => exact takeAdmitted_canonical n h
  | unbind => exact canonical_of_mem_eq (unbindFramer_mem n) h

theorem framerSignal_canonical (n : LaneId) (x : FramerSignal) (h : memoryCanonical s) :
    memoryCanonical (framerSignal n x s) := by
  unfold framerSignal
  split
  · exact h
  · exact takeFramerSignal_canonical n x h

theorem takeFramerSignals_canonical (n : LaneId) (m : Nat) (h : memoryCanonical s) :
    memoryCanonical (takeFramerSignals n m s) := by
  induction m generalizing s with
  | zero => exact h
  | succ m ih =>
    unfold takeFramerSignals
    split
    · exact h
    · split
      · exact h
      · exact ih (takeFramerSignal_canonical n _ h)

theorem framerJoined_canonical (n : LaneId) (h : memoryCanonical s) : memoryCanonical (framerJoined n s) := by
  have hj (t : State) (ht : memoryCanonical t) : memoryCanonical (if t.waiting (.framer n) then t
      else takeFramerSignals n (continueFrame n t).framers[n].held.length (continueFrame n t)) := by
    split
    · exact ht
    · exact takeFramerSignals_canonical n _ (continueFrame_canonical n ht)
  unfold framerJoined
  cases s.framers[n].pendingOverrun with
  | none => exact hj _ h
  | some r => exact hj _ (canonical_of_mem_eq (post_mem ..) h)

theorem ringOverrun_canonical (n : LaneId) (r : Report) (h : memoryCanonical s) : memoryCanonical (ringOverrun n r s) := by
  unfold ringOverrun
  split
  · exact h
  · exact canonical_of_mem_eq (post_mem ..) h

/-! ## The Decode Engine -/

theorem admitHolding_canonical (m : Nat) (h : memoryCanonical s) : memoryCanonical (admitHolding m s).1 := by
  induction m generalizing s with
  | zero => exact h
  | succ m ih =>
    unfold admitHolding
    split
    · exact h
    · next n rest _ =>
      split
      · refine ih ?_
        dsimp only
        split
        · exact joinQueue_canonical n _ h
        · exact h
      · exact h

theorem foldl_canonical {α : Type} (f : State → α → State) (hf : ∀ s x, memoryCanonical s → memoryCanonical (f s x))
    (xs : List α) (h : memoryCanonical s) : memoryCanonical (xs.foldl f s) := by
  induction xs generalizing s with
  | nil => exact h
  | cons x xs ih => exact ih (hf _ _ h)

theorem freedPlaces_canonical (h : memoryCanonical s) : memoryCanonical (freedPlaces s) :=
  foldl_canonical _ (fun _ _ => framerSignal_canonical _ _) _ (admitHolding_canonical _ h)

theorem decodeTake_canonical (h : memoryCanonical s) : memoryCanonical (decodeTake s) := by
  unfold decodeTake
  split
  · exact freedPlaces_canonical h
  · exact h

theorem finishDecode_canonical (k : SlotId) (h : memoryCanonical s) : memoryCanonical (finishDecode k s) :=
  canonical_of_mem_eq (dueCheck_mem k) h

theorem countDecode_canonical (e : DecodeEntry) (r : DecodeResult) (h : memoryCanonical s) :
    memoryCanonical (countDecode e r s) := by
  unfold countDecode
  dsimp only
  split <;> exact h

theorem expansionComplete_canonical (h : memoryCanonical s) : memoryCanonical (expansionComplete s) := by
  unfold expansionComplete
  split
  · split
    · exact h
    · dsimp only
      apply ite_canonical
      · apply finishDecode_canonical
        apply ite_canonical
        · apply framerSettle_canonical
          exact ite_canonical h (countDecode_canonical _ _ h)
        · exact ite_canonical h (countDecode_canonical _ _ h)
      · apply ite_canonical
        · apply framerSettle_canonical
          exact ite_canonical h (countDecode_canonical _ _ h)
        · exact ite_canonical h (countDecode_canonical _ _ h)
  · exact h

theorem catalogSighting_canonical (label : Option Label) (x : FrameName) (o : Nat) (good : Bool) (c : Word)
    (h : memoryCanonical s) : memoryCanonical (catalogSighting label x o good c s).1 := by
  unfold catalogSighting
  split
  · exact h
  · split
    · exact h
    · split <;> exact memWrite_wf _ _ _ h

theorem sighting_canonical (h : memoryCanonical s) : memoryCanonical (sighting s) := by
  unfold sighting
  split
  · split
    · exact h
    · split
      · exact finishDecode_canonical _ (catalogSighting_canonical _ _ _ _ _ h)
      · exact h
  · exact h

theorem evaluationDone_canonical (k : SlotId) (h : memoryCanonical s) : memoryCanonical (evaluationDone k s) :=
  jobSignals_canonical _ h

theorem verifyEvaluation_canonical (k : SlotId) (h : memoryCanonical s) : memoryCanonical (verifyEvaluation k s) :=
  evaluationDone_canonical k (catalogSweep_wf _ s h)

theorem writeEntry_canonical (k : SlotId) (d bs : List Byte) (h : memoryCanonical s) : memoryCanonical (writeEntry k d bs s) := by
  refine canonical_of_mem_eq (modRestore_mem ..) ?_
  exact ringWrite_wf _ d _ _ (ringWrite_wf _ bs _ _ h)

theorem writeMissing_canonical (k : SlotId) (m : Nat) (h : memoryCanonical s) : memoryCanonical (writeMissing k m s) := by
  unfold writeMissing
  exact canonical_of_mem_eq ((modRestore_mem ..).trans (modCounters_mem ..)) (writeEntry_canonical k _ [] h)

theorem writeOwn_canonical (e : DecodeEntry) (good : Bool) (h : memoryCanonical s) : memoryCanonical (writeOwn e good s) := by
  unfold writeOwn
  dsimp only
  refine canonical_of_mem_eq (modRestore_mem ..) ?_
  split
  · exact canonical_of_mem_eq (modCounters_mem ..) (writeEntry_canonical _ _ _ h)
  · exact writeEntry_canonical _ _ _ h

theorem settleRestore_canonical (d : Decode) (r : DecodeResult) (h : memoryCanonical s) :
    memoryCanonical (settleRestore d r s) := by
  unfold settleRestore
  dsimp only
  refine ite_canonical (finishDecode_canonical _ h) (ite_canonical h (ite_canonical (ite_canonical ?_ ?_)
    (ite_canonical (finishDecode_canonical _ (writeOwn_canonical _ _ h)) (finishDecode_canonical _ h))))
  · exact finishDecode_canonical _ (writeMissing_canonical _ _ h)
  · exact writeMissing_canonical _ _ h

theorem trailingMissing_canonical (k : SlotId) (m : Nat) (h : memoryCanonical s) : memoryCanonical (trailingMissing k m s) := by
  induction m generalizing s with
  | zero => exact h
  | succ m ih =>
    have hm := writeMissing_canonical k (s.jt.jobs[k].record.lastChunk.toNat + 1) h
    unfold trailingMissing
    exact ite_canonical (evaluationDone_canonical k h)
      (ite_canonical h (ite_canonical (evaluationDone_canonical k hm) (ih hm)))

theorem restoreEntryWrite_canonical (h : memoryCanonical s) : memoryCanonical (restoreEntryWrite s) := by
  unfold restoreEntryWrite
  split
  · split
    · exact h
    · exact ite_canonical (settleRestore_canonical _ _ h) h
  · exact trailingMissing_canonical _ _ h
  · exact h

theorem endEvaluation_canonical (h : memoryCanonical s) : memoryCanonical (endEvaluation s) := by
  unfold endEvaluation
  split
  · dsimp only
    split
    · exact verifyEvaluation_canonical _ h
    · exact trailingMissing_canonical _ _ h
  · exact h

theorem restoreConsumerTake_canonical (k : SlotId) (h : memoryCanonical s) : memoryCanonical (restoreConsumerTake k s) := by
  unfold restoreConsumerTake
  exact ite_canonical (ite_canonical h h) h

theorem abortReading_canonical (k : SlotId) (h : memoryCanonical s) : memoryCanonical (abortReading k s) :=
  freedPlaces_canonical (framerSettle_canonical _ (canonical_of_mem_eq (stopFramer_mem _) h))

theorem resetReading_canonical (n : LaneId) (h : memoryCanonical s) : memoryCanonical (resetReading n s) :=
  freedPlaces_canonical (canonical_of_mem_eq (unbindFramer_mem n) h)

/-! ## The Cartridge Directory and the Loader Controller write no memory -/

section Unwritten
variable (s)

@[simp] theorem vacate_mem (p : PlaceId) (x : PlaceState) : (vacate p x s).mem = s.mem := by unfold vacate; split <;> rfl
@[simp] theorem newCartridge_mem (p : PlaceId) (l : Option Label) : (newCartridge p l s).mem = s.mem := by
  unfold newCartridge; split <;> rfl
@[simp] theorem moveCartridge_mem (p q : PlaceId) (f : CartRecord → CartRecord) : (moveCartridge p q f s).mem = s.mem := by
  unfold moveCartridge; split <;> rfl
@[simp] theorem sensePicker_mem : (sensePicker s).mem = s.mem := by
  unfold sensePicker; split <;> split <;> simp
@[simp] theorem setDoor_mem (d : Door) (x : DoorState) : (s.setDoor d x).mem = s.mem := by cases d <;> rfl
@[simp] theorem openDoor_mem (d : Door) : (openDoor d s).mem = s.mem :=
  (foldl_mem _ (fun _ _ => vacate_mem ..) _ _).trans (setDoor_mem ..)
@[simp] theorem takeLabel_mem (p : PlaceId) (l : Option Label) : (takeLabel p l s).mem = s.mem := by
  unfold takeLabel; dsimp only; split
  · split
    · rfl
    · exact post_mem ..
  · exact newCartridge_mem ..
theorem drainPosts_mem (m : Nat) : (drainPosts m s).mem = s.mem := by
  induction m generalizing s with
  | zero => rfl
  | succ m ih =>
    unfold drainPosts
    split
    · rfl
    · split
      · rfl
      · exact (ih _).trans (post_mem ..)
@[simp] theorem loaderPost_mem (rs : List Report) : (loaderPost rs s).mem = s.mem := drainPosts_mem ..
@[simp] theorem clearPending_mem (o : Order) : (clearPending o s).mem = s.mem :=
  foldl_mem (fun s p => setPending p none s) (fun _ _ => rfl) _ s
@[simp] theorem endOrder_mem (x : OrderOutcome) (y : LoaderState) (i : Option Int) : (endOrder x y i s).mem = s.mem := by
  unfold endOrder; split
  · rfl
  · exact (loaderPost_mem ..).trans (clearPending_mem ..)
@[simp] theorem failOrder_mem (x : LoaderFault) (y : LoaderState) (i : Option Int) : (failOrder x y i s).mem = s.mem :=
  endOrder_mem ..
@[simp] theorem orderDone_mem : (orderDone s).mem = s.mem := endOrder_mem ..
theorem gripperStep_mem (p : StepPart) (f : State → State) (hf : ∀ t, (f t).mem = t.mem) : (gripperStep p f s).mem = s.mem := by
  unfold gripperStep; dsimp only; split
  · exact hf _
  · rfl
@[simp] theorem startRail_mem (x : Int) : (startRail x s).mem = s.mem := rfl
@[simp] theorem beginMotion_mem (x : Int) : (beginMotion x s).mem = s.mem := by
  unfold beginMotion; dsimp only; split
  · rfl
  · exact gripperStep_mem _ _ _ fun _ => rfl
@[simp] theorem startRead_mem : (startRead s).mem = s.mem := by unfold startRead; dsimp only; split <;> rfl
@[simp] theorem stoppedExchangeOver_mem : (stoppedExchangeOver s).mem = s.mem := by
  unfold stoppedExchangeOver; split <;> rfl
@[simp] theorem inventoryDone_mem : (inventoryDone s).mem = s.mem := by
  unfold inventoryDone; split
  · simp
  · split <;> simp
@[simp] theorem surveyNext_mem : (surveyNext s).mem = s.mem := by unfold surveyNext; split <;> simp
@[simp] theorem setStep_mem (x : StepKind) (y : StepPart) : (setStep x y s).mem = s.mem := rfl
@[simp] theorem startSurvey_mem : (startSurvey s).mem = s.mem := by
  unfold startSurvey; split
  · rfl
  · dsimp only; split <;> simp
@[simp] theorem getRetracted_mem : (getRetracted s).mem = s.mem := by
  unfold getRetracted; split
  · rfl
  · exact (startRead_mem _).trans ((setStep_mem ..).trans (moveCartridge_mem ..))
@[simp] theorem getGripped_mem : (getGripped s).mem = s.mem := by
  unfold getGripped; split
  · exact gripperStep_mem _ _ _ getRetracted_mem
  · split <;> simp
@[simp] theorem getExtended_mem : (getExtended s).mem = s.mem := gripperStep_mem _ _ _ getGripped_mem
@[simp] theorem getOpened_mem : (getOpened s).mem = s.mem := gripperStep_mem _ _ _ getExtended_mem
@[simp] theorem startGet_mem : (startGet s).mem = s.mem := by
  unfold startGet; dsimp only; split
  · exact getOpened_mem _
  · exact gripperStep_mem _ _ _ getOpened_mem
@[simp] theorem putRetracted_mem : (putRetracted s).mem = s.mem := by
  unfold putRetracted; split
  · rfl
  · split <;> simp
@[simp] theorem putOpened_mem : (putOpened s).mem = s.mem := gripperStep_mem _ _ _ putRetracted_mem
@[simp] theorem putExtended_mem : (putExtended s).mem = s.mem := gripperStep_mem _ _ _ putOpened_mem
@[simp] theorem startPut_mem : (startPut s).mem = s.mem := by
  unfold startPut; dsimp only; split
  · split
    · rfl
    · exact (failOrder_mem ..).trans (vacate_mem ..)
  · exact gripperStep_mem _ _ _ putExtended_mem
@[simp] theorem arrive_mem (i : Int) : (arrive i s).mem = s.mem := by
  unfold arrive; dsimp only; split
  · rfl
  · split
    · exact startSurvey_mem _
    · split
      · exact startGet_mem _
      · exact startPut_mem _
@[simp] theorem startTravel_mem (i : Int) : (startTravel i s).mem = s.mem := by
  unfold startTravel; split <;> simp
@[simp] theorem beginSteps_mem : (beginSteps s).mem = s.mem := by unfold beginSteps; split <;> simp
@[simp] theorem homingEnded_mem : (homingEnded s).mem = s.mem := beginSteps_mem _
@[simp] theorem homingRetracted_mem : (homingRetracted s).mem = s.mem := by
  unfold homingRetracted; split
  · exact homingEnded_mem _
  · rfl
@[simp] theorem startHoming_mem : (startHoming s).mem = s.mem := by
  unfold startHoming; dsimp only; split
  · exact homingRetracted_mem _
  · exact gripperStep_mem _ _ _ homingRetracted_mem
@[simp] theorem queueOrder_mem (o : Order) : (queueOrder o s).mem = s.mem :=
  foldl_mem (fun s p => setPending p (some o.tag) s) (fun _ _ => rfl) _ s
@[simp] theorem activateOrder_mem : (activateOrder s).mem = s.mem := by
  unfold activateOrder; split
  · split
    · rfl
    · split
      · simp
      · dsimp only; split <;> simp
  · rfl
@[simp] theorem labelDone_mem : (labelDone s).mem = s.mem := by
  unfold labelDone; split
  · rfl
  · split
    · split
      · split <;> simp
      · simp
      · rfl
    · rfl
@[simp] theorem labelTaken_mem (p : PlaceId) (l : Option Label) : (labelTaken p l s).mem = s.mem := by
  unfold labelTaken; dsimp only; split <;> simp
@[simp] theorem readEnded_mem (l : Option Label) : (readEnded l s).mem = s.mem := by
  unfold readEnded; dsimp only; split
  · rfl
  · split
    · rfl
    · exact (labelTaken_mem ..).trans rfl
@[simp] theorem attemptFailed_mem : (attemptFailed s).mem = s.mem := by
  unfold attemptFailed; split
  · exact readEnded_mem ..
  · rfl
@[simp] theorem receiveByte_mem (b : Byte) : (receiveByte b s).mem = s.mem := by
  unfold receiveByte; dsimp only; split
  · split
    · rfl
    · split <;> simp
  · split
    · rfl
    · split <;> simp
@[simp] theorem interruptGripper_mem : (interruptGripper s).mem = s.mem := by
  unfold interruptGripper; split
  · exact sensePicker_mem _
  · refine (sensePicker_mem _).trans ?_; split <;> simp
@[simp] theorem loaderDoor_mem (d : Door) : (loaderDoor d s).mem = s.mem := by
  unfold loaderDoor; split
  · rfl
  · split
    · dsimp only; split <;> split <;> simp
    · rfl
@[simp] theorem takeEdge_mem (d : Door) : (takeEdge d s).mem = s.mem := by
  unfold takeEdge signalDoor
  rw [post_mem]
  split <;> simp
theorem takeHeldDoors_mem (m : Nat) : (takeHeldDoors m s).mem = s.mem := by
  induction m generalizing s with
  | zero => rfl
  | succ m ih =>
    unfold takeHeldDoors; split
    · rfl
    · split
      · rfl
      · exact (ih _).trans (loaderDoor_mem ..)
theorem loaderJoined_mem : (loaderJoined s).mem = s.mem := (takeHeldDoors_mem ..).trans (drainPosts_mem ..)
theorem takeDirectoryHeld_mem (m : Nat) : (takeDirectoryHeld m s).mem = s.mem := by
  induction m generalizing s with
  | zero => rfl
  | succ m ih =>
    unfold takeDirectoryHeld; split
    · rfl
    · split
      · rfl
      · exact (ih _).trans (takeEdge_mem ..)
      · exact (ih _).trans (labelTaken_mem ..)
theorem directoryJoined_mem : (directoryJoined s).mem = s.mem := by
  refine (takeDirectoryHeld_mem ..).trans ?_; split <;> simp
theorem haltLoader_mem : (haltLoader s).1.mem = s.mem := by
  unfold haltLoader; split
  · rfl
  · exact (foldl_mem _ (fun _ _ => clearPending_mem ..) _ _).trans (interruptGripper_mem s)
theorem loaderHalt_mem : (loaderHalt s).mem = s.mem := (loaderPost_mem ..).trans (haltLoader_mem s)
theorem resumeLoader_mem : (resumeLoader s).mem = s.mem := by unfold resumeLoader; split <;> rfl

variable (x : Sample)

theorem homeInput_mem : (homeInput x s).mem = s.mem := by
  unfold homeInput; dsimp only; split
  · split <;> simp
  · rfl
theorem stationMark_mem : (stationMark x s).mem = s.mem := by
  unfold stationMark; dsimp only; split
  · split
    · rfl
    · split
      · split
        · rfl
        · exact arrive_mem ..
      · rfl
  · rfl
theorem markTimeout_mem : (markTimeout x s).mem = s.mem := by unfold markTimeout; dsimp only; split <;> simp
theorem retractedDeassert_mem : (retractedDeassert x s).mem = s.mem := by
  unfold retractedDeassert; dsimp only; split <;> simp
theorem gripperStepDone_mem (y : ActiveStep) : (gripperStepDone y s).mem = s.mem := by
  unfold gripperStepDone; split <;> simp
theorem gripperStepEnd_mem : (gripperStepEnd x s).mem = s.mem := by
  unfold gripperStepEnd; dsimp only; split
  · rfl
  · split
    · exact gripperStepDone_mem ..
    · rfl
theorem stepTimeout_mem : (stepTimeout x s).mem = s.mem := by
  unfold stepTimeout; dsimp only; split
  · rfl
  · split
    · split <;> simp
    · rfl
theorem labelExchange_mem (b : Byte) : (labelExchange b x s).mem = s.mem := by
  unfold labelExchange; dsimp only; split
  · rfl
  · split <;> simp
theorem exchangeTimeout_mem : (exchangeTimeout x s).mem = s.mem := by
  unfold exchangeTimeout; dsimp only; split
  · rfl
  · split
    · split <;> simp
    · rfl
theorem retryTimer_mem : (retryTimer x s).mem = s.mem := by unfold retryTimer; dsimp only; split <;> rfl
theorem orderActivate_mem : (orderActivate x s).mem = s.mem := activateOrder_mem _
theorem doorOpeningEdge_mem (d : Door) : (doorOpeningEdge d x s).mem = s.mem := by
  unfold doorOpeningEdge; dsimp only; split
  · rfl
  · split
    · split <;> simp
    · simp

end Unwritten
end Sys2Proof.Proofs.Canonical
end

section
/-! PROOFS. Staging memory stays canonical through the Request Engine, the controller port and the resets. -/
namespace Sys2Proof.Proofs.Canonical
open Sys2Proof Sys2Proof.Machine Sys2Proof.Safety Sys2Proof.Laws

variable {s : State}

/-! ## The Request Engine -/

theorem requestProducerTake_canonical (h : memoryCanonical s) : memoryCanonical (requestProducerTake s) := by
  unfold requestProducerTake
  exact ite_canonical (ite_canonical h (canonical_of_mem_eq (post_mem ..) h)) h

theorem reportConsumerTake_canonical (h : memoryCanonical s) : memoryCanonical (reportConsumerTake s) := by
  unfold reportConsumerTake
  exact ite_canonical (ite_canonical h (ite_canonical h (canonical_of_mem_eq (post_mem ..) h))) h

theorem catalogConsumerTake_canonical (h : memoryCanonical s) : memoryCanonical (catalogConsumerTake s) := by
  unfold catalogConsumerTake
  exact ite_canonical (ite_canonical h h) h

/-- The effects of an owner's acceptance keep memory canonical. -/
def DecisionCanonical (x : Except Code (State → State)) : Prop :=
  ∀ f, x = .ok f → ∀ u : State, memoryCanonical u → memoryCanonical (f u)

theorem decisionCanonical_error (c : Code) : DecisionCanonical (.error c) := nofun

theorem decisionCanonical_ok {f : State → State} (h : ∀ u : State, memoryCanonical u → memoryCanonical (f u)) :
    DecisionCanonical (.ok f) := by
  rintro g ⟨⟩
  exact h

theorem ite_decisionCanonical {c : Prop} [Decidable c] {x y : Except Code (State → State)} (hx : DecisionCanonical x)
    (hy : DecisionCanonical y) : DecisionCanonical (if c then x else y) := by
  split
  · exact hx
  · exact hy

theorem startJob_mem (k : SlotId) (r : JobRecord) (s : State) : (startJob k r s).mem = s.mem := rfl

theorem laneToWrite_mem (n : LaneId) (written : Word) (s : State) : (laneToWrite n written s).mem = s.mem := rfl

theorem laneToRead_mem (n : LaneId) (k : SlotId) (s : State) : (laneToRead n k s).mem = s.mem := rfl

theorem writeStartDecision_canonical (r : List Byte) (s : State) : DecisionCanonical (writeStartDecision r s) := by
  unfold writeStartDecision
  dsimp only
  split
  · exact decisionCanonical_error _
  · iterate 3 refine ite_decisionCanonical (decisionCanonical_error _) ?_
    split
    · exact decisionCanonical_error _
    · iterate 4 refine ite_decisionCanonical (decisionCanonical_error _) ?_
      exact decisionCanonical_ok fun u h =>
        canonical_of_mem_eq ((bindStream_mem ..).trans ((laneToWrite_mem ..).trans (startJob_mem ..))) h

theorem rangeReset_canonical (x : Option Label) (a b : Word) (h : memoryCanonical s) :
    memoryCanonical (rangeReset x a b s) :=
  catalogSweep_wf _ s h

theorem verifyStartDecision_canonical (r : List Byte) (s : State) : DecisionCanonical (verifyStartDecision r s) := by
  unfold verifyStartDecision
  dsimp only
  split
  · exact decisionCanonical_error _
  · refine ite_decisionCanonical (decisionCanonical_error _) ?_
    split
    · exact decisionCanonical_error _
    · repeat refine ite_decisionCanonical (decisionCanonical_error _) ?_
      exact decisionCanonical_ok fun u h => rangeReset_canonical _ _ _ h

theorem restoreStartDecision_canonical (r : List Byte) (s : State) : DecisionCanonical (restoreStartDecision r s) := by
  unfold restoreStartDecision
  dsimp only
  split
  · exact decisionCanonical_error _
  · refine ite_decisionCanonical (decisionCanonical_error _) ?_
    split
    · exact decisionCanonical_error _
    · refine ite_decisionCanonical (decisionCanonical_error _) ?_
      split
      · exact decisionCanonical_error _
      · refine decisionCanonical_ok fun u h => ?_
        refine canonical_of_mem_eq (laneToRead_mem ..) ?_
        exact h

theorem streamCloseDecision_canonical (r : List Byte) (s : State) : DecisionCanonical (streamCloseDecision r s) := by
  unfold streamCloseDecision
  split
  · exact decisionCanonical_error _
  · refine ite_decisionCanonical (decisionCanonical_error _) (ite_decisionCanonical (decisionCanonical_ok fun u h => h) ?_)
    refine decisionCanonical_ok fun u h => jobSignals_canonical _ (canonical_of_mem_eq ?_ h)
    rw [modJob_mem, streamClosing_mem]
    split
    · rfl
    · exact closeChunk_mem ..

theorem jobEndDecision_canonical (r : List Byte) (s : State) : DecisionCanonical (jobEndDecision r s) := by
  unfold jobEndDecision
  split
  · exact decisionCanonical_error _
  · refine ite_decisionCanonical (decisionCanonical_error _) (ite_decisionCanonical (decisionCanonical_ok fun u h => h) ?_)
    exact decisionCanonical_ok fun u h => jobSignals_canonical _ (canonical_of_mem_eq (stopFramer_mem _) h)

theorem abortWriting_canonical (k : SlotId) (job : JobRecord) (h : memoryCanonical s) :
    memoryCanonical (abortWriting k job s) := by
  unfold abortWriting
  split
  · refine jobSignals_canonical _ (canonical_of_mem_eq ?_ h)
    rw [modJob_mem, streamClosing_mem, giveUpStream_mem]
  · exact h

theorem jobAbortDecision_canonical (r : List Byte) (s : State) : DecisionCanonical (jobAbortDecision r s) := by
  unfold jobAbortDecision
  split
  · exact decisionCanonical_error _
  · refine decisionCanonical_ok fun u h => ?_
    split
    · exact abortWriting_canonical _ _ h
    · exact jobSignals_canonical _ (abortReading_canonical _ h)

theorem resetStreams_canonical (n : LaneId) (h : memoryCanonical s) : memoryCanonical (resetStreams n s) :=
  foldl_canonical _ (fun _ _ ht => canonical_of_mem_eq ((recomputeLimit_mem ..).trans (giveUpStream_mem ..)) ht) _ h

theorem discardLane_canonical (n : LaneId) (h : memoryCanonical s) : memoryCanonical (discardLane n s) :=
  canonical_of_mem_eq (leaveCatalog_mem n) (catalogSweep_wf _ s h)

theorem resetLane_canonical (n : LaneId) (h : memoryCanonical s) : memoryCanonical (resetLane n s) := by
  unfold resetLane
  exact canonical_of_mem_eq (laneIdle_mem n) (discardLane_canonical n h)

theorem laneReset_canonical (n : LaneId) (h : memoryCanonical s) : memoryCanonical (laneReset n s) :=
  jobSignals_canonical _ (resetReading_canonical n (resetLane_canonical n (resetStreams_canonical n h)))

theorem layoutSetDecision_canonical (r : List Byte) (s : State) : DecisionCanonical (layoutSetDecision r s) := by
  unfold layoutSetDecision
  exact ite_decisionCanonical (decisionCanonical_error _)
    (ite_decisionCanonical (decisionCanonical_ok fun u h => h) (decisionCanonical_error _))

theorem setLane_canonical (n : LaneId) (x : LaneSettings) (h : memoryCanonical s) : memoryCanonical (setLane n x s) :=
  ageClose_canonical n h

theorem acceptOrder_mem (o : Order) (s : State) : (acceptOrder o s).mem = s.mem := by
  unfold acceptOrder
  split <;> simp

theorem orderRequest_canonical (k : OrderKind) (r : List Byte) (s : State) : DecisionCanonical (orderRequest k r s) := by
  unfold orderRequest
  split
  · exact decisionCanonical_error _
  · exact decisionCanonical_ok fun u h => canonical_of_mem_eq (acceptOrder_mem _ u) h

theorem decision_canonical (kind : RequestKind) (r : List Byte) (s : State) : DecisionCanonical (s.decision kind r) := by
  cases kind with
  | layoutSet => exact layoutSetDecision_canonical r s
  | laneSet => exact decisionCanonical_ok fun u h => setLane_canonical _ _ h
  | loaderSet => exact decisionCanonical_ok fun u h => h
  | partReset => exact decisionCanonical_ok fun u h => h
  | writeStart => exact writeStartDecision_canonical r s
  | streamClose => exact streamCloseDecision_canonical r s
  | verifyStart => exact verifyStartDecision_canonical r s
  | restoreStart => exact restoreStartDecision_canonical r s
  | jobEnd => exact jobEndDecision_canonical r s
  | jobAbort => exact jobAbortDecision_canonical r s
  | laneResync => exact decisionCanonical_ok fun u h => resyncFramer_canonical _ h
  | laneReset =>
    refine decisionCanonical_ok fun u h => ?_
    split
    · exact h
    · exact laneReset_canonical _ h
  | cartridgeSet =>
    rw [State.decision]
    split
    · exact decisionCanonical_error _
    · exact decisionCanonical_ok fun u h => h
  | move => exact orderRequest_canonical _ r s
  | mount => exact orderRequest_canonical _ r s
  | dismount => exact orderRequest_canonical _ r s
  | inventory => exact orderRequest_canonical _ r s
  | pickerPut => exact orderRequest_canonical _ r s
  | loaderHalt => exact decisionCanonical_ok fun u h => canonical_of_mem_eq (loaderHalt_mem u) h
  | loaderResume => exact decisionCanonical_ok fun u h => canonical_of_mem_eq (resumeLoader_mem u) h

theorem decideRequest_canonical (r : List Byte) (h : memoryCanonical s) : memoryCanonical (decideRequest r s) := by
  unfold decideRequest
  split
  · exact h
  · refine ite_canonical (ite_canonical ?_ h) h
    split
    · exact h
    · next f hf => exact decision_canonical _ r s f hf _ h

theorem requestCommand_canonical (kind : Option RequestKind) (h : memoryCanonical s) :
    memoryCanonical (requestCommand kind s) := by
  unfold requestCommand
  refine ite_canonical h ?_
  split
  · exact ite_canonical (decideRequest_canonical _ h) h
  · exact ite_canonical (ite_canonical (decideRequest_canonical _ h) h) h

theorem joinBacklog_mem (x : WaitItem) (s : State) : (joinBacklog x s).mem = s.mem := by cases x <;> rfl

theorem unitJoined_canonical (u : Poster) (h : memoryCanonical s) : memoryCanonical (unitJoined u s) := by
  cases u with
  | requestEngine => exact h
  | jobTable => exact jobDoneJoined_canonical h
  | stream i => exact h
  | laneUnit n => exact laneJoined_canonical n h
  | framer n => exact framerJoined_canonical n h
  | directory => exact canonical_of_mem_eq (directoryJoined_mem s) h
  | loader => exact canonical_of_mem_eq (loaderJoined_mem s) h

theorem requestAdvance_canonical (h : memoryCanonical s) : memoryCanonical (requestAdvance s) := by
  unfold requestAdvance
  refine ite_canonical h ?_
  split
  · refine ite_canonical h ?_
    split
    · exact ite_canonical (decideRequest_canonical _ h) h
    · exact h
  · have hp (r : Report) : memoryCanonical (post .requestEngine r { s with re.pendingRingFault := none }) :=
      canonical_of_mem_eq (post_mem ..) h
    refine ite_canonical (hp _) ?_
    split
    · exact ite_canonical (decideRequest_canonical _ (hp _)) (hp _)
    · exact hp _

theorem backlogAdmit_canonical (x : Sample) (h : memoryCanonical s) : memoryCanonical (backlogAdmit x s) := by
  unfold backlogAdmit
  split
  · exact h
  · refine ite_canonical (requestAdvance_canonical (unitJoined_canonical _ ?_)) h
    exact canonical_of_mem_eq (joinBacklog_mem ..) h

theorem reportWrite_canonical (h : memoryCanonical s) : memoryCanonical (reportWrite s) := by
  unfold reportWrite
  split
  · exact h
  · exact ite_canonical (store_wf s _ _ h) h

theorem statusRefresh_canonical (h : memoryCanonical s) : memoryCanonical (statusRefresh s) :=
  ite_canonical (refresh_wf s h) h

/-! ## The controller port -/

theorem streamOverrun_canonical (i : StreamId) (x : OverrunReason) (o : Word) (h : memoryCanonical s) :
    memoryCanonical (streamOverrun i x o s) := by
  unfold streamOverrun
  refine ite_canonical h (canonical_of_mem_eq ?_ h)
  dsimp only
  rw [recomputeLimit_mem, post_mem, setStreamAperture_mem]

theorem streamAccept_canonical (i : StreamId) (bs : List Byte) (o : Word) (h : memoryCanonical s) :
    memoryCanonical (streamAccept i bs o s) := by
  have hp (t : State) (m : Nat) (xs : List Byte) (ht : memoryCanonical t) : memoryCanonical (placeBytes i m xs t).1 :=
    canonical_of_mem_eq (placeBytes_mem i m xs) ht
  have hr (t : State) (a : Aperture) (ht : memoryCanonical t) : memoryCanonical (recomputeLimit i (t.setStreamAperture i a)) :=
    canonical_of_mem_eq ((recomputeLimit_mem ..).trans (setStreamAperture_mem ..)) ht
  have hs (a : Aperture) : memoryCanonical (s.setStreamAperture i a) := canonical_of_mem_eq (setStreamAperture_mem ..) h
  unfold streamAccept
  dsimp only
  split
  · exact streamOverrun_canonical i _ _ (hr _ _ (hp _ _ _ (hs _)))
  · exact hr _ _ (hp _ _ _ (hs _))

theorem streamWrite_canonical (i : StreamId) (w : Window) (a : Word) (bs : List Byte) (h : memoryCanonical s) :
    memoryCanonical (streamWrite i w a bs s) := by
  unfold streamWrite
  dsimp only
  split
  · exact h
  · exact streamOverrun_canonical i _ _ h
  · exact streamAccept_canonical i _ _ h

theorem ringHold_canonical (n : LaneId) (x : OverrunReason) (o : Word) (h : memoryCanonical s) :
    memoryCanonical (ringHold n x o s) :=
  ringOverrun_canonical n _ h

theorem ringAccept_canonical (n : LaneId) (a : Nat) (bs : List Byte) (o : Word) (h : memoryCanonical s) :
    memoryCanonical (ringAccept n a bs o s) := by
  have hs (k : Nat) (f : Aperture) : memoryCanonical ((s.store a (bs.take k)).setRingAperture n f) := store_wf s _ _ h
  unfold ringAccept
  exact ite_canonical (ringHold_canonical n _ _ (ite_canonical (framerSettle_canonical n (hs _ _)) (hs _ _)))
    (ite_canonical (framerSettle_canonical n (hs _ _)) (hs _ _))

theorem ringDataWrite_canonical (n : LaneId) (w : Window) (a : Word) (bs : List Byte) (h : memoryCanonical s) :
    memoryCanonical (ringDataWrite n w a bs s) := by
  unfold ringDataWrite
  dsimp only
  split
  · exact h
  · exact ringHold_canonical n _ _ h
  · exact ringAccept_canonical n _ _ _ h

theorem controllerWrite_canonical (a : Word) (bs : List Byte) (h : memoryCanonical s) :
    memoryCanonical (controllerWrite a bs s) := by
  unfold controllerWrite
  dsimp only
  split
  · exact store_wf s _ _ h
  · exact store_wf s _ _ h
  · exact h
  · exact ite_canonical h (streamWrite_canonical _ _ _ _ h)
  · exact ite_canonical (ringDataWrite_canonical _ _ _ _ h) h

theorem controllerRead_canonical (a : Word) (n now : Nat) (h : memoryCanonical s) :
    memoryCanonical (controllerRead a n now s) := by
  unfold controllerRead
  dsimp only
  split
  · exact h
  · exact finalByteSignal_canonical _ _ h

/-! ## The resets -/

theorem resetDone_canonical (c : ResetCause) (t : Half) (h : memoryCanonical s) : memoryCanonical (resetDone c t s) :=
  refresh_wf _ (store_wf _ _ _ (store_wf s _ _ h))

theorem powerOnReset_canonical (d : Fin 4) (x : DoorLevels) (y : Lines) (h : memoryCanonical s) :
    memoryCanonical (powerOnReset d x y s) :=
  resetDone_canonical _ _ (canonical_of_mem_eq (sensePicker_mem _) h)

theorem directoryPartReset_mem (s : State) : (directoryPartReset s).mem = s.mem := by
  refine (foldl_mem _ (fun t y => ?_) _ _).trans (interruptGripper_mem s)
  cases y with
  | edge d => exact openDoor_mem t d
  | label => rfl

theorem partReset_canonical (x : Sample) (h : memoryCanonical s) : memoryCanonical (partReset x s) :=
  ite_canonical (resetDone_canonical _ _ (canonical_of_mem_eq (directoryPartReset_mem (s.observe x)) h)) h

theorem resetNAsserted_canonical (h : memoryCanonical s) : memoryCanonical (resetNAsserted s) := h

/-! ## Every command -/

theorem next_canonical {t u : State} (h : memoryCanonical u)
    (e : (Host.Outcome.next u : Host.Outcome State Fault Refusal) = .next t) : memoryCanonical t :=
  Host.Outcome.next.inj e ▸ h

theorem runStep_canonical {t : State} {f : State → State} (h : memoryCanonical s) (hf : memoryCanonical (f s))
    (e : runStep s f = .next t) : memoryCanonical t := by
  unfold runStep at e
  split at e <;> cases e
  · exact h
  · exact hf

theorem sampledRequest_canonical {t : State} {k : Option RequestKind} (f : State → State) (hm : (f s).mem = s.mem)
    (h : memoryCanonical s) (e : runStep s (fun s => requestCommand k (f s)) = .next t) : memoryCanonical t :=
  runStep_canonical (f := fun s => requestCommand k (f s)) h (requestCommand_canonical k (canonical_of_mem_eq hm h)) e

theorem transaction_canonical {t : State} {c : Bool} {f : State → State} (h : memoryCanonical s)
    (hf : memoryCanonical (f s)) (e : (if c then runStep s f else .refused .notATransaction) = .next t) :
    memoryCanonical t := by
  split at e
  · exact runStep_canonical h hf e
  · cases e

theorem exec_canonical {t : State} (c : Instr) (h : memoryCanonical s) (e : exec c s = .next t) : memoryCanonical t := by
  cases c with
  | powerOnReset d x y => exact next_canonical (powerOnReset_canonical d x y h) e
  | controllerWrite a bs => exact transaction_canonical h (controllerWrite_canonical a bs h) e
  | indexWordWrite a bs => exact transaction_canonical h (controllerWrite_canonical a bs h) e
  | apertureWrite a bs => exact transaction_canonical h (controllerWrite_canonical a bs h) e
  | finalByteRead a n now => exact transaction_canonical h (controllerRead_canonical a n now h) e
  | requestProducerTake => exact runStep_canonical h (requestProducerTake_canonical h) e
  | reportConsumerTake => exact runStep_canonical h (reportConsumerTake_canonical h) e
  | catalogConsumerTake => exact runStep_canonical h (catalogConsumerTake_canonical h) e
  | restoreConsumerTake k => exact runStep_canonical h (restoreConsumerTake_canonical k h) e
  | partReset x => exact next_canonical (ite_canonical h (partReset_canonical x h)) e
  | backlogAdmit x => exact runStep_canonical h (backlogAdmit_canonical x h) e
  | reportWrite => exact runStep_canonical h (reportWrite_canonical h) e
  | statusRefresh => exact runStep_canonical h (statusRefresh_canonical h) e
  | compressorTake => exact runStep_canonical h (compressorTake_canonical h) e
  | compressionComplete => exact runStep_canonical h (compressionComplete_canonical h) e
  | packerBeginSegment n now => exact runStep_canonical h (packerBeginSegment_canonical n now h) e
  | frameComplete n now => exact runStep_canonical h (frameComplete_canonical n now h) e
  | segmentContinues n now => exact runStep_canonical h (continueSegment_canonical n (s := s.observeTime now) h) e
  | segmentPacked n => exact runStep_canonical h (segmentPacked_canonical n h) e
  | ageExpiry n now => exact runStep_canonical h (ageClose_canonical n (s := s.observeTime now) h) e
  | syncSearchTest n => exact runStep_canonical h (syncSearchTest_canonical n h) e
  | syncConfirm n => exact runStep_canonical h (syncConfirm_canonical n h) e
  | frameTake n => exact runStep_canonical h (frameTake_canonical n h) e
  | decodeTake => exact runStep_canonical h (decodeTake_canonical h) e
  | expansionComplete => exact runStep_canonical h (expansionComplete_canonical h) e
  | sighting => exact runStep_canonical h (sighting_canonical h) e
  | restoreEntryWrite => exact runStep_canonical h (restoreEntryWrite_canonical h) e
  | endEvaluation => exact runStep_canonical h (endEvaluation_canonical h) e
  | doorOpeningEdge d x => exact runStep_canonical h (canonical_of_mem_eq (doorOpeningEdge_mem s x d) h) e
  | doorClosingEdge d => exact runStep_canonical h (canonical_of_mem_eq (setDoor_mem s d _) h) e
  | orderActivate x => exact runStep_canonical h (canonical_of_mem_eq (orderActivate_mem s x) h) e
  | homeInput x => exact runStep_canonical h (canonical_of_mem_eq (homeInput_mem s x) h) e
  | stationMark x => exact runStep_canonical h (canonical_of_mem_eq (stationMark_mem s x) h) e
  | markTimeout x => exact runStep_canonical h (canonical_of_mem_eq (markTimeout_mem s x) h) e
  | retractedDeassert x => exact runStep_canonical h (canonical_of_mem_eq (retractedDeassert_mem s x) h) e
  | gripperStepEnd x => exact runStep_canonical h (canonical_of_mem_eq (gripperStepEnd_mem s x) h) e
  | stepTimeout x => exact runStep_canonical h (canonical_of_mem_eq (stepTimeout_mem s x) h) e
  | labelExchange b x => exact runStep_canonical h (canonical_of_mem_eq (labelExchange_mem s x b) h) e
  | exchangeTimeout x => exact runStep_canonical h (canonical_of_mem_eq (exchangeTimeout_mem s x) h) e
  | retryTimer x => exact runStep_canonical h (canonical_of_mem_eq (retryTimer_mem s x) h) e
  | resetNAsserted => exact next_canonical (resetNAsserted_canonical h) e
  | laneSet now => exact sampledRequest_canonical (·.observeTime now) rfl h e
  | move x => exact sampledRequest_canonical (·.observe x) rfl h e
  | mount x => exact sampledRequest_canonical (·.observe x) rfl h e
  | dismount x => exact sampledRequest_canonical (·.observe x) rfl h e
  | inventory x => exact sampledRequest_canonical (·.observe x) rfl h e
  | pickerPut x => exact sampledRequest_canonical (·.observe x) rfl h e
  | loaderHalt x => exact sampledRequest_canonical (·.observe x) rfl h e
  | _ => exact runStep_canonical h (requestCommand_canonical _ h) e

/-- Settles O2: the model writes memory only through `memWrite`, so every command keeps it canonical. -/
theorem stepKeepsMemoryCanonical : Obligations.StepKeepsMemoryCanonical := by
  intro s t h e
  unfold step at e
  split at e
  · cases e; exact h
  · next c rest _ => exact exec_canonical c (s := { s with pending := rest }) h e

end Sys2Proof.Proofs.Canonical
end

section
/-! PROOFS. The machine's frame and the controller port (01): what every command's effect leads to, what a write of each class
does, and what a read returns. -/
namespace Sys2Proof.Proofs.Windows
open Sys2Proof Sys2Proof.Machine Sys2Proof.Safety Sys2Proof.Laws

/-! ## The frame of the commands -/

/-- Settles O1, by the two branches of `step`. -/
theorem stepRunsFrontCommand : Obligations.StepRunsFrontCommand := by
  refine ⟨fun s c rest h => ?_, fun s h => ?_⟩ <;> rw [step, h]

/-- Settles O3: power-on reset lists no byte. -/
theorem resetMemoryCanonical : Obligations.ResetMemoryCanonical := by
  unfold Obligations.ResetMemoryCanonical memoryCanonical
  rw [reset_mem_empty]
  exact empty_wf

/-- A command that is no reset runs an effect inside the common frame, or is no well-formed transaction and refused. -/
theorem exec_runs (c : Instr) (s : State) (hp : ∀ d l i, c ≠ .powerOnReset d l i) (hn : c ≠ .resetNAsserted)
    (hr : ∀ x, c ≠ .partReset x) : (∃ f, exec c s = runStep s f)
      ∨ (c.wellFormed = false ∧ exec c s = .refused .notATransaction) := by
  have guarded (b : Bool) (f : State → State) :
      (∃ g, (if b then runStep s f else .refused .notATransaction) = runStep s g)
        ∨ (b = false ∧ (if b then runStep s f else .refused .notATransaction) = .refused .notATransaction) := by
    cases b
    · exact .inr ⟨rfl, rfl⟩
    · exact .inl ⟨f, rfl⟩
  cases c with
  | powerOnReset d l i => exact absurd rfl (hp d l i)
  | resetNAsserted => exact absurd rfl hn
  | partReset x => exact absurd rfl (hr x)
  | controllerWrite => exact guarded ..
  | indexWordWrite => exact guarded ..
  | apertureWrite => exact guarded ..
  | finalByteRead => exact guarded ..
  | laneSet now => exact .inl ⟨fun s => requestCommand (some .laneSet) (s.observeTime now), rfl⟩
  | move x => exact .inl ⟨fun s => requestCommand (some .move) (s.observe x), rfl⟩
  | mount x => exact .inl ⟨fun s => requestCommand (some .mount) (s.observe x), rfl⟩
  | dismount x => exact .inl ⟨fun s => requestCommand (some .dismount) (s.observe x), rfl⟩
  | inventory x => exact .inl ⟨fun s => requestCommand (some .inventory) (s.observe x), rfl⟩
  | pickerPut x => exact .inl ⟨fun s => requestCommand (some .pickerPut) (s.observe x), rfl⟩
  | loaderHalt x => exact .inl ⟨fun s => requestCommand (some .loaderHalt) (s.observe x), rfl⟩
  | _ => exact .inl ⟨_, rfl⟩

theorem runStep_marks {s t : State} {f : State → State} (e : runStep s f = .next t)
    (h : imageRecords t ≠ imageRecords s) : t.re.stale = true := by
  unfold runStep at e
  split at e <;> cases e
  · exact absurd rfl h
  · have hi : imageRecords (markStale s (f s)) = imageRecords (f s) := rfl
    rw [hi] at h
    simp [markStale, h]

/-- Settles O4: the frame `runStep` compares the records before and after. -/
theorem changesMarkImageStale : Obligations.ChangesMarkImageStale := by
  intro c s t hp hn hr _ e h
  rcases exec_runs c s hp hn hr with ⟨f, hf⟩ | ⟨-, hf⟩
  · exact runStep_marks (hf ▸ e) h
  · rw [hf] at e; cases e

/-! ## Transactions -/

/-- Settles O13, by the guard of each of the four commands. -/
theorem malformedTransactionRefused : Obligations.MalformedTransactionRefused := by
  intro s addr data length now
  have bad (n : Nat) (h : n = 0 ∨ 4096 < addr.toNat % 4096 + n) : transactionOk addr n = false := by
    simp only [transactionOk, Bool.and_eq_false_iff, decide_eq_false_iff_not]
    omega
  refine ⟨fun h => ⟨?_, ?_, ?_⟩, fun h => ?_⟩
  · exact if_neg (by simp [bad _ h])
  · exact if_neg (by simp [bad _ h])
  · exact if_neg (by simp [bad _ h])
  · exact if_neg (by simp [bad _ h])

section Transaction
variable {s : State} {addr : Word} {data : List Byte}

theorem exec_controllerWrite (h : transactionOk addr data.length = true) :
    exec (.controllerWrite addr data) s = runStep s (controllerWrite addr data) := if_pos h

theorem exec_indexWordWrite (h : transactionOk addr data.length = true) :
    exec (.indexWordWrite addr data) s = runStep s (controllerWrite addr data) := if_pos h

theorem exec_apertureWrite (h : transactionOk addr data.length = true) :
    exec (.apertureWrite addr data) s = runStep s (controllerWrite addr data) := if_pos h

theorem exec_finalByteRead {length now : Nat} (h : transactionOk addr length = true) :
    exec (.finalByteRead addr length now) s = runStep s (controllerRead addr length now) := if_pos h

/-! ## Writes by class -/

theorem controllerWrite_memory (h : s.classOf addr.toNat = .memory) :
    controllerWrite addr data s = s.store addr.toNat data := by
  unfold controllerWrite; rw [h]

theorem controllerWrite_indexPage (h : s.classOf addr.toNat = .indexPage) :
    controllerWrite addr data s = latchWords addr.toNat data (s.store addr.toNat data) := by
  unfold controllerWrite; rw [h]

theorem controllerWrite_ownerless
    (h : s.classOf addr.toNat = .partOwned
      ∨ (∃ i, s.classOf addr.toNat = .streamAperture i ∧ s.streams[i].phase = .free)
      ∨ (∃ n, s.classOf addr.toNat = .returnRing n ∧ s.lanes[n].role ≠ .read)) :
    controllerWrite addr data s = refuseWrite addr s := by
  unfold controllerWrite
  obtain h | ⟨i, h, hf⟩ | ⟨n, h, hr⟩ := h
  · rw [h]
  · rw [h]; exact if_pos hf
  · rw [h]; exact if_neg hr

theorem controllerWrite_stream {l : Layout} {i : StreamId} (hl : s.wd.layout = some l)
    (h : s.classOf addr.toNat = .streamAperture i) (hf : s.streams[i].phase ≠ .free) :
    controllerWrite addr data s = streamWrite i l.apertures[i] addr data s := by
  unfold controllerWrite
  rw [h, hl]; exact if_neg hf

theorem controllerWrite_ring {l : Layout} {n : LaneId} (hl : s.wd.layout = some l)
    (h : s.classOf addr.toNat = .returnRing n) (hr : s.lanes[n].role = .read) :
    controllerWrite addr data s = ringDataWrite n l.rings[n] addr data s := by
  unfold controllerWrite
  rw [h, hl]; exact if_pos hr

end Transaction

/-- A write that covers no index word whole latches nothing. -/
theorem latchWords_none {addr : Nat} {data : List Byte} (s : State)
    (h : ∀ index : Nat, indexWord index → ¬ (addr ≤ index ∧ index + 4 ≤ addr + data.length)) :
    latchWords addr data s = s := by
  have keep (index : Nat) (l : Latch) (hi : indexWord index) : latchAfter addr data index l = l := if_neg (h index hi)
  have hv : (Vector.ofFn fun k : Fin 8 => latchAfter addr data (0x8020 + 4 * k.val) s.wd.restoreConsumerLatch[k])
      = s.wd.restoreConsumerLatch := by
    ext j hj
    rw [Vector.getElem_ofFn]
    exact keep _ _ (.inr (.inr (.inr ⟨⟨j, hj⟩, rfl⟩)))
  unfold latchWords
  rw [keep _ _ (.inl rfl), keep _ _ (.inr (.inl rfl)), keep _ _ (.inr (.inr (.inl rfl))), hv]

/-- Settles O5: a passed write is a store, and latches no index word that it does not cover whole. -/
theorem controllerWritePasses : Obligations.ControllerWritePasses := by
  intro s addr data hs ht hc
  have e : controllerWrite addr data s = s.store addr.toNat data := by
    rcases hc with hc | ⟨hc, hi⟩
    · exact controllerWrite_memory hc
    · rw [controllerWrite_indexPage hc, latchWords_none _ hi]
  obtain ⟨b, hb⟩ := runStep_next s _ _ hs e
  exact ⟨_, (exec_controllerWrite ht).trans hb, memWrite_written .., rfl⟩

/-- Settles O6: the three write commands share the decoding by address, and a write with no owner is refused there. -/
theorem ownerlessWriteDropped : Obligations.OwnerlessWriteDropped := by
  intro s addr data c hs ht hc hm
  have hx : exec c s = runStep s (controllerWrite addr data) := by
    simp only [List.mem_cons, List.not_mem_nil, or_false] at hm
    rcases hm with rfl | rfl | rfl
    · exact exec_controllerWrite ht
    · exact exec_indexWordWrite ht
    · exact exec_apertureWrite ht
  rw [hx, ← satInc_eq]
  exact runStep_next s _ _ hs (controllerWrite_ownerless hc)

/-! ## Index words -/

/-- Bytes that a write covers read back as that part of what was written. -/
theorem memBytes_memWrite (m : List Host.Cell) {a x n : Nat} {bs : List Byte} (ha : a ≤ x) (hx : x + n ≤ a + bs.length) :
    memBytes (memWrite m a bs) x n = (bs.drop (x - a)).take n := by
  refine List.ext_getElem (by simp [memBytes]; omega) fun i hi _ => ?_
  have hn : i < n := by simpa [memBytes] using hi
  have he : x + i = a + (x - a + i) := by omega
  simp only [memBytes, List.getElem_map, List.getElem_range, List.getElem_take, List.getElem_drop]
  rw [he]
  exact memRead_memWrite_inside m a bs _ (by omega)

/-- An index word covered whole is latched with its value in memory; any other keeps its latch. -/
theorem latchAfter_memory (m : List Host.Cell) (a : Nat) (bs : List Byte) (index : Nat) (l : Latch) :
    (a ≤ index ∧ index + 4 ≤ a + bs.length →
        latchAfter a bs index l = { value := memWord (memWrite m a bs) index, pending := true })
      ∧ (¬ (a ≤ index ∧ index + 4 ≤ a + bs.length) → latchAfter a bs index l = l) := by
  refine ⟨fun h => ?_, fun h => if_neg h⟩
  rw [memWord, memBytes_memWrite m h.1 h.2]
  exact if_pos h

/-- Settles O7: each latch of the index page after the write is `latchAfter` of its word. -/
theorem indexWordLatched : Obligations.IndexWordLatched := by
  intro s addr data hs ht hc
  obtain ⟨b, hb⟩ := runStep_next s _ _ hs (controllerWrite_indexPage (data := data) hc)
  refine ⟨_, (exec_indexWordWrite ht).trans hb, memWrite_written .., rfl, fun index before after h => ?_⟩
  rw [List.mem_append] at h
  rcases h with h | h
  · simp only [List.mem_cons, List.not_mem_nil, or_false, Prod.mk.injEq] at h
    rcases h with ⟨rfl, rfl, rfl⟩ | ⟨rfl, rfl, rfl⟩ | ⟨rfl, rfl, rfl⟩
    · exact latchAfter_memory s.mem addr.toNat data 0x8000 s.wd.requestProducerLatch
    · exact latchAfter_memory s.mem addr.toNat data 0x8004 s.wd.reportConsumerLatch
    · exact latchAfter_memory s.mem addr.toNat data 0x8008 s.wd.catalogConsumerLatch
  · obtain ⟨k, -, hk⟩ := List.mem_map.mp h
    simp only [Prod.mk.injEq] at hk
    obtain ⟨rfl, rfl, rfl⟩ := hk
    have := latchAfter_memory s.mem addr.toNat data (0x8020 + 4 * k.val) s.wd.restoreConsumerLatch[k]
    simpa [withStale, latchWords] using this

/-! ## Aperture offsets -/

/-- Settles O8: the displacement is the residue of position minus E, taken in the half-open interval about 0. -/
theorem apertureOffsetNearest : Obligations.ApertureOffsetNearest := by
  intro a w addr hpos heven hbase
  unfold Aperture.displacement
  dsimp only
  have hd := Nat.mod_lt ((addr - w.base) + w.size - a.expected.toNat % w.size) hpos
  have he := Nat.mod_lt a.expected.toNat hpos
  have hq := Nat.div_add_mod ((addr - w.base) + w.size - a.expected.toNat % w.size) w.size
  have hq' := Nat.div_add_mod a.expected.toNat w.size
  generalize ((addr - w.base) + w.size - a.expected.toNat % w.size) % w.size = d at *
  generalize ((addr - w.base) + w.size - a.expected.toNat % w.size) / w.size = q at *
  generalize a.expected.toNat % w.size = e at *
  generalize a.expected.toNat / w.size = q' at *
  have hcong (x : Int) (hx : x = 0 ∨ x = -(w.size : Int)) :
      ((a.expected.toNat : Int) + (d + x) - ((addr : Int) - (w.base : Int))) % (w.size : Int) = 0 := by
    have h1 : (w.size : Int) * q + d = addr - w.base + w.size - e := by
      have : w.size * q + d + e + w.base = addr + w.size := by omega
      zify at this
      linarith
    have h2 : (w.size : Int) * q' + e = a.expected.toNat := by exact_mod_cast hq'
    rcases hx with rfl | rfl
    · exact Int.emod_eq_zero_of_dvd ⟨q' - q + 1, by linarith [mul_add (w.size : Int) (q' - q) 1, mul_sub (w.size : Int) q' q]⟩
    · exact Int.emod_eq_zero_of_dvd ⟨q' - q, by linarith [mul_sub (w.size : Int) q' q]⟩
  split
  · refine ⟨by omega, by omega, ?_⟩
    simpa using hcong 0 (.inl rfl)
  · exact ⟨by omega, by omega, by simpa [sub_eq_add_neg] using hcong _ (.inr rfl)⟩

end Sys2Proof.Proofs.Windows
end

section
/-! PROOFS. Nothing that follows a final-byte read touches the data the read returns. -/
namespace Sys2Proof.Proofs.ReadData
open Sys2Proof Sys2Proof.Machine Sys2Proof.Safety Sys2Proof.Laws

variable (s : State)

theorem foldl_readData {α : Type} (f : State → α → State) (hf : ∀ s x, (f s x).readData = s.readData) (xs : List α)
    (s : State) : (xs.foldl f s).readData = s.readData := by
  induction xs generalizing s with
  | nil => rfl
  | cons x xs ih => exact (ih _).trans (hf s x)

/-! ## The packer -/

@[simp] theorem writePayload_readData (n : LaneId) (bs : List Byte) : (writePayload n bs s).readData = s.readData := by
  unfold writePayload; split <;> rfl

@[simp] theorem completeFrame_readData (n : LaneId) (pad : Bool) (k : Nat) :
    (completeFrame n pad k s).readData = s.readData := by
  unfold completeFrame; split
  · rfl
  · dsimp only; split <;> rfl

@[simp] theorem fillFrame_readData (n : LaneId) (pad : Bool) : (fillFrame n pad s).readData = s.readData := by
  unfold fillFrame; split
  · rfl
  · exact (completeFrame_readData ..).trans (writePayload_readData ..)

@[simp] theorem fillFrames_readData (n : LaneId) (k : Nat) : (fillFrames n k s).readData = s.readData := by
  induction k generalizing s with
  | zero => rfl
  | succ k ih => exact (ih _).trans (fillFrame_readData ..)

@[simp] theorem closeGroup_readData (n : LaneId) (c : CloseReason) : (closeGroup n c s).readData = s.readData := by
  unfold closeGroup; split
  · rfl
  · exact post_readData ..

@[simp] theorem padClose_readData (n : LaneId) (c : CloseReason) : (padClose n c s).readData = s.readData := by
  unfold padClose; split
  · rfl
  · exact (closeGroup_readData ..).trans (fillFrames_readData ..)

@[simp] theorem closeOrPend_readData (n : LaneId) (c : CloseReason) : (closeOrPend n c s).readData = s.readData := by
  unfold closeOrPend; split
  · rfl
  · split
    · rfl
    · exact padClose_readData ..

/-! ## Lane Units and the Job Table -/

@[simp] theorem endClaim_readData (n : LaneId) : (endClaim n s).readData = s.readData := by unfold endClaim; split <;> rfl

@[simp] theorem laneIdle_readData (n : LaneId) : (laneIdle n s).readData = s.readData := endClaim_readData _ n

@[simp] theorem idleTest_readData (n : LaneId) : (idleTest n s).readData = s.readData := by
  unfold idleTest; split
  · exact laneIdle_readData _ n
  · rfl

@[simp] theorem flushTest_readData (n : LaneId) : (flushTest n s).readData = s.readData := by
  unfold flushTest; split
  · exact padClose_readData ..
  · rfl

@[simp] theorem laneSignal_readData (n : LaneId) (x : LaneSignal) : (laneSignal n x s).readData = s.readData := by
  unfold laneSignal; split
  · rfl
  · cases x with
    | flushTest => exact flushTest_readData ..
    | idleTest => exact idleTest_readData ..

@[simp] theorem signalUnbind_readData (n : LaneId) : (signalUnbind n s).readData = s.readData := by
  unfold signalUnbind; split
  · rfl
  · unfold unbindFramer; dsimp only; split
    · split <;> rfl
    · rfl

@[simp] theorem giveUpBuffer_readData (i : StreamId) (stop : Bool) (b : Fin 2) :
    (giveUpBuffer i stop s b).readData = s.readData := by
  unfold giveUpBuffer; split
  case h_6 => split <;> rfl
  all_goals rfl

@[simp] theorem giveUpStream_readData (i : StreamId) (stop : Bool) : (giveUpStream i stop s).readData = s.readData :=
  foldl_readData _ (fun _ _ => giveUpBuffer_readData ..) _ s

@[simp] theorem freeStream_readData (i : StreamId) : (freeStream i s).readData = s.readData := by
  unfold freeStream
  rw [setStreamAperture_readData, modStream_readData, giveUpStream_readData]

@[simp] theorem cutOffJob_readData (k : SlotId) : (cutOffJob s k).readData = s.readData := by
  unfold cutOffJob streamClosing
  simp only [modJob_readData, recomputeLimit_readData, modStream_readData, giveUpStream_readData]

@[simp] theorem freeSlot_readData (k : SlotId) : (freeSlot k s).readData = s.readData := by
  unfold freeSlot
  dsimp only
  split
  · exact (laneSignal_readData ..).trans (freeStream_readData ..)
  all_goals exact (signalUnbind_readData ..).trans (laneIdle_readData ..)

@[simp] theorem endJob_readData (k : SlotId) (o : JobOutcome) : (endJob k o s).readData = s.readData := by
  unfold endJob
  dsimp only
  split
  · exact (freeSlot_readData ..).trans (post_readData ..)
  · exact post_readData ..

@[simp] theorem takeFlushTest_readData (k : SlotId) : (takeFlushTest k s).1.readData = s.readData := by
  unfold takeFlushTest
  dsimp only
  split
  · exact laneSignal_readData ..
  · rfl

@[simp] theorem dueCheck_readData (k : SlotId) : (dueCheck k s).readData = s.readData := by unfold dueCheck; split <;> rfl

@[simp] theorem takeJobSignal_readData (x : JobSignal) : (takeJobSignal x s).1.readData = s.readData := by
  cases x with
  | flushTest k => exact takeFlushTest_readData ..
  | released n g => rfl
  | fullSet n => exact foldl_readData _ (fun _ _ => cutOffJob_readData ..) _ s
  | endCondition k =>
    rw [takeJobSignal]
    split
    · exact dueCheck_readData ..
    · rfl
  | evaluationDone k => rfl
  | ending k o =>
    rw [takeJobSignal]
    dsimp only
    split
    · exact endJob_readData ..
    · rfl

@[simp] theorem takeJobSignals_readData (m : Nat) : (takeJobSignals m s).readData = s.readData := by
  induction m generalizing s with
  | zero => rfl
  | succ m ih =>
    unfold takeJobSignals
    split
    · rfl
    · split
      · rfl
      · exact (ih _).trans (takeJobSignal_readData ..)

@[simp] theorem jobSignals_readData (xs : List JobSignal) : (jobSignals xs s).readData = s.readData :=
  takeJobSignals_readData ..

/-! ## Releases -/

@[simp] theorem catalogSweep_readData (f : List Byte → Option RecordState) : (catalogSweep f s).1.readData = s.readData := by
  unfold catalogSweep; split <;> rfl

@[simp] theorem raiseWritten_readData (n : LaneId) : (raiseWritten n s).readData = s.readData := by
  unfold raiseWritten; split <;> rfl

@[simp] theorem starveTest_readData (n : LaneId) : (starveTest n s).readData = s.readData := by
  unfold starveTest
  dsimp only
  split
  · rfl
  · split
    · exact closeOrPend_readData ..
    · rfl

theorem releaseGroup_readData (n : LaneId) (k : Nat) (g : Word) : (releaseGroup n k g s).readData = s.readData := by
  unfold releaseGroup settleLane
  dsimp only
  split <;> simp [enforceRetain]

theorem finalByteSignal_readData (n : LaneId) (k : Nat) : (finalByteSignal n k s).readData = s.readData := by
  unfold finalByteSignal
  split
  · rfl
  · unfold takeFinalByte
    dsimp only
    split
    · split
      · exact releaseGroup_readData ..
      · rfl
    all_goals rfl

theorem controllerRead_readData (addr : Word) (length now : Nat) :
    (controllerRead addr length now s).readData = memBytes s.mem addr.toNat length := by
  unfold controllerRead
  dsimp only
  split
  · rfl
  · exact finalByteSignal_readData ..

theorem controllerRead_none (addr : Word) (length now : Nat) (h : s.finalByteOf (addr.toNat + length - 1) = none) :
    controllerRead addr length now s =
      { s.observeTime now with readData := memBytes s.mem addr.toNat length } := by
  unfold controllerRead
  dsimp only
  split
  · rfl
  next p hp => exact absurd (h.symm.trans hp) (by simp)

/-- Settles O12: the read data is memory's, and what follows a final byte leaves it. -/
theorem readReturnsMemory : Obligations.ReadReturnsMemory := by
  intro s addr length now hs ht
  obtain ⟨b, hb⟩ := runStep_next s _ (controllerRead addr length now) hs rfl
  have hd : (withStale b (controllerRead addr length now s)).readData = memBytes s.mem addr.toNat length :=
    controllerRead_readData s addr length now
  refine ⟨_, (if_pos ht : exec (.finalByteRead addr length now) s = _).trans hb, by rw [hd]; simp [memBytes], ?_, fun hf => ?_⟩
  · rw [hd]
    intro i hi
    simp [memBytes]
  · rw [controllerRead_none s addr length now hf]
    rfl

end Sys2Proof.Proofs.ReadData
end

section
/-! PROOFS. Requests (02): the request at the head of the ring is refused before its owner, refused by its owner, or accepted,
said once for every request row; then the statements of chapter 2 that follow from it. -/
namespace Sys2Proof.Proofs.Requests
open Sys2Proof Sys2Proof.Machine Sys2Proof.Safety Sys2Proof.Laws

/-! ## A request row runs the Request Engine on what it samples -/

/-- The function that a request row runs. -/
theorem exec_requestRow {c : Instr} {kind : RequestKind} (s : State) (h : requestRow c = some kind) :
    exec c s = runStep s fun s => requestCommand (some kind) (sampled c s) := by
  cases c <;> cases h <;> rfl

theorem sampled_cases (c : Instr) (s : State) :
    sampled c s = s ∨ (∃ now, sampled c s = s.observeTime now) ∨ ∃ x, sampled c s = s.observe x := by
  unfold sampled
  split
  · exact .inr (.inl ⟨_, rfl⟩)
  all_goals first | exact .inl rfl | exact .inr (.inr ⟨_, rfl⟩)

variable {s : State} {c : Instr} {kind : RequestKind} {r : List Byte} {code : Code}

theorem requestNext_sampled (h : RequestNext s (some kind) r) : RequestNext (sampled c s) (some kind) r := by
  rcases sampled_cases c s with e | ⟨now, e⟩ | ⟨x, e⟩ <;> rw [e]
  · exact h
  · exact ⟨h.outOfReset, h.engineFree, h.nothingInHand, h.untaken, h.isRecord, h.isKind, h.room⟩
  · exact ⟨h.outOfReset, h.engineFree, h.nothingInHand, h.untaken, h.isRecord, h.isKind, h.room⟩

theorem preCheck_sampled : (sampled c s).preCheck kind r = s.preCheck kind r := by
  rcases sampled_cases c s with e | ⟨now, e⟩ | ⟨x, e⟩ <;> rw [e] <;> rfl

/-- The state in which a request is decided: its reservation is held. -/
def reserved (r : List Byte) (s : State) : State :=
  { s with re := { s.re with
    reservation := true, inHand := some (({ bytes := r, reserved := false } : InHand).reserve s) } }

theorem answered_reserved : answered code r (reserved r s) = answered code r s := rfl

theorem decision_reserved (h : kind ≠ .laneReset) : (reserved r s).decision kind r = s.decision kind r := by
  cases kind
  case laneReset => exact absurd rfl h
  all_goals rfl

theorem ownerReady_reserved : (reserved r s).ownerReady kind r = s.ownerReady kind r := by
  cases kind <;> rfl

/-- The request that is next is decided in the reserved state. -/
theorem requestCommand_reserved (h : RequestNext s (some kind) r) :
    requestCommand (some kind) s = decideRequest r (reserved r s) := requestCommand_next s _ r h

theorem requestCommand_badArgument (h : RequestNext s (some kind) r) (hp : s.preCheck kind r = false) :
    requestCommand (some kind) s = answered .badArgument r s := by
  rw [requestCommand_reserved h, decideRequest_spec r kind _ h.isKind,
    show (reserved r s).preCheck kind r = false from hp]
  rfl

theorem requestCommand_error (h : RequestNext s (some kind) r) (hp : s.preCheck kind r = true)
    (ho : s.ownerReady kind r = true) (hd : (reserved r s).decision kind r = .error code) :
    requestCommand (some kind) s = answered code r s := by
  rw [requestCommand_reserved h, decideRequest_spec r kind _ h.isKind,
    show (reserved r s).preCheck kind r = true from hp, ownerReady_reserved, ho, hd]
  rfl

theorem requestCommand_ok {f : State → State} (h : RequestNext s (some kind) r) (hp : s.preCheck kind r = true)
    (ho : s.ownerReady kind r = true) (hd : (reserved r s).decision kind r = .ok f) :
    requestCommand (some kind) s = f (answered .done r s) := by
  rw [requestCommand_reserved h, decideRequest_spec r kind _ h.isKind,
    show (reserved r s).preCheck kind r = true from hp, ownerReady_reserved, ho, hd]
  rfl

/-- The owner is ready whatever the row samples. -/
theorem ownerReady_sampled : (sampled c s).ownerReady kind r = s.ownerReady kind r := by
  rcases sampled_cases c s with e | ⟨now, e⟩ | ⟨x, e⟩ <;> rw [e] <;> cases kind <;> rfl

/-- A request that fails a check of R20 is answered BAD_ARGUMENT. -/
theorem request_badArgument (hc : requestRow c = some kind) (h : RequestNext s (some kind) r)
    (hp : s.preCheck kind r = false) : ∃ b, exec c s = .next (withStale b (answered .badArgument r (sampled c s))) := by
  rw [exec_requestRow s hc]
  exact runStep_next s _ _ h.outOfReset
    (requestCommand_badArgument (requestNext_sampled h) (preCheck_sampled.trans hp))

/-- A request that its owner refuses is answered with the owner's code. -/
theorem request_refused {u : State} (hu : sampled c s = u) (hc : requestRow c = some kind)
    (h : RequestNext s (some kind) r) (hp : s.preCheck kind r = true) (ho : s.ownerReady kind r = true)
    (hd : u.decision kind r = .error code) : ∃ b, exec c s = .next (withStale b (answered code r u)) := by
  subst hu
  have hk : kind ≠ .laneReset := by rintro rfl; cases hd
  rw [exec_requestRow s hc]
  exact runStep_next s _ _ h.outOfReset (requestCommand_error (requestNext_sampled h) (preCheck_sampled.trans hp)
    (ownerReady_sampled.trans ho) ((decision_reserved hk).trans hd))

theorem request_decided {u : State} {f : State → State} (hu : sampled c s = u) (hc : requestRow c = some kind)
    (h : RequestNext s (some kind) r) (hp : s.preCheck kind r = true) (ho : s.ownerReady kind r = true)
    (hd : (reserved r u).decision kind r = .ok f) : ∃ b, exec c s = .next (withStale b (f (answered .done r u))) := by
  subst hu
  rw [exec_requestRow s hc]
  exact runStep_next s _ _ h.outOfReset
    (requestCommand_ok (requestNext_sampled h) (preCheck_sampled.trans hp) (ownerReady_sampled.trans ho) hd)

/-- A request that its owner accepts is answered, and its effects follow. -/
theorem request_accepted {u : State} {f : State → State} (hk : kind ≠ .laneReset) (hu : sampled c s = u)
    (hc : requestRow c = some kind) (h : RequestNext s (some kind) r) (hp : s.preCheck kind r = true)
    (ho : s.ownerReady kind r = true) (hd : u.decision kind r = .ok f) :
    ∃ b, exec c s = .next (withStale b (f (answered .done r u))) :=
  request_decided hu hc h hp ho ((decision_reserved hk).trans hd)

theorem decision_laneReset (s : State) (r : List Byte) : s.decision .laneReset r =
    .ok (if s.resetMetEvaluation then id else laneReset (laneOf (argByte r 4))) := rfl

/-- A LANE_RESET acts as R87 says while the Job Table waits on no post. -/
theorem request_laneReset (h : RequestNext s (some .laneReset) r) (hp : s.preCheck .laneReset r = true)
    (ho : s.ownerReady .laneReset r = true) :
    ∃ b, exec .laneReset s = .next (withStale b (laneReset (laneOf (argByte r 4)) (answered .done r s))) := by
  have hj : s.waiting .jobTable = false := by
    simp only [State.ownerReady, Bool.and_eq_true, Bool.not_eq_true'] at ho
    exact ho.1.1
  have hm : (reserved r s).resetMetEvaluation = false := by
    simp [State.resetMetEvaluation, reserved, reserve_free _ hj]
  have hd := decision_laneReset (reserved r s) r
  rw [hm, if_neg Bool.false_ne_true] at hd
  exact request_decided rfl rfl h hp ho hd

/-! ## Refusals -/

/-- Settles O16. -/
theorem refusalHasNoOtherEffect : Obligations.RefusalHasNoOtherEffect := by
  intro c kind s r code hc h hp ho hd
  exact request_refused rfl hc h hp ho hd

theorem preCheck_eq_false_iff : s.preCheck kind r = false ↔
    (kind ∈ [.laneSet, .writeStart, .verifyStart, .restoreStart, .laneResync, .laneReset] ∧ s.driveCount ≤ recordLane kind r)
      ∨ (kind = .writeStart ∧ 4 ≤ argByte r 4)
      ∨ (kind ∈ [.writeStart, .verifyStart, .restoreStart, .move, .mount, .dismount, .inventory, .pickerPut]
          ∧ ¬ (1 ≤ recordTag r ∧ recordTag r ≤ 255)) := by
  have hl : kind.namesLane = true ↔ kind ∈ [.laneSet, .writeStart, .verifyStart, .restoreStart, .laneResync, .laneReset] := by
    cases kind <;> decide
  have ht : kind.namesTag = true ↔
      kind ∈ [.writeStart, .verifyStart, .restoreStart, .move, .mount, .dismount, .inventory, .pickerPut] := by
    cases kind <;> decide
  rw [← hl, ← ht]
  simp only [State.preCheck, Bool.and_eq_false_iff, Bool.or_eq_false_iff, Bool.not_eq_false', decide_eq_false_iff_not,
    not_not, not_lt, or_assoc]

/-- Settles O15: an unknown kind is answered before anything is checked, and a failed check before the owner. -/
theorem earlyChecksRefuse : Obligations.EarlyChecksRefuse := by
  refine ⟨fun s r h => ?_, fun c kind s r hc h hb => request_badArgument hc h (preCheck_eq_false_iff.mpr hb)⟩
  refine runStep_next s _ (requestCommand none) h.outOfReset ?_
  rw [requestCommand_next _ _ r h]
  unfold decideRequest
  rw [h.isKind]
  rfl

end Sys2Proof.Proofs.Requests
end

section
/-! PROOFS. Consumer and producer counts, reports, settings and the loader's resume (02, 06, 08, 10). -/
namespace Sys2Proof.Proofs.Requests
open Sys2Proof Sys2Proof.Machine Sys2Proof.Safety Sys2Proof.Laws

/-! ## Latches -/

theorem post_room {unit : Poster} {r : Report} {s : State} (h : s.re.hasRoom = true) :
    post unit r s = { s with re := { s.re with backlog := s.re.backlog ++ [r] } } := if_pos h

/-- Settles O14: each latch is judged by its distance and taken, or its RING_FAULT is posted or kept. -/
theorem requestLatchesTaken : Obligations.RequestLatchesTaken := by
  constructor
  · intro s hs hp hw hr
    refine runStep_next s _ requestProducerTake hs ?_
    rw [requestProducerTake, if_pos ⟨hp, by simp [hw]⟩]
    by_cases ht : (s.wd.requestProducerLatch.value - s.re.consumer).toNat ≤ 256
    · rw [if_pos ht]; exact if_pos ht
    · rw [if_neg ht]; exact (if_neg ht).trans (post_room hr)
  · intro s hs hp v fault taken hc
    refine runStep_next s _ reportConsumerTake hs ?_
    rw [reportConsumerTake, if_pos hp]
    by_cases ht : taken
    · rw [if_pos ht]; exact if_pos ht
    · rw [if_neg ht]
      refine (if_neg ht).trans ?_
      cases hw : s.waiting .requestEngine
      · have hr : s.re.hasRoom = true := (hc.resolve_left ht).resolve_left (by simp [hw])
        exact (if_neg (c := s.waiting .requestEngine = true) (by simp [hw])).trans (post_room hr)
      · exact if_pos hw

/-- Settles O22: both consumer latches are judged by their distance from the count they move. -/
theorem consumerLatchesTaken : Obligations.ConsumerLatchesTaken := by
  refine ⟨?_, fun s k hs hp => ⟨fun h => ?_, fun h => ?_⟩⟩
  · intro s hs hp ho v taken room
    refine runStep_next s _ catalogConsumerTake hs ?_
    rw [catalogConsumerTake, if_pos (by simp [State.catalogTakeReady, hp, ho])]
    by_cases ht : taken
    · rw [if_pos ht]; exact if_pos ht
    · rw [if_neg ht]; exact if_neg ht
  · refine runStep_next s _ (restoreConsumerTake k) hs ?_
    rw [restoreConsumerTake, if_pos ⟨hp, h⟩]
    by_cases ht : (s.wd.restoreConsumerLatch[k].value - s.de.slots[k].consumer).toNat
        ≤ (s.de.slots[k].producer - s.de.slots[k].consumer).toNat
    · rw [if_pos ht]; exact if_pos ht
    · rw [if_neg ht]; exact if_neg ht
  · refine runStep_next s _ (restoreConsumerTake k) hs (if_neg ?_)
    rintro ⟨-, hl, hk⟩
    rcases h with h | h
    · rw [h] at hl; cases hl
    · exact h hk

/-! ## Reports -/

theorem leBytes_length (n x : Nat) : (leBytes n x).length = n := by
  induction n generalizing x with
  | zero => rfl
  | succ n ih => simp [leBytes, ih]

theorem padded_length {size : Nat} {bs : List Byte} (h : bs.length ≤ size) : (padded size bs).length = size := by
  simp only [padded, zeroBytes, List.length_append, List.length_replicate]
  omega

theorem labelBytes_length (l : Option Label) : (labelBytes l).length = 8 := by cases l <;> simp [labelBytes, zeroBytes]

theorem stationByte_length (i : Option Int) : (stationByte i).length = 1 := by cases i <;> rfl

theorem jobCounterBytes_length (r : JobRecord) (o : JobOutcome) : (jobCounterBytes r o).length = 24 := by
  cases hk : r.kind <;> cases o <;> simp [jobCounterBytes, hk, long, word, leBytes_length]

theorem reportFields_length (r : Report) : (reportFields r).length ≤ 32 := by
  cases r <;> simp [reportFields, byte1, half, word, leBytes_length, labelBytes_length, stationByte_length,
    jobCounterBytes_length]

/-- Settles O19: the report is stored at the slot of P, and a full ring leaves everything. -/
theorem reportWritten : Obligations.ReportWritten := by
  intro s report rest hs hb
  refine ⟨fun h => ?_, fun h => runStep_next s _ reportWrite hs ?_⟩
  · have e : reportWrite s = { s.store (0x4000 + 32 * (s.re.producer.toNat % 512)) (reportBytes report) with
        re := { s.re with producer := s.re.producer + 1, backlog := rest } } := by
      unfold reportWrite
      rw [hb]
      exact if_pos h
    obtain ⟨b, hb⟩ := runStep_next s _ reportWrite hs e
    exact ⟨_, hb, memWrite_written .., padded_length (reportFields_length report), rfl⟩
  · unfold reportWrite
    rw [hb]
    exact if_neg (not_lt.mpr h)

/-! ## The loader's resume -/

theorem ownerReady_loader {s : State} (h : loaderFree s) : s.loaderWaits = false := by
  simp [State.loaderWaits, h.1, h.2]

/-- Settles O54. -/
theorem loaderResumes : Obligations.LoaderResumes := by
  intro s r h hf a
  have ho : s.ownerReady .loaderResume r = true := by simp [State.ownerReady, ownerReady_loader hf]
  have hx := request_accepted (c := .loaderResume) (u := s) (f := resumeLoader) (by decide) rfl rfl h rfl ho rfl
  refine ⟨fun hh => ?_, fun hh => ?_⟩
  · rwa [show resumeLoader (answered .done r s) = _ from if_pos hh] at hx
  · rwa [show resumeLoader (answered .done r s) = _ from if_neg hh] at hx

end Sys2Proof.Proofs.Requests
end

section
/-! PROOFS. Job starts and CARTRIDGE_SET (03, 09): a table of refusals is read one row at a time, the first that holds
deciding; when none holds the acceptance follows. -/
namespace Sys2Proof.Proofs.Requests
open Sys2Proof Sys2Proof.Machine Sys2Proof.Safety Sys2Proof.Laws

/-! ## Tables of refusals -/

/-- A decision is refused with the first code of a table whose condition holds. -/
def RefusesBy {α : Type} (x : Except Code α) (table : List (Prop × Code)) : Prop :=
  ∀ code, firstHolds code table → x = .error code

theorem refusesBy_nil {α : Type} {x : Except Code α} : RefusesBy x [] := fun _ h => h.elim

theorem refusesBy_cons {α : Type} {x : Except Code α} {p : Prop} {c : Code} {table : List (Prop × Code)}
    (hp : p → x = .error c) (hn : ¬ p → RefusesBy x table) : RefusesBy x ((p, c) :: table) := by
  rintro code (⟨h, rfl⟩ | ⟨h, ht⟩)
  · exact hp h
  · exact hn h code ht

/-! ## The lowest number with a property -/

theorem finFilter_head?_eq_some {n : Nat} {p : Fin n → Bool} {k : Fin n} :
    (finFilter n p).head? = some k ↔ p k = true ∧ ∀ j, j.val < k.val → p j = false := by
  rw [finFilter, List.head?_filter, List.find?_eq_some_iff_getElem]
  refine and_congr_right fun _ => ⟨?_, fun h => ⟨k.val, by simp, by simp, fun j hj => ?_⟩⟩
  · rintro ⟨i, hi, hk, h⟩ j hj
    have hik : i = k.val := by simpa [Fin.ext_iff] using hk
    have := h j.val (by omega)
    simpa using this
  · simpa using h ⟨j, by omega⟩ hj

theorem finFilter_eq_nil {n : Nat} {p : Fin n → Bool} : finFilter n p = [] ↔ ∀ k, p k = false := by
  simp [finFilter, List.filter_eq_nil_iff]

theorem finFilter_head?_eq_none {n : Nat} {p : Fin n → Bool} : (finFilter n p).head? = none ↔ ∀ k, p k = false := by
  rw [List.head?_eq_none_iff, finFilter_eq_nil]

variable {s : State} {r : List Byte} {n : LaneId}

theorem freeJobSlot_of_lowestFree {k : SlotId} (h : lowestFree s k) : s.freeJobSlot = some k :=
  finFilter_head?_eq_some.mpr ⟨by simpa using h.1, fun j hj => by simpa using h.2 j hj⟩

theorem jobByTag_eq_none {tag : Nat} (h : ∀ k : SlotId, s.jt.jobs[k].live = true → s.jt.jobs[k].record.tag.toNat ≠ tag) :
    s.jobByTag tag = none := by
  unfold State.jobByTag
  rw [finFilter_eq_nil.mpr]
  intro k
  simpa using h k

theorem jobByTag_isSome {tag : Nat} {k : SlotId} (hl : s.jt.jobs[k].live = true)
    (ht : s.jt.jobs[k].record.tag.toNat = tag) : (s.jobByTag tag).isSome := by
  unfold State.jobByTag
  split
  next h => exact absurd (finFilter_eq_nil.mp h k) (by simpa using ⟨hl, ht⟩)
  · rfl

theorem laneOf_val (n : LaneId) : laneOf n.val = n := Fin.ext (Nat.mod_eq_of_lt n.isLt)

/-! ## The checks that every start begins with -/

/-- The start checks refuse by the shared table. -/
theorem startSlot_refuses (s : State) (r : List Byte) : RefusesBy (s.startSlot (recordTag r)) (startRefusals s r) := by
  unfold State.startSlot
  refine refusesBy_cons (fun h => if_pos (by simp [h])) fun hl => ?_
  rw [if_neg (by simpa using hl)]
  refine refusesBy_cons (fun ⟨k, hk, ht⟩ => if_pos (jobByTag_isSome hk ht)) fun ht => ?_
  rw [jobByTag_eq_none fun k hk h => ht ⟨k, hk, h⟩, if_neg (by simp)]
  refine refusesBy_cons (fun h => ?_) fun _ => refusesBy_nil
  rw [show s.freeJobSlot = none from finFilter_head?_eq_none.mpr fun k => by simpa using h k]

theorem startSlot_ok {k : SlotId} (h : noneHolds (startRefusals s r)) (hk : lowestFree s k) :
    s.startSlot (recordTag r) = .ok k := by
  obtain ⟨hl, ht, -⟩ := h
  unfold State.startSlot
  rw [if_neg (by simpa using hl), jobByTag_eq_none fun k hk h => ht ⟨k, hk, h⟩, if_neg (by simp),
    freeJobSlot_of_lowestFree hk]

theorem startCart_refuses (s : State) (n : LaneId) : RefusesBy (s.startCart n) (driveRefusals s n) := by
  unfold State.startCart State.driveCart
  refine refusesBy_cons (fun h => ?_) fun h => refusesBy_cons (fun hp => ?_) fun _ => refusesBy_nil
  · cases hs : s.cd.places[drivePlace n].state with
    | occupied c => exact absurd hs (h c)
    | _ => rfl
  · simp only [ne_eq, not_forall, not_not] at h
    obtain ⟨c, hc⟩ := h
    rw [hc]
    exact if_pos (Option.isSome_iff_ne_none.mpr hp)

theorem startCart_ok {c : CartId} (h : noneHolds (driveRefusals s n)) (hc : s.cd.places[drivePlace n].state = .occupied c) :
    s.startCart n = .ok c := by
  obtain ⟨-, hp, -⟩ := h
  unfold State.startCart State.driveCart
  rw [hc]
  exact if_neg (by simpa using hp)

theorem firstHolds_append {α : Type} {code : α} {xs ys : List (Prop × α)} :
    firstHolds code (xs ++ ys) ↔ firstHolds code xs ∨ (noneHolds xs ∧ firstHolds code ys) := by
  induction xs with
  | nil => simp [firstHolds, noneHolds]
  | cons x xs ih =>
    obtain ⟨p, c⟩ := x
    simp only [List.cons_append, firstHolds, noneHolds, ih]
    tauto

theorem noneHolds_append {α : Type} {xs ys : List (Prop × α)} : noneHolds (xs ++ ys) ↔ noneHolds xs ∧ noneHolds ys := by
  induction xs with
  | nil => simp [noneHolds]
  | cons x xs ih => simp only [List.cons_append, noneHolds, ih, and_assoc]

/-- A cartridge in the drive has a record, or the drive's condition fails whatever is asked. -/
theorem inDrive_occupied {c : CartId} {p : CartRecord → Prop} (hc : s.cd.places[drivePlace n].state = .occupied c)
    (h : inDrive s n p) : ∃ x, s.cd.records[c] = some x ∧ p x := by
  obtain ⟨d, x, hd, hx, hp⟩ := h
  rw [hc] at hd; cases hd
  exact ⟨x, hx, hp⟩

theorem cart_eq {c : CartId} {x : CartRecord} (h : s.cd.records[c] = some x) : s.cart c = x := by
  unfold State.cart; rw [h]; rfl

end Sys2Proof.Proofs.Requests
end

section
/-! PROOFS. The three job starts (R35 to R38). -/
namespace Sys2Proof.Proofs.Requests
open Sys2Proof Sys2Proof.Machine Sys2Proof.Safety Sys2Proof.Laws

variable {s : State} {r : List Byte} {n : LaneId}

theorem refusesBy_append {α : Type} {x : Except Code α} {A B : List (Prop × Code)} (hA : RefusesBy x A)
    (hB : noneHolds A → RefusesBy x B) : RefusesBy x (A ++ B) := by
  intro code h
  rcases firstHolds_append.mp h with h | ⟨hn, h⟩
  · exact hA code h
  · exact hB hn code h

theorem exists_startSlot (h : noneHolds (startRefusals s r)) : ∃ k, s.startSlot (recordTag r) = .ok k := by
  obtain ⟨hl, ht, hb, -⟩ := h
  unfold State.startSlot
  rw [if_neg (by simpa using hl), jobByTag_eq_none fun k hk h => ht ⟨k, hk, h⟩, if_neg (by simp)]
  cases hf : s.freeJobSlot with
  | none => exact absurd (fun k => by simpa using finFilter_head?_eq_none.mp hf k) hb
  | some k => exact ⟨k, rfl⟩

theorem exists_occupied (h : noneHolds (driveRefusals s n)) : ∃ c, s.cd.places[drivePlace n].state = .occupied c := by
  simpa using h.1

theorem not_inDrive {c : CartId} {p : CartRecord → Prop} (hc : s.cd.places[drivePlace n].state = .occupied c)
    (hx : s.cd.records[c] = none) : ¬ inDrive s n p := by
  intro h
  obtain ⟨x, hx', -⟩ := inDrive_occupied hc h
  rw [hx] at hx'; cases hx'

theorem writeJobsOnLane_eq (s : State) (n : LaneId) : s.writeJobsOnLane n = (List.finRange 8).filter fun k =>
    s.jt.jobs[k].live && decide (s.jt.jobs[k].record.lane = n) && decide (s.jt.jobs[k].record.kind = .write) := by
  unfold State.writeJobsOnLane State.jobsOnLane finFilter
  rw [List.filter_filter]
  exact List.filter_congr fun k _ => Bool.and_comm ..

/-! ## WRITE_START -/

section WriteStart
variable {i : StreamId} (hi : argByte r 4 = i.val) (hn : argByte r 5 = n.val)
include hi hn

theorem writeStartDecision_refuses : RefusesBy (writeStartDecision r s) (writeStartRefusals s r i n) := by
  have hi' : (Fin.ofNat 4 (argByte r 4) : StreamId) = i := by rw [hi]; exact laneOf_val i
  have hn' : laneOf (argByte r 5) = n := by rw [hn]; exact laneOf_val n
  subst hi' hn'
  unfold writeStartDecision
  dsimp only
  refine refusesBy_append (refusesBy_append (refusesBy_append ?_ fun hA => ?_) fun hAB => ?_) fun hABC => ?_
  · intro code h
    rw [startSlot_refuses s r code h]
  · obtain ⟨k, hk⟩ := exists_startSlot hA
    rw [hk]
    refine refusesBy_cons (fun h => if_pos h) fun h1 => refusesBy_cons (fun h => ?_) fun h2 =>
      refusesBy_cons (fun h => ?_) fun _ => refusesBy_nil
    · exact (if_neg h1).trans (if_pos (by rwa [writeJobsOnLane_eq]))
    · exact (if_neg h1).trans ((if_neg (by rwa [writeJobsOnLane_eq])).trans (if_pos h))
  · obtain ⟨hA, h1, h2, h3, -⟩ := noneHolds_append.mp hAB
    obtain ⟨k, hk⟩ := exists_startSlot hA
    intro code h
    rw [hk]
    dsimp only
    rw [if_neg h1, if_neg (by rwa [writeJobsOnLane_eq]), if_neg h3, startCart_refuses s _ code h]
  · obtain ⟨hAB, hC⟩ := noneHolds_append.mp hABC
    obtain ⟨hA, h1, h2, h3, -⟩ := noneHolds_append.mp hAB
    obtain ⟨k, hk⟩ := exists_startSlot hA
    obtain ⟨c, hc⟩ := exists_occupied hC
    rw [hk]
    dsimp only
    rw [if_neg h1, if_neg (by rwa [writeJobsOnLane_eq]), if_neg h3, startCart_ok hC hc]
    dsimp only
    cases hx : s.cd.records[c] with
    | none => exact fun code h => absurd h (by simp [firstHolds, not_inDrive hc hx])
    | some x =>
      simp only [cart_eq hx, inDrive_iff hc hx]
      refine refusesBy_cons (fun h => if_pos (by simp [h])) fun h4 => ?_
      rw [if_neg (by simpa using h4)]
      refine refusesBy_cons (fun h => if_pos h) fun h5 => ?_
      rw [if_neg h5]
      refine refusesBy_cons (fun h => if_pos h) fun h6 => ?_
      rw [if_neg h6]
      exact refusesBy_cons (fun h => if_pos h) fun _ => refusesBy_nil

theorem writeStartDecision_ok {k : SlotId} {c : CartId} {x : CartRecord} (h : noneHolds (writeStartRefusals s r i n))
    (hk : lowestFree s k) (hc : s.cd.places[drivePlace n].state = .occupied c) (hx : s.cd.records[c] = some x) :
    writeStartDecision r s = .ok fun s => bindStream i k (laneToWrite n x.written (startJob k
      { tag := BitVec.ofNat 8 (recordTag r), kind := .write, state := .active, lane := n, cart := c, stream := i
        firstSeq := argWord r 8, nextSeq := argWord r 8 } s)) := by
  have hi' : (Fin.ofNat 4 (argByte r 4) : StreamId) = i := by rw [hi]; exact laneOf_val i
  have hn' : laneOf (argByte r 5) = n := by rw [hn]; exact laneOf_val n
  obtain ⟨hABC, hD⟩ := noneHolds_append.mp h
  obtain ⟨hAB, hC⟩ := noneHolds_append.mp hABC
  obtain ⟨hA, h1, h2, h3, -⟩ := noneHolds_append.mp hAB
  simp only [inDrive_iff hc hx] at hD
  obtain ⟨h4, h5, h6, h7, -⟩ := hD
  subst hi' hn'
  unfold writeStartDecision
  rw [startSlot_ok hA hk]
  dsimp only
  rw [if_neg h1, if_neg (by rwa [writeJobsOnLane_eq]), if_neg h3, startCart_ok hC hc]
  dsimp only
  rw [cart_eq hx, if_neg (by simpa using h4), if_neg h5, if_neg h6, if_neg h7]

theorem preCheck_writeStart (hl : n.val < s.driveCount) (h1 : 1 ≤ recordTag r) (h2 : recordTag r ≤ 255) :
    s.preCheck .writeStart r = true := by
  have := i.isLt
  simp [State.preCheck, RequestKind.namesLane, RequestKind.namesTag, recordLane, hi, hn, hl, h1, h2]

end WriteStart

/-- Settles O26. -/
theorem writeStartRefused : Obligations.WriteStartRefused := by
  rintro s r i n code h ⟨hn, hl⟩ hi h1 h2 hj hf
  exact request_refused rfl rfl h (preCheck_writeStart hi hn hl h1 h2) (by simp [State.ownerReady, hj])
    (writeStartDecision_refuses hi hn code hf)

/-- A stream bound to a job is OPEN from E 0 on, with the accept limit of R44. -/
theorem bindStream_eq (i : StreamId) (k : SlotId) (s : State) : bindStream i k s = { s with
    streams := s.streams.set i { s.streams[i] with phase := .opened, slot := some k }
    wd := { s.wd with streamAperture := s.wd.streamAperture.set i {
      expected := 0, held := false
      limit := if s.waiting (.stream i) then 0 else BitVec.ofNat 32 s.streams[i].space } } } := by
  simp [bindStream, recomputeLimit, State.streamLimit, State.modStream, State.setStreamAperture, State.waiting, Stream.space]

/-- A lane taken for WRITE keeps what it had as a WRITE lane, or takes the written count as its next group (R36). -/
theorem laneToWrite_eq (n : LaneId) (written : Word) (s : State) : laneToWrite n written s = { s with
    lanes := if s.lanes[n].role = .write then s.lanes else s.lanes.set n { s.lanes[n] with
      role := .write
      nextGroup := written
      slots := if s.lanes[n].nextGroup = written then s.lanes[n].slots
        else s.lanes[n].slots.map fun y => match y with | .drained _ => .free | y => y } } := by
  unfold laneToWrite State.modLane
  split
  next h =>
    dsimp only
    rw [if_pos h]
    simp
  next h => exact congrArg (fun x => { s with lanes := s.lanes.set n x }) (if_neg h)

/-- Settles O27. -/
theorem writeStartAccepted : Obligations.WriteStartAccepted := by
  rintro s r i n k c x h ⟨hn, hl⟩ hi h1 h2 hj hf hk hc hx a
  have := request_accepted (c := .writeStart) (u := s) (by decide) rfl rfl h (preCheck_writeStart hi hn hl h1 h2)
    (by simp [State.ownerReady, hj]) (writeStartDecision_ok hi hn hf hk hc hx)
  rw [laneToWrite_eq, bindStream_eq] at this
  exact this

end Sys2Proof.Proofs.Requests
end

section
/-! PROOFS. Catalog sweeps (R95 to R97): live records lie apart, so a sweep sets the state bytes of the records its test names
and leaves every other byte. -/
namespace Sys2Proof.Proofs.Catalog
open Sys2Proof Sys2Proof.Machine Sys2Proof.Safety Sys2Proof.Laws

/-- No two of the listed records share a byte. -/
def RecordsApart (l : Layout) (cs : List Word) : Prop :=
  cs.Pairwise fun p q => recordAddress l p + 32 ≤ recordAddress l q ∨ recordAddress l q + 32 ≤ recordAddress l p

theorem mem_live {s : State} {q : Word} :
    q ∈ s.sc.live ↔ ∃ i < (s.sc.producer - s.sc.consumer).toNat, q = s.sc.consumer + BitVec.ofNat 32 i := by
  simp [Catalog.live, ahead, eq_comm]

/-- Live records of a bounded catalog lie apart: their counts differ modulo K. -/
theorem live_apart {s : State} {l : Layout} (h : catalogBounded s l) : RecordsApart l s.sc.live := by
  obtain ⟨hpos, hle, hwrap⟩ := h
  unfold RecordsApart Catalog.live ahead
  rw [List.pairwise_map]
  refine List.Pairwise.imp_of_mem (R := (· < ·)) (fun {i j} hi hj hij => ?_) List.pairwise_lt_range
  rw [List.mem_range] at hi hj
  have count (k : Nat) (hk : k < (s.sc.producer - s.sc.consumer).toNat) :
      (s.sc.consumer + BitVec.ofNat 32 k).toNat = s.sc.consumer.toNat + k := by
    rw [BitVec.toNat_add, BitVec.toNat_ofNat, Nat.mod_eq_of_lt (a := k) (by omega), Nat.mod_eq_of_lt (by omega)]
  have hne : (s.sc.consumer.toNat + i) % (l.catalog.size / 32) ≠ (s.sc.consumer.toNat + j) % (l.catalog.size / 32) := by
    intro he
    have hd := (Nat.modEq_iff_dvd' (by omega : s.sc.consumer.toNat + i ≤ s.sc.consumer.toNat + j)).mp he
    have := Nat.le_of_dvd (by omega) hd
    omega
  unfold recordAddress
  rw [count i hi, count j hj]
  omega

theorem memBytes_congr' {m m' : List Host.Cell} {a n : Nat} (h : ∀ x, a ≤ x → x < a + n → memRead m' x = memRead m x) :
    memBytes m' a n = memBytes m a n := by
  refine List.map_congr_left fun i hi => ?_
  rw [List.mem_range] at hi
  exact h _ (by omega) (by omega)

/-- A record's state byte alone is written. -/
theorem writeRecordState_read (m : List Host.Cell) (l : Layout) (q : Word) (st : RecordState) :
    memRead (writeRecordState m l q st) (recordAddress l q + 11) = BitVec.ofNat 8 st.value
      ∧ ∀ a, a ≠ recordAddress l q + 11 → memRead (writeRecordState m l q st) a = memRead m a := by
  refine ⟨memRead_memWrite_inside m _ [BitVec.ofNat 8 st.value] 0 (by simp), fun a ha => ?_⟩
  exact memRead_memWrite_outside m _ _ a (by simp only [List.length_singleton]; omega)

/-- A sweep sets the state byte of each listed record that its test names, leaves every other byte and counts what it sets. -/
theorem sweepRecords_spec (l : Layout) (f : List Byte → Option RecordState) (cs : List Word) (m : List Host.Cell) (n : Nat)
    (h : RecordsApart l cs) :
    (∀ q ∈ cs, ∀ v, f (memBytes m (recordAddress l q) 32) = some v →
        memRead (sweepRecords l f cs m n).1 (recordAddress l q + 11) = BitVec.ofNat 8 v.value)
      ∧ (∀ a, (∀ q ∈ cs, f (memBytes m (recordAddress l q) 32) ≠ none → a ≠ recordAddress l q + 11) →
        memRead (sweepRecords l f cs m n).1 a = memRead m a)
      ∧ (sweepRecords l f cs m n).2 = n + cs.countP fun q => (f (memBytes m (recordAddress l q) 32)).isSome := by
  induction cs generalizing m n with
  | nil => simp [sweepRecords]
  | cons c cs ih =>
    obtain ⟨hc, hcs⟩ := List.pairwise_cons.mp h
    cases hf : f (memBytes m (recordAddress l c) 32) with
    | none =>
      obtain ⟨hset, hkept, hn⟩ := ih m n hcs
      simp only [sweepRecords, hf, List.forall_mem_cons, List.countP_cons, Option.isSome_none]
      exact ⟨⟨nofun, hset⟩, fun a ha => hkept a ha.2, by simpa using hn⟩
    | some st =>
      obtain ⟨hst, hother⟩ := writeRecordState_read m l c st
      have same (q : Word) (hq : q ∈ cs) :
          memBytes (writeRecordState m l c st) (recordAddress l q) 32 = memBytes m (recordAddress l q) 32 :=
        memBytes_congr' fun x _ _ => hother x (by have := hc q hq; omega)
      obtain ⟨hset, hkept, hn⟩ := ih (writeRecordState m l c st) (n + 1) hcs
      simp only [sweepRecords, hf, List.forall_mem_cons, List.countP_cons, Option.isSome_some, if_true]
      refine ⟨⟨fun v hv => ?_, fun q hq v hv => hset q hq v (by rwa [same q hq])⟩, fun a ha => ?_, ?_⟩
      · cases hv
        rw [hkept _ fun q hq _ => by have := hc q hq; omega, hst]
      · rw [hkept a fun q hq hq' => ha.2 q hq (by rwa [same q hq] at hq'), hother a (ha.1 (by simp))]
      · rw [hn, List.countP_congr fun q hq => by rw [same q hq]]
        omega

/-- What a catalog sweep does to a state with a layout: memory alone changes, as `recordsSet` says. -/
theorem catalogSweep_spec {s : State} {l : Layout} (f : List Byte → Option RecordState) (hl : s.wd.layout = some l)
    (hb : catalogBounded s l) :
    ∃ m, catalogSweep f s = ({ s with mem := m }, s.sc.live.countP fun q => (f (recordAt s l q)).isSome)
      ∧ recordsSet s l (fun y => (f y).map RecordState.value) m := by
  obtain ⟨hset, hkept, hn⟩ := sweepRecords_spec l f s.sc.live s.mem 0 (live_apart hb)
  refine ⟨(sweepRecords l f s.sc.live s.mem 0).1, ?_, fun q hq v hv => ?_, fun a ha => hkept a fun q hq hne => ?_⟩
  · unfold catalogSweep
    rw [hl]
    refine Prod.ext rfl ?_
    simpa [recordAt] using hn
  · obtain ⟨st, hst, rfl⟩ := Option.map_eq_some_iff.mp hv
    exact hset q hq st hst
  · exact ha q hq (by simpa [recordAt] using hne)

/-- Sweeps whose tests agree on the live records set the same bytes. -/
theorem recordsSet_congr {s : State} {l : Layout} {f g : List Byte → Option Nat} {m : List Host.Cell}
    (h : ∀ q ∈ s.sc.live, f (recordAt s l q) = g (recordAt s l q)) (hs : recordsSet s l f m) : recordsSet s l g m :=
  ⟨fun q hq v hv => hs.1 q hq v ((h q hq).trans hv), fun a ha => hs.2 a fun q hq hne => ha q hq (by rwa [← h q hq])⟩

end Sys2Proof.Proofs.Catalog
end

section
/-! PROOFS. VERIFY_START and RESTORE_START (R37, R38, R97, R101). -/
namespace Sys2Proof.Proofs.Requests
open Sys2Proof Sys2Proof.Machine Sys2Proof.Safety Sys2Proof.Laws Sys2Proof.Proofs.Catalog
open Sys2Proof.Proofs.ReturnPath (leNat_lt fieldNat_lt)

variable {s : State} {r : List Byte} {n : LaneId}

theorem argWord_toNat (r : List Byte) (a : Nat) : (argWord r a).toNat = fieldNat r a 4 := by
  rw [argWord, BitVec.toNat_ofNat]
  exact Nat.mod_eq_of_lt (fieldNat_lt r a 4)

theorem restoreRingRefusal_refuses {α : Type} (f : α) (s : State) (base size : Nat) (area : Window)
    (ha : area = (s.wd.layout.getD {}).restore) :
    RefusesBy (match s.restoreRingRefusal base size with | some e => .error e | none => .ok f)
      [(base % 4096 ≠ 0, .ringFault),
       (size % 4096 ≠ 0 ∨ size < 65536 ∨ 16777216 < size, .ringInvalid),
       (base < area.base ∨ area.base + area.size < base + size, .ringInvalid),
       (∃ k : SlotId, s.jt.jobs[k].live = true ∧ s.jt.jobs[k].record.kind = .restore
         ∧ base < s.jt.jobs[k].record.ringBase.toNat + s.jt.jobs[k].record.ringSize.toNat
         ∧ s.jt.jobs[k].record.ringBase.toNat < base + size, .ringInvalid)] := by
  subst ha
  unfold State.restoreRingRefusal
  dsimp only
  refine refusesBy_cons (fun h => by rw [if_pos h]) fun h1 => ?_
  rw [if_neg h1]
  refine refusesBy_cons (fun h => by rw [if_pos h]) fun h2 => ?_
  rw [if_neg h2]
  refine refusesBy_cons (fun h => by rw [if_pos h]) fun h3 => ?_
  rw [if_neg h3]
  refine refusesBy_cons (fun ⟨k, hl, hk, ho⟩ => ?_) fun _ => refusesBy_nil
  rw [if_pos]
  rw [List.any_eq_true]
  refine ⟨k, List.mem_finRange k, ?_⟩
  simp only [hl, hk, Window.disjoint, JobRecord.ring, decide_true, Bool.true_and, Bool.not_eq_true', Bool.or_eq_false_iff]
  exact ⟨decide_eq_false (by omega), decide_eq_false (by omega)⟩

section ReadStart
variable (hn : argByte r 4 = n.val)
include hn

theorem preCheck_readStart {kind : RequestKind} (hk : kind = .verifyStart ∨ kind = .restoreStart) (hl : n.val < s.driveCount)
    (h1 : 1 ≤ recordTag r) (h2 : recordTag r ≤ 255) : s.preCheck kind r = true := by
  rcases hk with rfl | rfl <;>
    simp [State.preCheck, RequestKind.namesLane, RequestKind.namesTag, recordLane, hn, hl, h1, h2]

theorem ownerReady_readStart {kind : RequestKind} (hk : kind = .verifyStart ∨ kind = .restoreStart)
    (hj : s.waiting .jobTable = false) (hf : s.waiting (.framer n) = false) : s.ownerReady kind r = true := by
  rcases hk with rfl | rfl <;> simp [State.ownerReady, hn, laneOf_val, hj, hf]

/-! ## VERIFY_START -/

theorem verifyStartDecision_refuses : RefusesBy (verifyStartDecision r s) (verifyStartRefusals s r n) := by
  have hn' : laneOf (argByte r 4) = n := by rw [hn]; exact laneOf_val n
  subst hn'
  unfold verifyStartDecision
  dsimp only
  refine refusesBy_append (refusesBy_append (refusesBy_append ?_ fun hA => ?_) fun hAB => ?_) fun hABC => ?_
  · intro code h
    rw [startSlot_refuses s r code h]
  · obtain ⟨k, hk⟩ := exists_startSlot hA
    rw [hk]
    exact refusesBy_cons (fun h => if_pos h) fun _ => refusesBy_nil
  · obtain ⟨hA, h1, -⟩ := noneHolds_append.mp hAB
    obtain ⟨k, hk⟩ := exists_startSlot hA
    intro code h
    rw [hk]
    dsimp only
    rw [if_neg h1, startCart_refuses s _ code h]
  · obtain ⟨hAB, hC⟩ := noneHolds_append.mp hABC
    obtain ⟨hA, h1, -⟩ := noneHolds_append.mp hAB
    obtain ⟨k, hk⟩ := exists_startSlot hA
    obtain ⟨c, hc⟩ := exists_occupied hC
    rw [hk]
    dsimp only
    rw [if_neg h1, startCart_ok hC hc]
    dsimp only
    cases hx : s.cd.records[c] with
    | none => exact fun code h => absurd h (by simp [firstHolds, not_inDrive hc hx])
    | some x =>
      simp only [cart_eq hx, inDrive_iff hc hx, argWord_toNat]
      refine refusesBy_cons (fun h => if_pos h) fun h4 => ?_
      rw [if_neg h4]
      exact refusesBy_cons (fun h => if_pos h) fun _ => refusesBy_nil

theorem verifyStartDecision_ok {k : SlotId} {c : CartId} {x : CartRecord} (h : noneHolds (verifyStartRefusals s r n))
    (hk : lowestFree s k) (hc : s.cd.places[drivePlace n].state = .occupied c) (hx : s.cd.records[c] = some x) :
    verifyStartDecision r s = .ok fun s => laneToRead n k (rangeReset x.label (argWord r 8) (argWord r 12) (startJob k
      { tag := BitVec.ofNat 8 (recordTag r), kind := .verify, state := .active, lane := n, cart := c
        firstGroup := argWord r 8, lastGroup := argWord r 12 } s)) := by
  have hn' : laneOf (argByte r 4) = n := by rw [hn]; exact laneOf_val n
  obtain ⟨hABC, hD⟩ := noneHolds_append.mp h
  obtain ⟨hAB, hC⟩ := noneHolds_append.mp hABC
  obtain ⟨hA, h1, -⟩ := noneHolds_append.mp hAB
  simp only [inDrive_iff hc hx, ← argWord_toNat] at hD
  obtain ⟨h4, h5, -⟩ := hD
  subst hn'
  unfold verifyStartDecision
  rw [startSlot_ok hA hk]
  dsimp only
  rw [if_neg h1, startCart_ok hC hc]
  dsimp only
  rw [cart_eq hx, if_neg h4, if_neg h5]

/-! ## RESTORE_START -/

theorem restoreStartDecision_refuses :
    RefusesBy (restoreStartDecision r s) (restoreStartRefusals s r n (s.wd.layout.getD {}).restore) := by
  have hn' : laneOf (argByte r 4) = n := by rw [hn]; exact laneOf_val n
  subst hn'
  unfold restoreStartDecision
  dsimp only
  refine refusesBy_append (refusesBy_append (refusesBy_append ?_ fun hA => ?_) fun hAB => ?_) fun hABC => ?_
  · intro code h
    rw [startSlot_refuses s r code h]
  · obtain ⟨k, hk⟩ := exists_startSlot hA
    rw [hk]
    exact refusesBy_cons (fun h => if_pos h) fun _ => refusesBy_nil
  · obtain ⟨hA, h1, -⟩ := noneHolds_append.mp hAB
    obtain ⟨k, hk⟩ := exists_startSlot hA
    intro code h
    rw [hk]
    dsimp only
    rw [if_neg h1, startCart_refuses s _ code h]
  · obtain ⟨hAB, hC⟩ := noneHolds_append.mp hABC
    obtain ⟨hA, h1, -⟩ := noneHolds_append.mp hAB
    obtain ⟨k, hk⟩ := exists_startSlot hA
    obtain ⟨c, hc⟩ := exists_occupied hC
    rw [hk]
    dsimp only
    rw [if_neg h1, startCart_ok hC hc]
    dsimp only
    simp only [argWord_toNat]
    refine refusesBy_cons (fun h => if_pos h) fun h4 => ?_
    rw [if_neg h4]
    exact restoreRingRefusal_refuses _ s _ _ _ rfl

theorem restoreStartDecision_ok {k : SlotId} {c : CartId} {l : Layout} (hl : s.wd.layout = some l)
    (h : noneHolds (restoreStartRefusals s r n l.restore)) (hk : lowestFree s k)
    (hc : s.cd.places[drivePlace n].state = .occupied c) :
    restoreStartDecision r s = .ok fun s =>
      let s := (startJob k
        { tag := BitVec.ofNat 8 (recordTag r), kind := .restore, state := .active, lane := n, cart := c
          sourceTag := BitVec.ofNat 8 (argByte r 5), firstChunk := argWord r 8, lastChunk := argWord r 12
          ringBase := argWord r 16, ringSize := argWord r 20 } s).modRestore k fun x =>
        { x with producer := 0, consumer := 0, expected := (argWord r 8).toNat }
      laneToRead n k { s with wd.restoreConsumerLatch := s.wd.restoreConsumerLatch.set k {} } := by
  have hn' : laneOf (argByte r 4) = n := by rw [hn]; exact laneOf_val n
  obtain ⟨hABC, hD⟩ := noneHolds_append.mp h
  obtain ⟨hAB, hC⟩ := noneHolds_append.mp hABC
  obtain ⟨hA, h1, -⟩ := noneHolds_append.mp hAB
  simp only [← argWord_toNat] at hD
  obtain ⟨h4, h5, h6, h7, h8, -⟩ := hD
  have hring : s.restoreRingRefusal (argWord r 16).toNat (argWord r 20).toNat = none := by
    unfold State.restoreRingRefusal
    rw [hl]
    dsimp only [Option.getD_some]
    rw [if_neg h5, if_neg h6, if_neg h7, if_neg]
    rw [List.any_eq_true]
    rintro ⟨j, -, hj⟩
    simp only [Window.disjoint, JobRecord.ring, Bool.and_eq_true, decide_eq_true_eq, Bool.not_eq_true',
      Bool.or_eq_false_iff] at hj
    obtain ⟨⟨hlive, hkind⟩, ho, ho'⟩ := hj
    have ho := of_decide_eq_false ho
    have ho' := of_decide_eq_false ho'
    exact h8 ⟨j, hlive, hkind, by omega, by omega⟩
  subst hn'
  unfold restoreStartDecision
  rw [startSlot_ok hA hk]
  dsimp only
  rw [if_neg h1, startCart_ok hC hc]
  dsimp only
  rw [if_neg h4, hring]

end ReadStart

/-- Settles O28. -/
theorem readStartsRefused : Obligations.ReadStartsRefused := by
  rintro s r n code ⟨hn, hl⟩ h1 h2 hj hf
  refine ⟨fun h ht => ?_, fun h ht => ?_⟩
  · exact request_refused rfl rfl h (preCheck_readStart hn (.inl rfl) hl h1 h2) (ownerReady_readStart hn (.inl rfl) hj hf)
      (verifyStartDecision_refuses hn code ht)
  · exact request_refused rfl rfl h (preCheck_readStart hn (.inr rfl) hl h1 h2) (ownerReady_readStart hn (.inr rfl) hj hf)
      (restoreStartDecision_refuses hn code ht)

/-- A lane taken for reading has its role, its Framer and its return ring as R101 says. -/
theorem laneToRead_eq (n : LaneId) (k : SlotId) {l : Layout} (hl : s.wd.layout = some l) :
    laneToRead n k s = boundToRead n k l s := by
  simp only [laneToRead, bindFramer, boundToRead, State.modLane, State.modFramer, State.setRingAperture, State.returnRing, hl]

/-- The range reset's test, with the value it sets. -/
theorem rangeReset_spec {l : Layout} {label : Option Label} {first last : Word} (hl : s.wd.layout = some l)
    (hb : catalogBounded s l) :
    ∃ m, rangeReset label first last s = { s with mem := m }
      ∧ ∀ f : List Byte → Option Nat,
        (∀ y, inRange label first last y ∧ fieldNat y 11 1 ∈ [2, 3, 4, 5] → f y = some 2) →
        (∀ y, ¬ (inRange label first last y ∧ fieldNat y 11 1 ∈ [2, 3, 4, 5]) → f y = none) → recordsSet s l f m := by
  obtain ⟨m, hm, hs⟩ := catalogSweep_spec (fun y => if recordInRange label first last y && [2, 3, 4, 5].contains (recState y)
    then some .onTape else none) hl hb
  refine ⟨m, congrArg Prod.fst hm, fun f hyes hno => recordsSet_congr (fun q _ => ?_) hs⟩
  generalize recordAt s l q = y
  have hstart : (recStartGroup y).toNat = fieldNat y 16 4 := argWord_toNat y 16
  have hin : (recordInRange label first last y && [2, 3, 4, 5].contains (recState y)) = true
      ↔ inRange label first last y ∧ fieldNat y 11 1 ∈ [2, 3, 4, 5] := by
    cases label <;>
      simp [recordInRange, inRange, hstart, recLabel, recState]
  by_cases h : inRange label first last y ∧ fieldNat y 11 1 ∈ [2, 3, 4, 5]
  · rw [hyes y h, if_pos (hin.mpr h)]; rfl
  · rw [hno y h, if_neg (mt hin.mp h)]; rfl

/-- Settles O29: the slot is taken, the range reset in the catalog, and the lane bound. -/
theorem verifyStartAccepted : Obligations.VerifyStartAccepted := by
  rintro s r n k c x l h ⟨hn, hl⟩ h1 h2 hj hf ht hk hc hx hlay hb
  obtain ⟨b, hb'⟩ := request_accepted (c := .verifyStart) (u := s) (by decide) rfl rfl h (preCheck_readStart hn (.inl rfl) hl h1 h2)
    (ownerReady_readStart hn (.inl rfl) hj hf) (verifyStartDecision_ok hn ht hk hc hx)
  obtain ⟨m, hm, hs⟩ := rangeReset_spec (label := x.label) (first := argWord r 8) (last := argWord r 12)
    (s := startJob k { tag := BitVec.ofNat 8 (recordTag r), kind := .verify, state := .active, lane := n, cart := c
                       firstGroup := argWord r 8, lastGroup := argWord r 12 } (answered .done r s)) hlay hb
  rw [hm, laneToRead_eq n k (l := l)] at hb'
  · exact ⟨_, hb', hs, rfl⟩
  · exact hlay

/-- The restore counts of a slot that a job start has taken. -/
theorem startJob_modRestore (k : SlotId) (job : JobRecord) (f : RestoreSlot → RestoreSlot) (s : State) :
    (startJob k job s).modRestore k f = { s with
      jt := { s.jt with jobs := s.jt.jobs.set k { live := true, record := job } }
      de := { s.de with slots := s.de.slots.set k (f { s.de.slots[k] with lastFault := none }) } } := by
  simp [startJob, State.modRestore]

/-- Settles O30. -/
theorem restoreStartAccepted : Obligations.RestoreStartAccepted := by
  rintro s r n k c x l h ⟨hn, hl⟩ h1 h2 hj hf hlay ht hk hc hx a
  have := request_accepted (c := .restoreStart) (u := s) (by decide) rfl rfl h (preCheck_readStart hn (.inr rfl) hl h1 h2)
    (ownerReady_readStart hn (.inr rfl) hj hf) (restoreStartDecision_ok hn hlay ht hk hc)
  dsimp only at this
  rw [startJob_modRestore, laneToRead_eq n k (l := l), argWord_toNat] at this
  · exact this
  · exact hlay

end Sys2Proof.Proofs.Requests
end

section
/-! PROOFS. CARTRIDGE_SET (R140), settings (R26, R27, R84). -/
namespace Sys2Proof.Proofs.Requests
open Sys2Proof Sys2Proof.Machine Sys2Proof.Safety Sys2Proof.Laws

variable {s : State} {r : List Byte}

/-! ## CARTRIDGE_SET: the record selected -/

theorem presentPlace_eq_none {drives p : Nat} (h : 29 < p ∨ (drives ≤ p ∧ p < 4)) : presentPlace drives p = none := by
  unfold presentPlace
  split
  · exact if_pos (h.resolve_left (by omega))
  · rfl

theorem presentPlace_eq_some {drives : Nat} {p : PlaceId} (h : p.val < drives ∨ 4 ≤ p.val) :
    presentPlace drives p.val = some p := by
  unfold presentPlace
  rw [dif_pos p.isLt]
  exact if_neg (by omega)

section Place
variable {p : PlaceId} (h0 : argByte r 4 = 0) (hp : p.val = argByte r 5) (hd : p.val < s.driveCount ∨ 4 ≤ p.val)
include h0 hp hd

theorem cartSelected_unknown (hs : s.placeState p = .unknown) : s.cartSelected r = .error .placeUnknown := by
  simp only [State.cartSelected, if_pos h0, ← hp, presentPlace_eq_some hd, hs]

theorem cartSelected_empty (hs : s.placeState p = .empty) : s.cartSelected r = .error .placeEmpty := by
  simp only [State.cartSelected, if_pos h0, ← hp, presentPlace_eq_some hd, hs]

theorem cartSelected_occupied {c : CartId} (hs : s.placeState p = .occupied c) : s.cartSelected r = .ok c := by
  simp only [State.cartSelected, if_pos h0, ← hp, presentPlace_eq_some hd, hs]

end Place

theorem cartSelected_place_refuses (h0 : argByte r 4 = 0) : RefusesBy (s.cartSelected r)
    [(29 < argByte r 5 ∨ (s.driveCount ≤ argByte r 5 ∧ argByte r 5 < 4), .badArgument),
     (∃ p : PlaceId, p.val = argByte r 5 ∧ s.cd.places[p].state = .unknown, .placeUnknown),
     (∃ p : PlaceId, p.val = argByte r 5 ∧ s.cd.places[p].state = .empty, .placeEmpty)] := by
  refine refusesBy_cons (fun h => ?_) fun h => refusesBy_cons (fun ⟨p, hp, hs⟩ => ?_) fun _ =>
    refusesBy_cons (fun ⟨p, hp, hs⟩ => ?_) fun _ => refusesBy_nil
  · unfold State.cartSelected
    rw [if_pos h0, presentPlace_eq_none h]
  · exact cartSelected_unknown h0 hp (by omega) hs
  · exact cartSelected_empty h0 hp (by omega) hs

theorem labelOk_iff {l : Label} : labelOk l = true ↔ ∀ y ∈ l.toList, 0x20 ≤ y.toNat ∧ y.toNat ≤ 0x7E := by
  simp only [labelOk, List.all_eq_true, decide_eq_true_eq]

theorem cartSelected_label_refuses (h1 : argByte r 4 = 1) : RefusesBy (s.cartSelected r)
    [((argLabel r 8).toList.any (fun y => decide (y.toNat < 0x20 ∨ 0x7E < y.toNat)) = true, .badArgument),
     (∀ (c : CartId) (x : CartRecord), s.cd.records[c] = some x → x.label ≠ some (argLabel r 8), .placeUnknown)] := by
  have hok : labelOk (argLabel r 8) = !(argLabel r 8).toList.any fun y => decide (y.toNat < 0x20 ∨ 0x7E < y.toNat) := by
    rw [labelOk, List.not_any_eq_all_not]
    refine congrArg (fun p => (argLabel r 8).toList.all p) (funext fun y => ?_)
    rw [← decide_not]
    exact decide_eq_decide.mpr (by omega)
  unfold State.cartSelected
  rw [if_neg (by omega), if_pos h1, hok]
  refine refusesBy_cons (fun h => by rw [h]; rfl) fun h => refusesBy_cons (fun hn => ?_) fun _ => refusesBy_nil
  have hnone : s.recordByLabel (argLabel r 8) = none := finFilter_head?_eq_none.mpr fun c => by
    cases hx : s.cd.records[c] with
    | none => rfl
    | some x => exact decide_eq_false (hn c x hx)
  rw [Bool.eq_false_iff.mpr h, hnone]
  rfl

theorem cartSelected_label {c : CartId} {x : CartRecord} (h1 : argByte r 4 = 1) (hl : labelOk (argLabel r 8) = true)
    (h : labelled s (argLabel r 8) c x) : s.cartSelected r = .ok c := by
  obtain ⟨hx, hlab, hlow⟩ := h
  have hsome : s.recordByLabel (argLabel r 8) = some c := finFilter_head?_eq_some.mpr
    ⟨by rw [hx]; exact decide_eq_true hlab, fun d hd => by
      cases hy : s.cd.records[d] with
      | none => rfl
      | some y => exact decide_eq_false (hlow d hd y hy)⟩
  unfold State.cartSelected
  rw [if_neg (by omega), if_pos h1, if_pos hl, hsome]

/-! ## CARTRIDGE_SET: the values -/

/-- The checks on the record selected, in the order of R140. -/
def cartValueRefusals (s : State) (r : List Byte) (c : CartId) : List (Prop × Code) :=
  [(∃ n : LaneId, s.cd.places[drivePlace n].state = .occupied c ∧ s.lanes[n].role ≠ .idle, .laneBusy),
   (argByte r 6 ≠ 1 ∧ argByte r 6 ≠ 2, .badArgument),
   (fieldNat r 24 4 < 1 ∨ fieldNat r 16 4 < fieldNat r 20 4 ∨ fieldNat r 24 4 < fieldNat r 16 4
     ∨ (argByte r 6 = 1 ∧ (fieldNat r 16 4 ≠ 0 ∨ fieldNat r 20 4 ≠ 0)), .badArgument)]

theorem cartBusy_iff {c : CartId} : s.cartBusy c = true ↔
    ∃ n : LaneId, s.cd.places[drivePlace n].state = .occupied c ∧ s.lanes[n].role ≠ .idle := by
  have hd (n : LaneId) : s.driveCart n = some c ↔ s.cd.places[drivePlace n].state = .occupied c := by
    unfold State.driveCart
    cases s.cd.places[drivePlace n].state <;> simp
  simp only [State.cartBusy, List.any_eq_true, Bool.and_eq_true, decide_eq_true_eq, hd]
  exact ⟨fun ⟨n, _, h⟩ => ⟨n, h⟩, fun ⟨n, h⟩ => ⟨n, List.mem_finRange n, h⟩⟩

theorem recordCondition_eq_none (h : argByte r 6 ≠ 1 ∧ argByte r 6 ≠ 2) : recordCondition r = none := by
  unfold recordCondition
  split
  next h' => exact absurd h' h.1
  next h' => exact absurd h' h.2
  next => rfl

theorem recordCondition_eq_some (h : ¬ (argByte r 6 ≠ 1 ∧ argByte r 6 ≠ 2)) :
    recordCondition r = some (if argByte r 6 = 1 then .blank else .written) := by
  unfold recordCondition
  split
  next h' => rw [h']; rfl
  next h' => rw [h']; rfl
  next h1 h2 => exact absurd ⟨h1, h2⟩ h

/-- The last check of R140 on the words as the model reads them. -/
theorem cartValuesBad_iff (hc : ¬ (argByte r 6 ≠ 1 ∧ argByte r 6 ≠ 2)) :
    (argWord r 24 = 0 ∨ (argWord r 16).toNat < (argWord r 20).toNat ∨ (argWord r 24).toNat < (argWord r 16).toNat
        ∨ ((if argByte r 6 = 1 then Condition.blank else .written) = .blank ∧ (argWord r 16 ≠ 0 ∨ argWord r 20 ≠ 0)))
      ↔ (fieldNat r 24 4 < 1 ∨ fieldNat r 16 4 < fieldNat r 20 4 ∨ fieldNat r 24 4 < fieldNat r 16 4
        ∨ (argByte r 6 = 1 ∧ (fieldNat r 16 4 ≠ 0 ∨ fieldNat r 20 4 ≠ 0))) := by
  have hz (a : Nat) : argWord r a = 0 ↔ fieldNat r a 4 = 0 := by
    rw [← argWord_toNat]
    exact ⟨fun h => by rw [h]; rfl, fun h => BitVec.eq_of_toNat_eq h⟩
  have hb : ((if argByte r 6 = 1 then Condition.blank else .written) = .blank) ↔ argByte r 6 = 1 := by
    split <;> simp_all
  simp only [hz, hb, argWord_toNat, ne_eq, Nat.lt_one_iff]

theorem cartridgeSetDecision_refuses {c : CartId} (h : s.cartSelected r = .ok c) :
    RefusesBy (s.cartridgeSetDecision r) (cartValueRefusals s r c) := by
  unfold State.cartridgeSetDecision
  rw [h]
  dsimp only
  refine refusesBy_cons (fun hb => if_pos (cartBusy_iff.mpr hb)) fun hb => ?_
  rw [if_neg (mt cartBusy_iff.mp hb)]
  refine refusesBy_cons (fun hc => by rw [recordCondition_eq_none hc]) fun hc => ?_
  rw [recordCondition_eq_some hc]
  exact refusesBy_cons (fun hv => if_pos ((cartValuesBad_iff hc).mpr hv)) fun _ => refusesBy_nil

theorem cartridgeSetDecision_ok {c : CartId} (h : s.cartSelected r = .ok c) (hn : noneHolds (cartValueRefusals s r c)) :
    s.cartridgeSetDecision r = .ok (c, fun x => { x with
      written := argWord r 16, verified := argWord r 20, limit := argWord r 24
      condition := if argByte r 6 = 1 then .blank else .written }) := by
  obtain ⟨hb, hc, hv, -⟩ := hn
  unfold State.cartridgeSetDecision
  rw [h]
  dsimp only
  rw [if_neg (mt cartBusy_iff.mp hb), recordCondition_eq_some hc]
  exact if_neg (mt (cartValuesBad_iff hc).mp hv)

theorem cartridgeSetDecision_unselected {code : Code} (h : s.cartSelected r = .error code) :
    s.cartridgeSetDecision r = .error code := by
  unfold State.cartridgeSetDecision; rw [h]

/-- Settles O36: the selector names the record or refuses, then the values are judged. -/
theorem cartridgeSetDecided : Obligations.CartridgeSetDecided := by
  intro s r h g v limit values accepted
  have refused {code : Code} (hd : s.cartridgeSetDecision r = .error code) :
      ∃ b, exec .cartridgeSet s = .next (withStale b (answered code r s)) :=
    request_refused (u := s) rfl rfl h rfl rfl (by rw [State.decision, hd])
  have decided {c : CartId} {x : CartRecord} (hsel : s.cartSelected r = .ok c) (hx : s.cd.records[c] = some x) :
      (∀ code, firstHolds code (values c) → ∃ b, exec .cartridgeSet s = .next (withStale b (answered code r s)))
        ∧ (noneHolds (values c) → accepted c x) := by
    refine ⟨fun code hf => refused (cartridgeSetDecision_refuses hsel code hf), fun hn => ?_⟩
    have := request_accepted (c := .cartridgeSet) (u := s) (by decide) rfl rfl h rfl rfl
      (by rw [State.decision, cartridgeSetDecision_ok hsel hn])
    rwa [State.modCart, show (answered .done r s).cd.records[c] = some x from hx] at this
  refine ⟨fun code h0 hf => ?_, fun hb => ?_, fun p c x h0 hp hd hs hx => ?_, fun code h1 hf => ?_, fun c x h1 hl hlab => ?_⟩
  · exact refused (cartridgeSetDecision_unselected (cartSelected_place_refuses h0 code hf))
  · refine refused (cartridgeSetDecision_unselected ?_)
    unfold State.cartSelected
    rw [if_neg (by omega), if_neg (by omega)]
  · exact decided (cartSelected_occupied h0 hp hd hs) hx
  · exact refused (cartridgeSetDecision_unselected (cartSelected_label_refuses h1 code hf))
  · exact decided (cartSelected_label h1 (labelOk_iff.mpr hl) hlab) hlab.1

end Sys2Proof.Proofs.Requests
end

section
/-! PROOFS. The retain depth (R69, R84): freeing the oldest DRAINED slot until few enough remain keeps those with the highest
group numbers. -/
namespace Sys2Proof.Proofs.Retain
open Sys2Proof Sys2Proof.Machine Sys2Proof.Safety Sys2Proof.Laws

/-! ## The lowest group -/

/-- The lower of two group numbers. -/
def lowerGroup (a b : Word) : Word := if b.toNat < a.toNat then b else a

theorem foldl_lowerGroup (gs : List Word) (g : Word) :
    (gs.foldl lowerGroup g = g ∨ gs.foldl lowerGroup g ∈ gs) ∧ (gs.foldl lowerGroup g).toNat ≤ g.toNat
      ∧ ∀ h ∈ gs, (gs.foldl lowerGroup g).toNat ≤ h.toNat := by
  induction gs generalizing g with
  | nil => simp
  | cons a gs ih =>
    obtain ⟨hm, hle, hall⟩ := ih (lowerGroup g a)
    have hlow : lowerGroup g a = g ∧ g.toNat ≤ a.toNat ∨ lowerGroup g a = a ∧ a.toNat < g.toNat := by
      unfold lowerGroup
      split
      next h => exact .inr ⟨rfl, h⟩
      next h => exact .inl ⟨rfl, not_lt.mp h⟩
    rw [List.foldl_cons]
    refine ⟨?_, by rcases hlow with ⟨e, _⟩ | ⟨e, _⟩ <;> rw [e] at hle ⊢ <;> omega, ?_⟩
    · rcases hm with hm | hm
      · rcases hlow with ⟨e, _⟩ | ⟨e, _⟩
        · exact .inl (hm.trans e)
        · exact .inr (by rw [hm, e]; exact List.mem_cons_self)
      · exact .inr (List.mem_cons_of_mem _ hm)
    · rintro h (_ | ⟨_, hh⟩)
      · rcases hlow with ⟨e, _⟩ | ⟨e, _⟩ <;> rw [e] at hle ⊢ <;> omega
      · exact hall h hh

theorem lowestGroup_spec {gs : List Word} {g : Word} (h : lowestGroup gs = some g) :
    g ∈ gs ∧ ∀ x ∈ gs, g.toNat ≤ x.toNat := by
  cases gs with
  | nil => cases h
  | cons a gs =>
    obtain ⟨hm, hle, hall⟩ := foldl_lowerGroup gs a
    cases (Option.some.inj h : gs.foldl lowerGroup a = g)
    refine ⟨?_, ?_⟩
    · rcases hm with hm | hm
      · rw [hm]; exact List.mem_cons_self
      · exact List.mem_cons_of_mem _ hm
    · rintro x (_ | ⟨_, hx⟩)
      · exact hle
      · exact hall x hx

theorem lowestGroup_eq_none {gs : List Word} (h : lowestGroup gs = none) : gs = [] := by
  cases gs with
  | nil => rfl
  | cons => cases h

/-- The lowest of some group numbers is the one that none lies below. -/
theorem lowestGroup_eq_some {gs : List Word} {g : Word} (hm : g ∈ gs) (hl : ∀ x ∈ gs, g.toNat ≤ x.toNat) :
    lowestGroup gs = some g := by
  cases h : lowestGroup gs with
  | none => rw [lowestGroup_eq_none h] at hm; cases hm
  | some x =>
    obtain ⟨hx, hle⟩ := lowestGroup_spec h
    exact congrArg some (BitVec.eq_of_toNat_eq (Nat.le_antisymm (hle g hm) (hl x hx)))

/-! ## Counting DRAINED slots -/

/-- A slot is DRAINED with a group number above another. -/
def drainedAbove (g : Word) (x : SlotState) : Bool := match x with | .drained h => decide (g.toNat < h.toNat) | _ => false

/-- A slot is DRAINED. -/
def isDrained (x : SlotState) : Bool := match x with | .drained _ => true | _ => false

theorem drainedCount_eq (l : Lane) : l.drainedCount = l.slots.countP isDrained := rfl

theorem retained_eq (keep : Nat) (slots : List SlotState) : retained keep slots = slots.map fun x => match x with
    | .drained g => if keep ≤ slots.countP (drainedAbove g) then .free else x
    | _ => x := rfl

theorem mem_drainedGroups {l : Lane} {g : Word} : g ∈ l.drainedGroups ↔ SlotState.drained g ∈ l.slots := by
  simp only [Lane.drainedGroups, List.mem_filterMap]
  refine ⟨fun ⟨x, hx, he⟩ => ?_, fun h => ⟨_, h, rfl⟩⟩
  cases x <;> cases he
  exact hx

/-- With no more DRAINED slots than may remain, all remain: each has fewer above it than there are. -/
theorem retained_of_few {keep : Nat} {slots : List SlotState} (h : slots.countP isDrained ≤ keep) :
    retained keep slots = slots := by
  rw [retained_eq]
  refine (List.map_congr_left fun x hx => ?_).trans (List.map_id slots)
  cases x with
  | drained g =>
    have hlt : slots.countP (drainedAbove g) < slots.countP isDrained := by
      obtain ⟨a, b, rfl⟩ := List.append_of_mem hx
      have hle (xs : List SlotState) : xs.countP (drainedAbove g) ≤ xs.countP isDrained :=
        List.countP_mono_left fun y _ hy => by cases y <;> simp_all [drainedAbove, isDrained]
      have ha := hle a
      have hb := hle b
      have hg : drainedAbove g (.drained g) = false := by simp [drainedAbove]
      have hd : isDrained (.drained g) = true := rfl
      simp only [List.countP_append, List.countP_cons, hg, hd]
      simp only [Bool.false_eq_true, if_false, if_true]
      omega
    exact if_neg (by omega)
  | _ => rfl

theorem count_drained {slots : List SlotState} {g : Word} (hd : drainedDistinct slots) (hm : SlotState.drained g ∈ slots) :
    slots.count (.drained g) = 1 := by
  refine le_antisymm (Nat.lt_succ_iff.mp (Nat.lt_of_not_le fun h => ?_)) (List.count_pos_iff.mpr hm)
  obtain ⟨i, j, hij, hi, hj⟩ := List.duplicate_iff_exists_distinct_get.mp (List.duplicate_iff_two_le_count.mpr h)
  have : i.val = j.val := hd i.val j.val g
    (by rw [List.getElem?_eq_getElem i.isLt, hi]; rfl) (by rw [List.getElem?_eq_getElem j.isLt, hj]; rfl)
  omega

/-- The slots with the lowest DRAINED one freed. -/
def freed (g : Word) (slots : List SlotState) : List SlotState := slots.map fun x => if x = .drained g then .free else x

theorem countP_eq_add {α : Type} {p q r : α → Bool} {xs : List α}
    (h : ∀ x ∈ xs, (p x).toNat = (q x).toNat + (r x).toNat) : xs.countP p = xs.countP q + xs.countP r := by
  induction xs with
  | nil => rfl
  | cons x xs ih =>
    have hx := h x List.mem_cons_self
    rw [List.countP_cons, List.countP_cons, List.countP_cons, ih fun y hy => h y (List.mem_cons_of_mem _ hy)]
    cases hp : p x <;> cases hq : q x <;> cases hr : r x <;> simp_all <;> omega

section Lowest
variable {slots : List SlotState} {g : Word} (hd : drainedDistinct slots) (hm : SlotState.drained g ∈ slots)
  (hl : ∀ h, SlotState.drained h ∈ slots → g.toNat ≤ h.toNat)
include hd hm hl

theorem countP_drained_lowest : slots.countP isDrained = slots.countP (drainedAbove g) + 1 := by
  rw [← count_drained hd hm]
  refine countP_eq_add fun x hx => ?_
  cases x with
  | drained h =>
    have hle := hl h hx
    by_cases he : h = g
    · subst he; simp [isDrained, drainedAbove]
    · have hne : h.toNat ≠ g.toNat := fun e => he (BitVec.eq_of_toNat_eq e)
      simp [isDrained, drainedAbove, he, show g.toNat < h.toNat by omega]
  | free => rw [show (SlotState.free == .drained g) = false from beq_false_of_ne nofun]; rfl
  | opened h => rw [show (SlotState.opened h == .drained g) = false from beq_false_of_ne nofun]; rfl
  | ready h => rw [show (SlotState.ready h == .drained g) = false from beq_false_of_ne nofun]; rfl

theorem countP_drained_freed : (freed g slots).countP isDrained + 1 = slots.countP isDrained := by
  rw [countP_drained_lowest hd hm hl, freed, List.countP_map]
  refine congrArg (· + 1) (List.countP_congr fun x hx => ?_)
  cases x with
  | drained h =>
    have hle := hl h hx
    by_cases he : h = g
    · subst he; simp [isDrained, drainedAbove]
    · have hne : h.toNat ≠ g.toNat := fun e => he (BitVec.eq_of_toNat_eq e)
      simp [isDrained, drainedAbove, he, show g.toNat < h.toNat by omega]
  | _ => simp [isDrained, drainedAbove]

omit hm hl in
theorem drainedDistinct_freed : drainedDistinct (freed g slots) := by
  have back {i : Nat} {h : Word} (e : (freed g slots)[i]? = some (.drained h)) : slots[i]? = some (.drained h) := by
    rw [freed, List.getElem?_map] at e
    obtain ⟨x, hx, e⟩ := Option.map_eq_some_iff.mp e
    split at e
    · cases e
    · rw [hx, e]
  exact fun i j h hi hj => hd i j h (back hi) (back hj)

/-- Freeing the lowest DRAINED slot of more than may remain does not change which remain. -/
theorem retained_freed {keep : Nat} (h : keep < slots.countP isDrained) :
    retained keep (freed g slots) = retained keep slots := by
  have hlow := countP_drained_lowest hd hm hl
  rw [retained_eq, retained_eq]
  unfold freed
  rw [List.map_map]
  refine List.map_congr_left fun x hx => ?_
  cases x with
  | drained y =>
    by_cases he : y = g
    · subst he
      simp only [Function.comp_apply, if_true]
      exact (if_pos (by omega)).symm
    · have hle := hl y hx
      have hsame : (slots.map fun x => if x = .drained g then .free else x).countP (drainedAbove y)
          = slots.countP (drainedAbove y) := by
        rw [List.countP_map]
        refine List.countP_congr fun z _ => ?_
        by_cases hz : z = .drained g
        · subst hz; simp [drainedAbove, hle]
        · simp [hz]
      simp only [Function.comp_apply, SlotState.drained.injEq, he, if_false, hsame]
  | _ => rfl

end Lowest

theorem freeOldest_eq {l : Lane} {g : Word} (h : lowestGroup l.drainedGroups = some g) :
    l.freeOldest = { l with slots := freed g l.slots } := by
  unfold Lane.freeOldest
  rw [h]
  rfl

/-- Retaining no more than `keep` DRAINED slots, with fuel for all of them, keeps those with the highest groups. -/
theorem retain_eq {keep fuel : Nat} {l : Lane} (hd : drainedDistinct l.slots) (hf : l.drainedCount ≤ fuel) :
    Lane.retain keep fuel l = { l with slots := retained keep l.slots } := by
  induction fuel generalizing l with
  | zero =>
    have : l.slots.countP isDrained ≤ keep := by rw [drainedCount_eq] at hf; omega
    rw [Lane.retain, retained_of_few this]
  | succ fuel ih =>
    rw [Lane.retain]
    split
    next h => rw [retained_of_few h]
    next h =>
      rw [drainedCount_eq] at h hf
      cases hg : lowestGroup l.drainedGroups with
      | none =>
        have hpos : 0 < l.slots.countP isDrained := by omega
        obtain ⟨x, hx, hxd⟩ := List.countP_pos_iff.mp hpos
        cases x <;> cases hxd
        have := mem_drainedGroups.mpr hx
        rw [lowestGroup_eq_none hg] at this
        cases this
      | some g =>
        obtain ⟨hm, hl⟩ := lowestGroup_spec hg
        have hm := mem_drainedGroups.mp hm
        have hl : ∀ y, SlotState.drained y ∈ l.slots → g.toNat ≤ y.toNat := fun y hy => hl y (mem_drainedGroups.mpr hy)
        have hcount := countP_drained_freed hd hm hl
        rw [freeOldest_eq hg, ih (drainedDistinct_freed hd) (by rw [drainedCount_eq]; dsimp only; omega)]
        dsimp only
        rw [retained_freed hd hm hl (by omega)]

/-- Enforcing the retain depth keeps the DRAINED slots with the highest groups (R84). -/
theorem enforceRetain_eq {n : LaneId} {s : State} (hd : drainedDistinct s.lanes[n].slots) :
    enforceRetain n s = { s with lanes := s.lanes.set n { s.lanes[n] with
      slots := retained (min s.re.laneSettings[n].retainDepth (s.lanes[n].slots.length - 1)) s.lanes[n].slots } } := by
  unfold enforceRetain State.modLane
  dsimp only
  rw [retain_eq hd (List.countP_le_length)]

/-- With few enough DRAINED slots enforcing the retain depth changes nothing. -/
theorem enforceRetain_of_few {n : LaneId} {s : State}
    (h : s.lanes[n].drainedCount ≤ min s.re.laneSettings[n].retainDepth (s.lanes[n].slots.length - 1)) :
    enforceRetain n s = s := by
  have hr : Lane.retain (min s.re.laneSettings[n].retainDepth (s.lanes[n].slots.length - 1)) s.lanes[n].slots.length
      s.lanes[n] = s.lanes[n] := by
    generalize s.lanes[n].slots.length = m at h ⊢
    cases m with
    | zero => rfl
    | succ m => exact if_pos h
  unfold enforceRetain State.modLane
  dsimp only
  rw [hr]
  simp
end Sys2Proof.Proofs.Retain
end

section
/-! PROOFS. Settings (R26, R27, R84) and the window table (R5, R6, R9, R167). -/
namespace Sys2Proof.Proofs.Requests
open Sys2Proof Sys2Proof.Machine Sys2Proof.Safety Sys2Proof.Laws Sys2Proof.Proofs.Retain

/-! ## Settings -/

theorem min_eq_ite (a b : Nat) : min a b = if b < a then b else a := by split <;> omega

theorem max_min_eq_clamp {low high x : Nat} (h : low ≤ high) :
    max low (min x high) = if x < low then low else if high < x then high else x := by
  split
  · omega
  · split <;> omega

theorem recordLaneSettings_eq (r : List Byte) : recordLaneSettings r = {
    retainDepth := if 4 < argByte r 5 then 4 else argByte r 5
    streamingLimit := if 1000 < fieldNat r 6 2 then 1000 else fieldNat r 6 2
    ageLimit := if 60000 < fieldNat r 8 2 then 60000 else fieldNat r 8 2
    lossThreshold := if argByte r 10 = 3 ∨ argByte r 10 = 4 then argByte r 10 else 4 } := by
  have hloss : (if argByte r 10 = 3 then 3 else 4) = if argByte r 10 = 3 ∨ argByte r 10 = 4 then argByte r 10 else 4 := by
    split
    next h => rw [if_pos (.inl h), h]
    next h => split <;> omega
  unfold recordLaneSettings
  rw [min_eq_ite, min_eq_ite, min_eq_ite, hloss]

/-- A lane whose open age has not begun makes no close. -/
theorem ageClose_unopened {n : LaneId} {s : State} (h : s.lanes[n].openedAt = none) : ageClose n s = s := by
  have : s.ageExpired n = false := by unfold State.ageExpired; rw [h]
  unfold ageClose
  rw [this]
  rfl

/-- Settles O18: the clamped values are stored; the new retain depth frees DRAINED slots. -/
theorem settingsClamped : Obligations.SettingsClamped := by
  constructor
  · rintro s r n now h ⟨hn, hl⟩ ho a keep settled
    obtain ⟨b, hb⟩ := request_accepted (c := .laneSet now) (u := s.observeTime now) (by decide) rfl rfl h
      (by simp [State.preCheck, RequestKind.namesLane, RequestKind.namesTag, recordLane, hn, hl]) rfl rfl
    have hset : setLane (laneOf (argByte r 4)) (recordLaneSettings r) a = ageClose n (enforceRetain n settled) := by
      rw [hn, laneOf_val, setLane, recordLaneSettings_eq]
      rfl
    have hdepth : min settled.re.laneSettings[n].retainDepth (settled.lanes[n].slots.length - 1) = keep := by
      have : settled.re.laneSettings[n].retainDepth = min (argByte r 5) 4 := by
        simp [settled, min_eq_ite]
      rw [this]
      rfl
    rw [hset] at hb
    refine ⟨fun hk => ⟨b, ?_⟩, fun hd => ⟨b, ?_⟩⟩
    · rwa [enforceRetain_of_few (by rw [hdepth]; exact hk), ageClose_unopened (by exact ho)] at hb
    · rw [enforceRetain_eq (by exact hd), hdepth] at hb
      rwa [ageClose_unopened] at hb
      simpa [settled, a, answered, State.observeTime] using ho
  · intro s r h clamp cruise a
    have hc : 1 ≤ cruise := by simp only [cruise, clamp]; split <;> [omega; split <;> omega]
    have := request_accepted (c := .loaderSet) (u := s) (by decide) rfl rfl h rfl rfl rfl
    have hrec : recordLoaderSettings r = {
        cruiseDuty := cruise, creepDuty := clamp 1 cruise (fieldNat r 6 2)
        markTimeout := clamp 50 2000 (fieldNat r 8 2), stepTimeout := clamp 200 5000 (fieldNat r 10 2) } := by
      have hcruise : max 1 (min (fieldNat r 4 2) 256) = cruise := max_min_eq_clamp (by decide)
      unfold recordLoaderSettings
      dsimp only
      rw [hcruise, max_min_eq_clamp hc, max_min_eq_clamp (by decide : 50 ≤ 2000), max_min_eq_clamp (by decide : 200 ≤ 5000)]
    rw [hrec] at this
    exact this

end Sys2Proof.Proofs.Requests
end

section
/-! PROOFS. The window table (R5, R6, R9, R167): the model's test and what passes R6, window by window. -/
namespace Sys2Proof.Proofs.Requests
open Sys2Proof Sys2Proof.Machine Sys2Proof.Safety Sys2Proof.Laws

/-! ## The windows that R6 compares, numbered -/

/-- The lanes of the part. -/
def lanesBelow (drives : Nat) : List LaneId := (List.finRange 4).filter fun n => decide (n.val < drives)

/-- The windows that R6 compares, each with its number, in the order of the numbers. -/
def numberedWindows (l : Layout) (drives : Nat) : List (Nat × Window) :=
  (List.finRange 4).map (fun i : Fin 4 => (i.val, l.apertures[i]))
    ++ (lanesBelow drives).map (fun n => (4 + n.val, l.pools[n].window))
    ++ (lanesBelow drives).map (fun n => (8 + n.val, l.rings[n]))
    ++ [(12, l.catalog), (13, l.restore)]

theorem take_eq_lanesBelow {α β : Type} (v : Vector α 4) (f : α → β) (drives : Nat) :
    (v.toList.take drives).map f = (lanesBelow drives).map fun n => f v[n] := by
  have hv : v.toList = (List.finRange 4).map fun n => v[n] := by
    refine List.ext_getElem (by simp) fun i h1 h2 => by simp
  have hl : lanesBelow drives = (List.finRange 4).take drives := by
    match drives with
    | 0 => rfl
    | 1 => rfl
    | 2 => rfl
    | 3 => rfl
    | d + 4 =>
      rw [List.take_of_length_le (by simp)]
      exact List.filter_eq_self.mpr fun n _ => decide_eq_true (by have := n.isLt; omega)
  rw [hv, hl, ← List.map_take, List.map_map]
  rfl

theorem windows_eq (l : Layout) (drives : Nat) : l.windows drives = (numberedWindows l drives).map Prod.snd := by
  have ha : l.apertures.toList = (List.finRange 4).map fun i => l.apertures[i] :=
    List.ext_getElem (by simp) fun i h1 h2 => by simp
  have hr := take_eq_lanesBelow l.rings id drives
  rw [List.map_id] at hr
  unfold Layout.windows numberedWindows
  rw [ha, take_eq_lanesBelow l.pools Pool.window, hr]
  simp [Function.comp_def]

theorem mem_numberedWindows {l : Layout} {drives k : Nat} {w : Window} :
    (k, w) ∈ numberedWindows l drives ↔ windowNumbered l drives k w := by
  simp only [numberedWindows, windowNumbered, lanesBelow, List.mem_append, List.mem_map, List.mem_filter, List.mem_finRange,
    List.mem_cons, List.not_mem_nil, Prod.mk.injEq, decide_eq_true_eq, true_and, or_false, Pool.window]
  constructor
  · rintro (((⟨i, rfl, rfl⟩ | ⟨n, hn, rfl, rfl⟩) | ⟨n, hn, rfl, rfl⟩) | ⟨rfl, rfl⟩ | ⟨rfl, rfl⟩)
    · exact .inl ⟨i, rfl, rfl⟩
    · exact .inr (.inl ⟨n, rfl, hn, rfl⟩)
    · exact .inr (.inr (.inl ⟨n, rfl, hn, rfl⟩))
    · exact .inr (.inr (.inr (.inl ⟨rfl, rfl⟩)))
    · exact .inr (.inr (.inr (.inr ⟨rfl, rfl⟩)))
  · rintro (⟨i, rfl, rfl⟩ | ⟨n, rfl, hn, rfl⟩ | ⟨n, rfl, hn, rfl⟩ | ⟨rfl, rfl⟩ | ⟨rfl, rfl⟩)
    · exact .inl (.inl (.inl ⟨i, rfl, rfl⟩))
    · exact .inl (.inl (.inr ⟨n, hn, rfl, rfl⟩))
    · exact .inl (.inr ⟨n, hn, rfl, rfl⟩)
    · exact .inr (.inl ⟨rfl, rfl⟩)
    · exact .inr (.inr ⟨rfl, rfl⟩)

theorem numberedWindows_sorted (l : Layout) (drives : Nat) :
    (numberedWindows l drives).Pairwise fun x y => x.1 < y.1 := by
  have hlt : (lanesBelow drives).Pairwise (· < ·) := List.Pairwise.filter _ (List.pairwise_lt_finRange 4)
  have part (f : LaneId → Nat × Window) (hf : ∀ a b : LaneId, a < b → (f a).1 < (f b).1) :
      ((lanesBelow drives).map f).Pairwise fun x y => x.1 < y.1 := List.pairwise_map.mpr (hlt.imp fun h => hf _ _ h)
  unfold numberedWindows
  simp only [List.pairwise_append, List.mem_append, List.mem_map, List.mem_cons, List.not_mem_nil, or_false]
  refine ⟨⟨⟨List.pairwise_map.mpr ((List.pairwise_lt_finRange 4).imp fun h => h), part _ fun a b h => ?_, ?_⟩,
    part _ fun a b h => ?_, ?_⟩, by simp, ?_⟩
  · have : a.val < b.val := h
    dsimp only; omega
  · rintro _ ⟨a, -, rfl⟩ _ ⟨b, -, rfl⟩
    have := a.isLt
    dsimp only; omega
  · have : a.val < b.val := h
    dsimp only; omega
  · rintro _ (⟨a, -, rfl⟩ | ⟨a, -, rfl⟩) _ ⟨b, -, rfl⟩ <;> have := a.isLt <;> dsimp only <;> omega
  · rintro _ ((⟨a, -, rfl⟩ | ⟨a, -, rfl⟩) | ⟨a, -, rfl⟩) _ (rfl | rfl) <;> have := a.isLt <;> dsimp only <;> omega

/-! ## Disjointness and the other tests -/

theorem disjoint_iff {a b : Window} : a.disjoint b = true ↔ a.base + a.size ≤ b.base ∨ b.base + b.size ≤ a.base := by
  simp [Window.disjoint]

theorem allDisjoint_iff (ws : List Window) : allDisjoint ws = true ↔ ws.Pairwise fun a b => a.disjoint b = true := by
  induction ws with
  | nil => simp [allDisjoint]
  | cons w ws ih => rw [allDisjoint, Bool.and_eq_true, ih, List.all_eq_true, List.pairwise_cons]

/-- Two numbered windows share no byte unless they have one number. -/
def ApartIfDistinct (x y : Nat × Window) : Prop := x.1 ≠ y.1 → x.2.disjoint y.2 = true

theorem allDisjoint_windows {l : Layout} {drives : Nat} : allDisjoint (l.windows drives) = true ↔
    ∀ j k v w, j < k → windowNumbered l drives j v → windowNumbered l drives k w →
      v.base + v.size ≤ w.base ∨ w.base + w.size ≤ v.base := by
  rw [allDisjoint_iff, windows_eq, List.pairwise_map]
  constructor
  · intro h j k v w hjk hv hw
    have hsymm : Std.Symm ApartIfDistinct :=
      ⟨fun x y hxy hne => disjoint_iff.mpr (disjoint_iff.mp (hxy hne.symm)).symm⟩
    have hall := h.imp (S := ApartIfDistinct) fun hd _ => hd
    exact disjoint_iff.mp (hall.forall_of_forall (fun x _ hne => absurd rfl hne)
      (mem_numberedWindows.mpr hv) (mem_numberedWindows.mpr hw) (Nat.ne_of_lt hjk))
  · intro h
    refine (numberedWindows_sorted l drives).imp_of_mem fun {x y} hx hy hlt => ?_
    exact disjoint_iff.mpr (h x.1 y.1 x.2 y.2 hlt (mem_numberedWindows.mp hx) (mem_numberedWindows.mp hy))

theorem windows_within {l : Layout} {drives : Nat} :
    ((l.windows drives).all fun w => decide (0x10000 ≤ w.base) && decide (w.base + w.size ≤ l.memorySize)) = true ↔
      ∀ k w, windowNumbered l drives k w → 0x10000 ≤ w.base ∧ w.base + w.size ≤ l.memorySize := by
  rw [windows_eq, List.all_map, List.all_eq_true]
  simp only [Function.comp_apply, Bool.and_eq_true, decide_eq_true_eq]
  exact ⟨fun h k w hw => h (k, w) (mem_numberedWindows.mpr hw), fun h x hx => h x.1 x.2 (mem_numberedWindows.mp hx)⟩

theorem windowOk_iff {unit low high : Nat} {w : Window} : windowOk unit low high w = true ↔ windowFits unit low high w := by
  simp [windowOk, windowFits, and_assoc]

theorem apertureOk_iff {w : Window} :
    apertureOk w = true ↔ (∃ k, 16 ≤ k ∧ k ≤ 20 ∧ w.size = 2 ^ k) ∧ w.base % w.size = 0 := by
  have hs : w.size ∈ [65536, 131072, 262144, 524288, 1048576] ↔ ∃ k, 16 ≤ k ∧ k ≤ 20 ∧ w.size = 2 ^ k := by
    simp only [List.mem_cons, List.not_mem_nil, or_false]
    constructor
    · rintro (h | h | h | h | h)
      · exact ⟨16, by omega, by omega, h⟩
      · exact ⟨17, by omega, by omega, h⟩
      · exact ⟨18, by omega, by omega, h⟩
      · exact ⟨19, by omega, by omega, h⟩
      · exact ⟨20, by omega, by omega, h⟩
    · rintro ⟨k, h1, h2, h⟩
      rw [h]
      interval_cases k <;> simp
  rw [← hs]
  simp only [apertureOk, Bool.and_eq_true, List.contains_iff_mem, decide_eq_true_eq]

theorem memorySize_iff {m : Nat} : [2 ^ 28, 2 ^ 29, 2 ^ 30, 2 ^ 31, 2 ^ 32].contains m = true ↔
    ∃ k, 28 ≤ k ∧ k ≤ 32 ∧ m = 2 ^ k := by
  rw [List.contains_iff_mem]
  simp only [List.mem_cons, List.not_mem_nil, or_false]
  constructor
  · rintro (h | h | h | h | h)
    · exact ⟨28, by omega, by omega, h⟩
    · exact ⟨29, by omega, by omega, h⟩
    · exact ⟨30, by omega, by omega, h⟩
    · exact ⟨31, by omega, by omega, h⟩
    · exact ⟨32, by omega, by omega, h⟩
  · rintro ⟨k, h1, h2, h⟩
    rw [h]
    interval_cases k <;> simp

theorem take_all {α : Type} {v : Vector α 4} {f : α → Bool} {drives : Nat} :
    (v.toList.take drives).all f = true ↔ ∀ n : LaneId, n.val < drives → f v[n] = true := by
  have h := take_eq_lanesBelow v f drives
  have ha (xs : List α) : xs.all f = (xs.map f).all id := by rw [List.all_map]; rfl
  rw [ha, h, List.all_map, List.all_eq_true]
  simp [lanesBelow]

/-- The model's test of a table is R6. -/
theorem valid_iff (l : Layout) (drives : Nat) : l.valid drives = true ↔ tableAccepted l drives := by
  have hpool (n : LaneId) : (poolOk l.pools[n] = true ∧ windowOk 32768 65536 4194304 l.rings[n] = true) ↔
      l.pools[n].base % 32768 = 0 ∧ 4 ≤ l.pools[n].slots ∧ l.pools[n].slots ≤ 64
        ∧ windowFits 32768 65536 4194304 l.rings[n] := by
    simp only [poolOk, windowOk_iff, Bool.and_eq_true, decide_eq_true_eq, and_assoc]
  have hap : l.apertures.toList.all apertureOk = true ↔ ∀ i : StreamId, apertureOk l.apertures[i] = true := by
    have := take_all (v := l.apertures) (f := apertureOk) (drives := 4)
    rw [List.take_of_length_le (by simp)] at this
    exact this.trans ⟨fun h i => h i i.isLt, fun h i _ => h i⟩
  simp only [Layout.valid, Bool.and_eq_true, memorySize_iff, hap, take_all, windowOk_iff, windows_within, allDisjoint_windows,
    apertureOk_iff, tableAccepted, and_assoc]
  refine and_congr_right fun _ => and_congr_right fun _ => ?_
  rw [← and_assoc]
  refine and_congr_left fun _ => ?_
  exact ⟨fun h n hn => (hpool n).mp ⟨h.1 n hn, windowOk_iff.mpr (h.2 n hn)⟩, fun h =>
    ⟨fun n hn => ((hpool n).mpr (h n hn)).1, fun n hn => windowOk_iff.mp ((hpool n).mpr (h n hn)).2⟩⟩

/-! ## The table of a record -/

theorem recordLayout_tableOf (drives : Nat) (r : List Byte) : tableOf drives r (recordLayout drives r) := by
  refine ⟨rfl, fun i => ?_, fun n hn => ?_, fun n hn => ?_, ?_, ?_⟩
  · simp [recordLayout, Nat.mul_comm]
  · simp [recordLayout, Nat.mul_comm, hn]
  · simp [recordLayout, Nat.not_lt.mpr hn]
  · simp [recordLayout, Nat.mul_comm]
  · simp [recordLayout, Nat.mul_comm]

/-! ## LAYOUT_SET -/

theorem layoutBusy_iff {s : State} : ((List.finRange 8).any (fun k => s.jt.jobs[k].live)
      || (List.finRange 4).any (fun n => decide (s.lanes[n].role ≠ .idle))) = true ↔
    (∃ k : SlotId, s.jt.jobs[k].live = true) ∨ ∃ n : LaneId, s.lanes[n].role ≠ .idle := by
  simp

/-- Settles O17: busy, accepted and invalid in that order, with the model's test equal to R6. -/
theorem layoutSetAcceptsValid : Obligations.LayoutSetAcceptsValid := by
  refine ⟨valid_iff, recordLayout_tableOf, ?_⟩
  intro s r h l a
  refine ⟨fun hb => ?_, fun hj hl => ?_⟩
  · exact request_refused (u := s) rfl rfl h rfl rfl (if_pos (layoutBusy_iff.mpr hb))
  · have hfree : ¬ ((List.finRange 8).any (fun k => s.jt.jobs[k].live)
        || (List.finRange 4).any (fun n => decide (s.lanes[n].role ≠ .idle))) = true := by
      rw [layoutBusy_iff]
      rintro (⟨k, hk⟩ | ⟨n, hn⟩)
      · rw [hj k] at hk; cases hk
      · exact hn (hl n)
    refine ⟨fun hv => ?_, fun hv => ?_⟩
    · exact request_accepted (c := .layoutSet) (u := s) (by decide) rfl rfl h rfl rfl
        ((if_neg hfree).trans (if_pos hv))
    · exact request_refused (u := s) rfl rfl h rfl rfl
        ((if_neg hfree).trans (if_neg (Bool.eq_false_iff.mp hv)))

end Sys2Proof.Proofs.Requests
end

section
/-! PROOFS. The Cartridge Directory's own changes (R137, R143, R144): what they leave of every other block. -/
namespace Sys2Proof.Proofs.Places
open Sys2Proof Sys2Proof.Machine Sys2Proof.Safety Sys2Proof.Laws

/-- Nothing but the directory differs. -/
def DirectoryOnly (s t : State) : Prop := t = { s with cd := t.cd }

theorem DirectoryOnly.trans {s t u : State} (h : DirectoryOnly s t) (h' : DirectoryOnly t u) : DirectoryOnly s u := by
  unfold DirectoryOnly at *
  rw [h] at h'
  exact h'

theorem DirectoryOnly.foldl {α : Type} {f : State → α → State} (hf : ∀ s x, DirectoryOnly s (f s x)) (l : List α) :
    ∀ s, DirectoryOnly s (l.foldl f s) := by
  induction l with
  | nil => exact fun _ => rfl
  | cons x l ih => exact fun s => (hf s x).trans (ih (f s x))

section Frames
variable (s : State)

theorem setPlaceState_frame (p : PlaceId) (x : PlaceState) : DirectoryOnly s (setPlaceState p x s) := rfl

theorem setPending_frame (p : PlaceId) (x : Option Byte) : DirectoryOnly s (setPending p x s) := rfl

theorem setDoor_frame (d : Door) (x : DoorState) : DirectoryOnly s (s.setDoor d x) := by cases d <;> rfl

theorem vacate_frame (p : PlaceId) (x : PlaceState) : DirectoryOnly s (vacate p x s) := by
  unfold vacate; split <;> rfl

theorem newCartridge_frame (p : PlaceId) (l : Option Label) : DirectoryOnly s (newCartridge p l s) := by
  unfold newCartridge; split <;> rfl

theorem sensePicker_frame : DirectoryOnly s (sensePicker s) := by
  unfold sensePicker
  split
  · split
    · rfl
    · exact vacate_frame ..
  · split
    · exact newCartridge_frame ..
    · rfl

theorem openDoor_frame (d : Door) : DirectoryOnly s (openDoor d s) :=
  (setDoor_frame s d _).trans (DirectoryOnly.foldl (fun s p => vacate_frame s p .unknown) (placesBehind d) _)

theorem interruptGripper_frame : DirectoryOnly s (interruptGripper s) := by
  unfold interruptGripper
  split
  · exact sensePicker_frame s
  · split
    · exact sensePicker_frame s
    · exact (vacate_frame s _ _).trans (sensePicker_frame _)

theorem directoryPartReset_frame : DirectoryOnly s (directoryPartReset s) := by
  have hstep (s : State) (x : DirectorySignal) :
      DirectoryOnly s (match x with | .edge d => openDoor d s | .label _ _ => s) := by
    cases x with
    | edge d => exact openDoor_frame s d
    | label _ _ => rfl
  have h := (interruptGripper_frame s).trans (DirectoryOnly.foldl hstep (interruptGripper s).cd.held _)
  exact h.trans rfl

end Frames

/-- Where the PICKER's input agrees with its record, sensing it changes nothing. -/
theorem sensePicker_agrees {s : State} (h : pickerLoaded s ↔ s.lc.lines.cartridgePresent = true) : sensePicker s = s := by
  unfold sensePicker
  split
  · next c hc => rw [if_pos (h.mp ⟨c, hc⟩)]
  · next hn => rw [if_neg fun hl => (h.mpr hl).elim hn]

/-- Without a gripper step an interruption only senses the PICKER. -/
theorem interruptGripper_idle {s : State} (h : s.lc.step = none) : interruptGripper s = sensePicker s := by
  simp [interruptGripper, State.gripperPlace, h]

end Sys2Proof.Proofs.Places
end

section
/-! PROOFS. The status image (R29, R170): every record keeps inside its place, whatever the state, so that writing the records
one after another leaves each of them in memory whole. -/
namespace Sys2Proof.Proofs.Image
open Sys2Proof Sys2Proof.Machine Sys2Proof.Safety Sys2Proof.Laws

/-! ## Records in order -/

/-- The records lie in order inside `[lo, hi)`, no two of them sharing a byte. -/
def Ordered : Nat → Nat → List (Nat × List Byte) → Prop
  | lo, hi, [] => lo ≤ hi
  | lo, hi, r :: rs => lo ≤ r.1 ∧ Ordered (r.1 + r.2.length) hi rs

theorem ordered_le {lo hi : Nat} {rs : List (Nat × List Byte)} (h : Ordered lo hi rs) : lo ≤ hi := by
  induction rs generalizing lo with
  | nil => exact h
  | cons r rs ih => have := ih h.2; have := h.1; omega

theorem ordered_mono {lo lo' hi : Nat} {rs : List (Nat × List Byte)} (h : Ordered lo hi rs) (hl : lo' ≤ lo) :
    Ordered lo' hi rs := by
  cases rs with
  | nil => exact hl.trans h
  | cons r rs => exact ⟨hl.trans h.1, h.2⟩

theorem ordered_append {lo mid hi : Nat} {xs ys : List (Nat × List Byte)} (hx : Ordered lo mid xs) (hy : Ordered mid hi ys) :
    Ordered lo hi (xs ++ ys) := by
  induction xs generalizing lo with
  | nil => exact ordered_mono hy hx
  | cons x xs ih => exact ⟨hx.1, ih hx.2⟩

theorem ordered_single {lo hi : Nat} {r : Nat × List Byte} (h : lo ≤ r.1) (hr : r.1 + r.2.length ≤ hi) : Ordered lo hi [r] :=
  ⟨h, hr⟩

/-- A row of records at a fixed distance, each no longer than it. -/
theorem ordered_row {n : Nat} (base stride : Nat) (f : Fin n → List Byte) (h : ∀ k, (f k).length ≤ stride) :
    Ordered base (base + stride * n) ((List.finRange n).map fun k => (base + stride * k.val, f k)) := by
  have key (m : Nat) (hm : m ≤ n) : Ordered (base + stride * (n - m)) (base + stride * n)
      (((List.finRange n).drop (n - m)).map fun k => (base + stride * k.val, f k)) := by
    induction m with
    | zero =>
      rw [Nat.sub_zero, List.drop_of_length_le (by simp)]
      exact le_rfl
    | succ m ih =>
      have hlt : n - (m + 1) < (List.finRange n).length := by simp; omega
      rw [List.drop_eq_getElem_cons hlt, List.map_cons]
      have hstep : n - (m + 1) + 1 = n - m := by omega
      rw [hstep]
      refine ⟨by simp, ordered_mono (ih (by omega)) ?_⟩
      have hk := h (List.finRange n)[n - (m + 1)]
      have hv : ((List.finRange n)[n - (m + 1)]).val = n - (m + 1) := by simp
      have hmul : stride * (n - m) = stride * (n - (m + 1)) + stride := by rw [← hstep, Nat.mul_succ]
      simp only [hv]
      omega
  simpa using key n le_rfl

/-! ## Writing records in order -/

theorem writeRecords_outside {rs : List (Nat × List Byte)} {m : List Host.Cell} {a : Nat}
    (h : ∀ r ∈ rs, a < r.1 ∨ r.1 + r.2.length ≤ a) : memRead (writeRecords m rs) a = memRead m a := by
  induction rs generalizing m with
  | nil => rfl
  | cons r rs ih =>
    rw [writeRecords, List.foldl_cons]
    exact (ih fun x hx => h x (List.mem_cons_of_mem _ hx)).trans
      (memRead_memWrite_outside m _ _ a (h r List.mem_cons_self))

theorem ordered_range {lo hi : Nat} {rs : List (Nat × List Byte)} (h : Ordered lo hi rs) :
    ∀ r ∈ rs, lo ≤ r.1 ∧ r.1 + r.2.length ≤ hi := by
  induction rs generalizing lo with
  | nil => simp
  | cons x rs ih =>
    rintro r (_ | ⟨_, hr⟩)
    · exact ⟨h.1, ordered_le h.2⟩
    · have := ih h.2 r hr
      have := h.1
      omega

/-- Records written in order are all read back. -/
theorem writeRecords_inside {lo hi : Nat} {rs : List (Nat × List Byte)} {m : List Host.Cell} (h : Ordered lo hi rs) :
    ∀ r ∈ rs, ∀ (i : Nat) (hi : i < r.2.length), memRead (writeRecords m rs) (r.1 + i) = r.2[i] := by
  induction rs generalizing lo m with
  | nil => simp
  | cons x rs ih =>
    rintro r (_ | ⟨_, hr⟩) i hi
    · refine (writeRecords_outside (m := memWrite m x.1 x.2) fun y hy => ?_).trans (memRead_memWrite_inside m x.1 x.2 i hi)
      have := (ordered_range h.2 y hy).1
      omega
    · exact ih h.2 r hr i hi

/-! ## The length of a record -/

theorem leBytes_length (n x : Nat) : (leBytes n x).length = n := by
  induction n generalizing x with
  | zero => rfl
  | succ n ih => simp [leBytes, ih]

/-- The number of words that fields show. -/
def wordCount (fs : List Shown) : Nat := (fs.map fun f => f.words.length).sum

theorem words_length (ws : List Nat) : (ws.flatMap fun w => leBytes 4 w).length = 4 * ws.length := by
  induction ws with
  | nil => rfl
  | cons w ws ih => simp only [List.flatMap_cons, List.length_append, leBytes_length, ih, List.length_cons]; omega

theorem recordBytes_length (fs : List Shown) : (recordBytes fs).length = 4 + 4 * wordCount fs := by
  rw [recordBytes, List.length_append, leBytes_length, words_length, List.length_flatMap, wordCount]

@[simp] theorem wordCount_nil : wordCount [] = 0 := rfl
@[simp] theorem wordCount_cons (f : Shown) (fs : List Shown) : wordCount (f :: fs) = f.words.length + wordCount fs := rfl
@[simp] theorem wordCount_append (fs gs : List Shown) : wordCount (fs ++ gs) = wordCount fs + wordCount gs := by
  simp [wordCount]
@[simp] theorem shown_words (ws : List Nat) : (shown ws).words = ws := rfl
@[simp] theorem shownIf_length (b : Bool) (ws : List Nat) : (shownIf b ws).words.length = ws.length := by
  cases b <;> simp [shownIf]

theorem wordCount_map {n w : Nat} (f : Fin n → Shown) (h : ∀ k, (f k).words.length = w) :
    wordCount ((List.finRange n).map f) = n * w := by
  simp [wordCount, Function.comp_def, h]

/-- A list shown with its count fills its capacity. -/
theorem listWords_length {capacity width : Nat} {es : List (List Nat)} (h : ∀ e ∈ es, e.length = width) :
    (listWords capacity width es).length = 1 + width * capacity := by
  have hf : ((es.take capacity).flatten).length = min capacity es.length * width := by
    rw [List.length_flatten, List.map_congr_left fun e he => h e (List.mem_of_mem_take he), List.map_const',
      List.sum_replicate, List.length_take, smul_eq_mul]
  simp only [listWords, List.length_cons, List.length_append, hf, List.length_replicate]
  have hm : width * (capacity - es.length) + min capacity es.length * width = width * capacity := by
    rw [Nat.mul_comm (min _ _), ← Nat.mul_add]
    congr 1
    omega
  omega

theorem listWords_map_length {α : Type} (capacity width : Nat) (xs : List α) (f : α → List Nat)
    (h : ∀ x, (f x).length = width) : (listWords capacity width (xs.map f)).length = 1 + width * capacity := by
  refine listWords_length fun e he => ?_
  obtain ⟨x, -, rfl⟩ := List.mem_map.mp he
  exact h x

theorem slotShown_length (x : SlotState) : x.shown.length = 2 := by cases x <;> rfl

/-! ## The length of each record of the image -/

theorem partRecord_length (s : State) : (recordBytes (partRecord s)).length = 20 := by
  rw [recordBytes_length]; rfl

theorem tableRecord_length (s : State) : (recordBytes (tableRecord s)).length = 124 := by
  have h (f : Fin 4 → Shown) (hf : ∀ k, (f k).words.length = 2) : wordCount ((List.finRange 4).map f) = 8 :=
    wordCount_map f hf
  simp [recordBytes_length, tableRecord, h]

theorem apertureRecord_length (a : Aperture) : (recordBytes (apertureRecord a)).length = 16 := by
  rw [recordBytes_length]; rfl

theorem streamRecord_length (s : State) (i : StreamId) : (recordBytes (streamRecord s i)).length = 36 := by
  unfold streamRecord
  dsimp only
  cases s.streams[i].slot <;> cases s.streams[i].buffers[0].entry <;> cases s.streams[i].buffers[1].entry <;>
    simp [recordBytes_length]

/-- The word counts of a list of fields, one field at a time. -/
theorem counts_cons {f : Shown} {fs : List Shown} {w : Nat} {ws : List Nat} (h : f.words.length = w)
    (hs : fs.map (fun f => f.words.length) = ws) : (f :: fs).map (fun f => f.words.length) = w :: ws := by
  rw [List.map_cons, h, hs]

theorem laneFields_count (s : State) (n : LaneId) : wordCount (laneFields s n) = 212 := by
  have hs := listWords_map_length 64 2 s.lanes[n].slots SlotState.shown slotShown_length
  have hr := listWords_map_length 64 1 s.lanes[n].heldReads (fun k => [k]) fun _ => rfl
  have h : (laneFields s n).map (fun f => f.words.length) = [1, 1, 1, 129, 1, 3, 1, 1, 1, 1, 65, 7] := by
    refine counts_cons rfl <| counts_cons rfl <| counts_cons rfl <| counts_cons hs <| counts_cons rfl <| counts_cons ?_ <|
      counts_cons ?_ <| counts_cons rfl <| counts_cons ?_ <| counts_cons ?_ <| counts_cons hr <| counts_cons rfl rfl
    all_goals split <;> rfl
  rw [wordCount, h]
  rfl

theorem assemblyWords_length (a : Assembly) : (assemblyWords a).length = 24 := by
  rw [assemblyWords, List.length_append, listWords_map_length 6 2 a.pieces _ fun _ => rfl]
  rfl

theorem framerFields_count (s : State) (n : LaneId) : wordCount (framerFields s n) = 48 := by
  have h : (framerFields s n).map (fun f => f.words.length) = [1, 1, 1, 1, 1, 1, 2, 1, 1, 3, 1, 1, 25, 4, 4] := by
    refine counts_cons rfl <| counts_cons rfl <| counts_cons rfl <| counts_cons rfl <| counts_cons rfl <| counts_cons rfl <|
      counts_cons ?_ <| counts_cons rfl <| counts_cons ?_ <| counts_cons ?_ <| counts_cons ?_ <| counts_cons rfl <|
      counts_cons ?assembler <| counts_cons ?_ <| counts_cons rfl rfl
    case assembler =>
      refine congrArg (· + 1) ?_
      split
      · exact assemblyWords_length _
      · exact assemblyWords_length _
      · rfl
    all_goals split <;> rfl
  rw [wordCount, h]
  rfl

theorem decodeRecord_length (s : State) : (recordBytes (decodeRecord s)).length = 412 := by
  have hq := listWords_map_length 8 3 s.de.queue (fun e => [e.lane.val, e.slot.val, e.header.sequence.toNat]) fun _ => rfl
  have hh := listWords_map_length 4 1 s.de.holding (fun n => [n.val]) fun _ => rfl
  have hd := listWords_map_length 8 1 s.de.due (fun k => [k.val]) fun _ => rfl
  have hs (f : Fin 8 → Shown) (h : ∀ k, (f k).words.length = 4) : wordCount ((List.finRange 8).map f) = 32 := wordCount_map f h
  have hf (f : Fin 8 → Shown) (h : ∀ k, (f k).words.length = 3) : wordCount ((List.finRange 8).map f) = 24 := wordCount_map f h
  rw [recordBytes_length, decodeRecord, wordCount_append, wordCount_append, hs _ fun _ => rfl, hf]
  · rw [wordCount]
    refine congrArg (fun ws : List Nat => 4 + 4 * (ws.sum + 32 + 24)) (a₂ := [25, 5, 9, 7]) ?_
    refine counts_cons hq <| counts_cons hh <| counts_cons hd <| counts_cons ?_ rfl
    split <;> rfl
  · intro k
    split
    · rfl
    next r q _ => cases r <;> rfl

theorem jobRecord_length (j : JobSlot) : (recordBytes (jobRecordShown j)).length = 132 := by
  simp [recordBytes_length, jobRecordShown, longWords]

theorem cartRecord_length (c : Option CartRecord) : (recordBytes (cartRecordShown c)).length = 40 := by
  cases c with
  | none => rw [recordBytes_length]; rfl
  | some r =>
    have h : (cartRecordShown (some r)).map (fun f => f.words.length) = [1, 2, 1, 1, 1, 1, 1, 1] := by
      refine counts_cons rfl <| counts_cons ?_ <| counts_cons rfl <| counts_cons ?_ rfl
      all_goals split <;> rfl
    rw [recordBytes_length, wordCount, h]
    rfl

theorem timerShown_length (s : State) (x : Option Timer) : (s.timerShown x).words.length = 1 := by cases x <;> rfl

theorem loaderRecord_length (s : State) : (recordBytes (loaderRecord s)).length = 148 := by
  have hb := listWords_map_length 9 1 s.lc.received (fun b => [b.toNat]) fun _ => rfl
  have h : (loaderRecord s).map (fun f => f.words.length) = [1, 1, 1, 3, 1, 1, 1, 12, 1, 14] := by
    refine counts_cons rfl <| counts_cons ?_ <| counts_cons rfl <| counts_cons ?_ <| counts_cons (timerShown_length ..) <|
      counts_cons (timerShown_length ..) <| counts_cons (timerShown_length ..) <|
      counts_cons (congrArg (· + 2) hb) <| counts_cons rfl <| counts_cons rfl rfl
    all_goals split <;> rfl
  rw [recordBytes_length, wordCount, h]
  rfl

theorem orderRecord_length (s : State) (o : Option Order) : (orderRecord s o).length = 44 := by
  cases o with
  | none => rfl
  | some o =>
    rw [orderRecord, recordBytes_length, wordCount]
    refine congrArg (fun ws : List Nat => 4 + 4 * ws.sum) (a₂ := [1, 1, 1, 1, 1, 2, 1, 2]) ?_
    refine counts_cons rfl <| counts_cons rfl <| counts_cons ?_ <| counts_cons ?_ <| counts_cons ?_ <| counts_cons ?_ <|
      counts_cons rfl <| counts_cons ?_ rfl
    all_goals split <;> rfl

theorem settingsRecord_length (s : State) : (recordBytes (settingsRecord s)).length = 84 := by
  rw [recordBytes_length, settingsRecord, wordCount_append, wordCount_map (w := 4) _ fun _ => rfl]
  rfl

theorem countsRecords_ordered (s : State) : Ordered 0x9004 0x9100 (countsRecords s) := by
  have hw (w : Word) : (word w).length = 4 := leBytes_length 4 _
  have hwait : ((listWords 4 1 (s.sc.waitList.map fun n => [n.val])).flatMap fun w => leBytes 4 w).length = 20 := by
    rw [words_length, listWords_map_length 4 1 _ _ fun _ => rfl]
  unfold countsRecords
  refine ordered_append (mid := 0x9060) (ordered_append (mid := 0x9040) ?_ ?_) ?_
  · simp [Ordered, hw, hwait]
  · exact ordered_row 0x9040 4 (fun k : Fin 8 => word s.de.slots[k].producer) fun k => (hw _).le
  · have := ordered_row 0x9060 4 (fun k : Fin 8 => word s.de.slots[k].consumer) fun k => (hw _).le
    simpa using ordered_append (ys := []) this (show 0x9060 + 4 * 8 ≤ 0x9100 by decide)

/-- The image's records lie in order from the counts record on, inside the image, whatever the state. -/
theorem imageRecords_ordered (s : State) : Ordered 0x9004 0x10000 (imageRecords s) := by
  unfold imageRecords
  refine ordered_append (mid := 0xC600) (ordered_append (mid := 0xC200) (ordered_append (mid := 0xC100)
    (ordered_append (mid := 0xB900) (ordered_append (mid := 0xB800) (ordered_append (mid := 0xB000)
    (ordered_append (mid := 0xAC00) (ordered_append (mid := 0x9400) (ordered_append (mid := 0x9280)
    (ordered_append (mid := 0x9240) (ordered_append (mid := 0x9200) (ordered_append (mid := 0x9100)
    (countsRecords_ordered s) ?parts) ?streamApertures) ?ringApertures) ?streams) ?lanes) ?decode) ?jobs) ?places) ?carts)
    ?loader) ?orders) ?settings
  case parts => simp [Ordered, partRecord_length, tableRecord_length]
  case streamApertures =>
    exact ordered_row 0x9200 16 (fun i : Fin 4 => recordBytes (apertureRecord s.wd.streamAperture[i])) <|
      fun i => (apertureRecord_length _).le
  case ringApertures =>
    exact ordered_row 0x9240 16 (fun n : Fin 4 => recordBytes (apertureRecord s.wd.ringAperture[n])) <|
      fun n => (apertureRecord_length _).le
  case streams =>
    have := ordered_row 0x9280 64 (fun i : Fin 4 => recordBytes (streamRecord s i))
      fun i => by rw [streamRecord_length]; decide
    simpa using ordered_append (ys := []) this (show 0x9280 + 64 * 4 ≤ 0x9400 by decide)
  case lanes =>
    exact ordered_row 0x9400 0x600 (fun n : Fin 4 => recordBytes (laneFields s n ++ framerFields s n)) fun n => by
      rw [recordBytes_length, wordCount_append, laneFields_count, framerFields_count]; decide
  case decode => simp [Ordered, decodeRecord_length]
  case jobs =>
    exact ordered_row 0xB000 256 (fun k : Fin 8 => recordBytes (jobRecordShown s.jt.jobs[k])) <|
      fun k => by rw [jobRecord_length]; decide
  case places =>
    have hp : (recordBytes ((List.finRange 30).map fun p => shown [placeWord s.cd.places[p]])).length = 124 := by
      rw [recordBytes_length, wordCount_map (w := 1) _ fun _ => rfl]
    refine ⟨le_rfl, ?_, ?_⟩
    · dsimp only
      rw [hp]
      decide
    · exact show 0xB8F0 + (recordBytes _).length ≤ 0xB900 from by
        rw [recordBytes_length]
        exact Nat.le_refl 47360
  case carts =>
    exact ordered_row 0xB900 64 (fun c : Fin 32 => recordBytes (cartRecordShown s.cd.records[c])) <|
      fun c => by rw [cartRecord_length]; decide
  case loader => simp [Ordered, loaderRecord_length]
  case orders =>
    exact ordered_row 0xC200 64 (fun i : Fin 16 => orderRecord s s.lc.queue[i.val]?) <|
      fun i => by rw [orderRecord_length]; decide
  case settings => simp [Ordered, settingsRecord_length]

end Sys2Proof.Proofs.Image
end

section
/-! PROOFS. Refreshes and resets (R1, R25, R29 to R31): the image in memory after a refresh, and the state that each reset
leaves. -/
namespace Sys2Proof.Proofs.Image
open Sys2Proof Sys2Proof.Machine Sys2Proof.Safety Sys2Proof.Laws
open Sys2Proof.Proofs.ReturnPath (leWord_word)

/-! ## A refresh -/

/-- Memory's word at an address where four bytes have been written. -/
theorem memWord_eq {m : List Host.Cell} {a : Nat} {w : Word} (h : ∀ (i : Nat) (hi : i < (word w).length),
    memRead m (a + i) = (word w)[i]) : memWord m a = w := by
  have hb : memBytes m a 4 = word w := by
    refine List.ext_getElem (by simp [memBytes, word, leBytes_length]) fun i h1 h2 => ?_
    simpa [memBytes] using h i h2
  rw [memWord, hb]
  exact leWord_word w

theorem word_length (w : Word) : (word w).length = 4 := leBytes_length 4 _

/-- The refresh count after a refresh that begins at an even count. -/
theorem oddAfter_even {c : Word} (h : c.toNat % 2 = 0) : oddAfter c + 1 = c + 2 := by
  have hb : c.getLsbD 0 = false := by simp [BitVec.getLsbD, Nat.testBit_zero, h]
  rw [oddAfter, hb, if_neg Bool.false_ne_true, BitVec.add_assoc]
  rfl

/-- What a refresh leaves: the count and the producer count shown, no stale mark, and memory. -/
theorem refresh_eq (s : State) : refresh s = { s with
    mem := (refresh s).mem
    re := { s.re with
      refreshCount := oddAfter s.re.refreshCount + 1, shownProducer := s.re.producer, stale := false } } := rfl

/-- No record shows memory, the refresh count, the producer count shown or the stale mark. -/
theorem imageRecords_congr (s : State) (m : List Host.Cell) (c p : Word) (b : Bool) :
    imageRecords { s with mem := m, re := { s.re with refreshCount := c, shownProducer := p, stale := b } }
      = imageRecords s := rfl

theorem imageRecords_refresh (s : State) : imageRecords (refresh s) = imageRecords s := by
  rw [refresh_eq, imageRecords_congr]

section Refreshed
variable (s : State)

theorem refresh_count : memWord (refresh s).mem 0x9000 = oddAfter s.re.refreshCount + 1 :=
  memWord_eq fun i hi => memRead_memWrite_inside _ 0x9000 _ i hi

theorem refresh_shows : imageShown s (refresh s).mem := by
  intro r hr i hi
  have hlo := (ordered_range (imageRecords_ordered s) r hr).1
  refine (memRead_memWrite_outside _ 0x9000 _ _ (.inr ?_)).trans (writeRecords_inside (imageRecords_ordered s) r hr i hi)
  rw [word_length]
  omega

theorem refresh_producer : memWord (refresh s).mem 0x9008 = s.re.producer := by
  have hm : ((0x9008, word s.re.producer) : Nat × List Byte) ∈ imageRecords s := by
    simp [imageRecords, countsRecords]
  exact memWord_eq fun i hi => refresh_shows s _ hm i hi

/-- A refresh leaves every byte that is neither the count nor in a record. -/
theorem refresh_outside {a : Nat} (h : a < 0x9000 ∨ 0x9004 ≤ a) (ho : outsideRecords s a) :
    memRead (refresh s).mem a = memRead s.mem a := by
  have hw (m : List Host.Cell) (w : Word) : memRead (memWrite m 0x9000 (word w)) a = memRead m a :=
    memRead_memWrite_outside m _ _ a (by rw [word_length]; omega)
  exact (hw _ _).trans ((writeRecords_outside ho).trans (hw _ _))

theorem outsideRecords_of_range {a : Nat} (h : a < 0x9004 ∨ 0x10000 ≤ a) : outsideRecords s a := fun r hr => by
  have := ordered_range (imageRecords_ordered s) r hr
  omega

end Refreshed

/-- Settles O21: the records are the same before and after, so the mark that the refresh clears stays clear. -/
theorem statusRefreshed : Obligations.StatusRefreshed := by
  refine ⟨fun s hs hst => runStep_next s _ statusRefresh hs (if_neg (by simp [hst])), fun s hs hst he => ?_⟩
  have e : statusRefresh s = refresh s := if_pos hst
  have hm : markStale s (refresh s) = refresh s := by
    unfold markStale
    rw [decide_eq_false (not_not.mpr (imageRecords_refresh s)), refresh_eq]
    rfl
  have hx : exec .statusRefresh s = .next (refresh s) := by
    refine (runStep_spec s statusRefresh).trans ?_
    rw [if_neg (Bool.eq_false_iff.mp hs), e, hm]
  refine ⟨refresh s, hx, ?_, ?_, ?_, refresh_producer s, refresh_shows s, fun a ha ho => refresh_outside s ha ho⟩
  · rw [← oddAfter_even he]
    exact refresh_eq s
  · have hr : (refresh s).resetAsserted = false := by rw [refresh_eq]; exact hs
    have hp : (refresh s).re.shownProducer = s.re.producer := by rw [refresh_eq]
    have hc : (refresh s).re.takenConsumer = s.re.takenConsumer := by rw [refresh_eq]
    simp [State.attn, hr, hp, hc]
  · rw [refresh_count, oddAfter_even he]

/-! ## RESET_DONE and the whole image -/

section ResetDone
variable (cause : ResetCause) (tag : Half) (s : State)

/-- What a reset leaves once RESET_DONE and the image are written. -/
theorem resetDone_eq : resetDone cause tag s = { s with
    mem := (resetDone cause tag s).mem
    re := { s.re with
      refreshCount := oddAfter s.re.refreshCount + 1, producer := 1, shownProducer := 1, stale := false } } := rfl

/-- The state whose records the whole refresh writes. -/
def beforeRefresh : State :=
  { (s.store 0x4000 (reportBytes (.resetDone cause tag s.driveCount))) with re := { s.re with producer := 1 } }.store 0x9004
    (zeroBytes 0x6FFC)

theorem resetDone_eq_refresh : resetDone cause tag s = refresh (beforeRefresh cause tag s) := rfl

theorem imageRecords_resetDone : imageRecords (resetDone cause tag s) = imageRecords (beforeRefresh cause tag s) := by
  rw [resetDone_eq_refresh, imageRecords_refresh]

theorem resetDone_shows : imageShown (resetDone cause tag s) (resetDone cause tag s).mem := by
  unfold imageShown
  rw [imageRecords_resetDone, resetDone_eq_refresh]
  exact refresh_shows (beforeRefresh cause tag s)

theorem resetDone_count : memWord (resetDone cause tag s).mem 0x9000 = oddAfter s.re.refreshCount + 1 :=
  refresh_count (beforeRefresh cause tag s)

theorem resetDone_producer : memWord (resetDone cause tag s).mem 0x9008 = 1 :=
  refresh_producer (beforeRefresh cause tag s)

theorem zeroBytes_length (n : Nat) : (zeroBytes n).length = n := by simp [zeroBytes]

/-- The image's bytes that belong to no record are 0. -/
theorem resetDone_zero {a : Nat} (h : 0x9004 ≤ a) (h' : a < 0x10000) (ho : outsideRecords (resetDone cause tag s) a) :
    memRead (resetDone cause tag s).mem a = 0 := by
  unfold outsideRecords at ho
  rw [imageRecords_resetDone] at ho
  rw [resetDone_eq_refresh, refresh_outside _ (.inr h) ho]
  have := memRead_memWrite_inside (s.store 0x4000 (reportBytes (.resetDone cause tag s.driveCount))).mem 0x9004
    (zeroBytes 0x6FFC) (a - 0x9004) (by rw [zeroBytes_length]; omega)
  rw [show 0x9004 + (a - 0x9004) = a by omega] at this
  exact this.trans (List.getElem_replicate _)

/-- Outside the image and the report slot memory is as it was. -/
theorem resetDone_outside {a : Nat} (hr : (reportBytes (.resetDone cause tag s.driveCount)).length = 32)
    (h : a < 0x4000 ∨ (0x4020 ≤ a ∧ a < 0x9000) ∨ 0x10000 ≤ a) :
    memRead (resetDone cause tag s).mem a = memRead s.mem a := by
  rw [resetDone_eq_refresh, refresh_outside _ (by omega) (outsideRecords_of_range _ (by omega))]
  exact (memRead_memWrite_outside _ 0x9004 _ a (by rw [zeroBytes_length]; omega)).trans
    (memRead_memWrite_outside _ 0x4000 _ a (by rw [hr]; omega))

/-- Report slot 0 holds the RESET_DONE. -/
theorem resetDone_report (i : Nat) (hi : i < (reportBytes (.resetDone cause tag s.driveCount)).length) (h32 : i < 32) :
    memRead (resetDone cause tag s).mem (0x4000 + i) = (reportBytes (.resetDone cause tag s.driveCount))[i] := by
  rw [resetDone_eq_refresh, refresh_outside _ (by omega) (outsideRecords_of_range _ (by omega))]
  exact (memRead_memWrite_outside _ 0x9004 _ _ (by omega)).trans (memRead_memWrite_inside _ 0x4000 _ i hi)

end ResetDone

/-- The bytes of a RESET_DONE report, one by one. -/
theorem resetDone_bytes (cause : ResetCause) (tag : Half) (drives : Nat) : reportBytes (.resetDone cause tag drives) =
    [13, BitVec.ofNat 8 cause.value, BitVec.ofNat 8 tag.toNat, BitVec.ofNat 8 (tag.toNat / 256), BitVec.ofNat 8 drives]
      ++ List.replicate 27 0 := rfl

theorem resetDone_byte (cause : ResetCause) (tag : Half) (drives : Nat) (i : Fin 32)
    (hi : i.val < (reportBytes (.resetDone cause tag drives)).length) :
    (reportBytes (.resetDone cause tag drives))[i.val] =
      if i.val = 0 then 13 else if i.val = 1 then BitVec.ofNat 8 cause.value
      else if i.val = 2 then BitVec.ofNat 8 tag.toNat else if i.val = 3 then BitVec.ofNat 8 (tag.toNat / 256)
      else if i.val = 4 then BitVec.ofNat 8 drives else 0 := by
  fin_cases i <;> rfl

/-! ## POWER_ON_RESET and RESET_N -/

/-- Settles O25. -/
theorem resetHoldsPart : Obligations.ResetHoldsPart := by
  refine ⟨fun s => ⟨_, rfl, rfl, rfl⟩, fun s c hr hp hn hw => ?_⟩
  by_cases hpart : ∃ x, c = .partReset x
  · obtain ⟨x, rfl⟩ := hpart
    exact congrArg Host.Outcome.next (if_pos hr)
  · rcases Windows.exec_runs c s hp hn (fun x hx => hpart ⟨x, hx⟩) with ⟨f, hf⟩ | ⟨hf, -⟩
    · rw [hf, runStep_reset s f hr]
    · rw [hf] at hw; cases hw

/-- The directory's places as sampled at power-on reset. -/
theorem initialPlaces_present (drives : Nat) (p : PlaceId) : (initialPlaces drives)[p] =
    if p.val < drives ∨ (4 ≤ p.val ∧ p.val ≤ 28) then { state := .unknown } else {} := by
  simp [initialPlaces]


/-- The part as released from RESET_N, before the PICKER is sensed. -/
def released (drives : Fin 4) (doors : DoorLevels) (lines : Lines) (s : State) : State :=
  { pending := s.pending, mem := s.mem, freeCount := s.freeCount, resetAsserted := false, driveCount := drives.val + 1
    cd := {
      places := initialPlaces (drives.val + 1)
      doorA := doorAtReset doors.a
      doorB := doorAtReset doors.b
      doorMail := doorAtReset doors.mail }
    lc := { lines := lines, outputs := s.lc.outputs.safe } }

theorem released_picker (drives : Fin 4) (doors : DoorLevels) (lines : Lines) (s : State) :
    (released drives doors lines s).placeState pickerPlace = .empty := by
  have hd := drives.isLt
  have h := initialPlaces_present (drives.val + 1) pickerPlace
  rw [if_neg (by simp [pickerPlace]; omega)] at h
  exact congrArg PlaceRecord.state h

theorem sensePicker_empty {s : State} (h : s.placeState pickerPlace = .empty) :
    sensePicker s = if s.lc.lines.cartridgePresent then newCartridge pickerPlace none s else s := by
  unfold sensePicker; rw [h]

theorem newCartridge_first {s : State} (p : PlaceId) (l : Option Label) (h : s.cd.records[0] = none) :
    newCartridge p l s = { s with cd := { s.cd with
      records := s.cd.records.set 0 (some { label := l, place := p })
      places := s.cd.places.set p { s.cd.places[p] with state := .occupied 0 } } } := by
  have hf : s.freeRecord = some 0 := Requests.finFilter_head?_eq_some.mpr
    ⟨by simp [h], fun j hj => absurd hj (Nat.not_lt_zero _)⟩
  unfold newCartridge
  rw [hf]
  rfl

/-- The directory and the loader's lines as POWER_ON_RESET samples them. -/
theorem initialState_eq (drives : Fin 4) (doors : DoorLevels) (lines : Lines) (s : State) :
    initialState drives doors lines s = { released drives doors lines s with cd := {
      places := Vector.ofFn fun p : Fin 30 =>
        if p.val = 29 then (if lines.cartridgePresent then { state := .occupied 0 } else {})
        else if p.val ≤ drives.val ∨ 4 ≤ p.val then { state := .unknown } else {}
      records := if lines.cartridgePresent then (Vector.replicate 32 none).set 0 (some { place := 29 })
        else Vector.replicate 32 none
      doorA := { isOpen := doors.a, latch := true }, doorB := { isOpen := doors.b, latch := true }
      doorMail := { isOpen := doors.mail, latch := true } } } := by
  have hd := drives.isLt
  have e : initialState drives doors lines s = sensePicker (released drives doors lines s) := rfl
  rw [e, sensePicker_empty (released_picker drives doors lines s)]
  have hplaces (x : PlaceRecord) : (initialPlaces (drives.val + 1)).set 29 x =
      Vector.ofFn fun p : Fin 30 => if p.val = 29 then x
        else if p.val ≤ drives.val ∨ 4 ≤ p.val then { state := .unknown } else {} := by
    ext i hi : 1
    have hp := initialPlaces_present (drives.val + 1) ⟨i, hi⟩
    rw [Vector.getElem_set, Vector.getElem_ofFn]
    by_cases h : i = 29
    · rw [if_pos h.symm, if_pos h]
    · rw [if_neg (Ne.symm h), if_neg h]
      exact hp.trans (if_congr (by dsimp only; omega) rfl rfl)
  have hpicker : (initialPlaces (drives.val + 1))[(29 : Fin 30)] = {} := by
    rw [initialPlaces_present, if_neg (by simp; omega)]
  cases hc : lines.cartridgePresent with
  | false =>
    have hself : (initialPlaces (drives.val + 1)).set 29 {} = initialPlaces (drives.val + 1) := by
      have := Vector.set_getElem_self (xs := initialPlaces (drives.val + 1)) (i := 29) (by omega)
      rwa [show (initialPlaces (drives.val + 1))[29] = {} from hpicker] at this
    rw [if_neg (by simp [released, hc])]
    simp only [Bool.false_eq_true, if_false, ← hplaces, hself]
    rfl
  | true =>
    rw [if_pos (by simp [released, hc]), newCartridge_first _ _ (by simp [released])]
    simp only [if_true, ← hplaces]
    have hset : { (released drives doors lines s).cd.places[pickerPlace] with state := .occupied 0 }
        = ({ state := .occupied 0 } : PlaceRecord) := by
      rw [show (released drives doors lines s).cd.places[pickerPlace] = {} from hpicker]
    rw [hset]
    rfl

/-- Settles O23. -/
theorem powerOnResetInitialises : Obligations.PowerOnResetInitialises := by
  intro s drives doors lines
  have hbytes := resetDone_bytes .powerOn 0 (initialState drives doors lines s).driveCount
  have hlen : (reportBytes (.resetDone .powerOn 0 (initialState drives doors lines s).driveCount)).length = 32 := by
    rw [hbytes]; rfl
  have hmem : (initialState drives doors lines s).mem = s.mem := by rw [initialState_eq]; rfl
  have hcount : (initialState drives doors lines s).re.refreshCount = 0 := by rw [initialState_eq]; rfl
  have hdrives : (initialState drives doors lines s).driveCount = drives.val + 1 := by rw [initialState_eq]; rfl
  refine ⟨resetDone .powerOn 0 (initialState drives doors lines s), rfl, ?_, ?_, fun i => ?_, ?_, resetDone_producer ..,
    resetDone_shows _ _ _, fun a h h' ho => resetDone_zero _ _ _ h h' ho, fun a h => ?_⟩
  · refine (resetDone_eq ..).trans ?_
    rw [hcount]
    generalize (resetDone .powerOn 0 (initialState drives doors lines s)).mem = m
    rw [initialState_eq]
    rfl
  · rw [resetDone_eq, initialState_eq]
    rfl
  · rw [resetDone_report _ _ _ i.val (by rw [hlen]; exact i.isLt) i.isLt]
    refine (resetDone_byte _ _ _ i (by rw [hlen]; exact i.isLt)).trans ?_
    rw [hdrives]
    fin_cases i <;> rfl
  · rw [resetDone_count, hcount]
    rfl
  · rw [resetDone_outside _ _ _ hlen h, hmem]

/-! ## PART_RESET -/

/-- Every block but the directory as PART_RESET leaves it. -/
theorem beforePartReset_eq (s : State) (x : Sample) :
    blocksPartReset (loaderPartReset (directoryPartReset (s.observe x))) = { State.reset with
      mem := s.mem, pending := s.pending, freeCount := s.freeCount, resetAsserted := s.resetAsserted, driveCount := s.driveCount
      readData := s.readData, timebase := max s.timebase x.now
      re := { refreshCount := s.re.refreshCount, resetCause := .request }
      cd := (directoryPartReset (s.observe x)).cd
      lc := {
        state := if s.lc.state = .idle then .idle else .unhomed
        station := if s.lc.state = .idle then s.lc.station else none
        exchange := s.lc.exchange.map fun e => { e with stopped := true }
        exchanging := s.lc.exchange.isSome
        attempt := if s.lc.exchange.isSome then s.lc.attempt else 0
        received := if s.lc.exchange.isSome then s.lc.received else []
        lines := x.lines
        outputs := { s.lc.outputs with motorRun := false, gripperExtend := false, gripperRetract := true } } } := by
  rw [Places.directoryPartReset_frame (s.observe x)]
  by_cases hidle : s.lc.state = .idle
  · rw [if_pos hidle, if_pos hidle, loaderPartReset]
    simp only [State.observe, hidle, decide_true, if_true]
    rfl
  · rw [if_neg hidle, if_neg hidle, loaderPartReset]
    simp only [State.observe, hidle, decide_false]
    rfl

/-- With nothing to interrupt, sense or take, the directory only loses its pending-order fields. -/
theorem directoryPartReset_quiet {s : State} (hstep : s.lc.step = none) (hheld : s.cd.held = [])
    (hp : pickerLoaded s ↔ s.lc.lines.cartridgePresent = true) :
    (directoryPartReset s).cd = { s.cd with places := s.cd.places.map fun p => { p with pending := none }, held := [] } := by
  have e : interruptGripper s = s := by rw [Places.interruptGripper_idle hstep, Places.sensePicker_agrees hp]
  unfold directoryPartReset
  simp only [e, hheld, List.foldl_nil]

theorem directoryPartReset_pending (s : State) (p : PlaceId) : (directoryPartReset s).cd.places[p].pending = none := by
  unfold directoryPartReset
  exact congrArg PlaceRecord.pending (Vector.getElem_map _ p.isLt)

theorem directoryPartReset_held (s : State) : (directoryPartReset s).cd.held = [] := rfl

/-- Settles O24. -/
theorem partResetClears : Obligations.PartResetClears := by
  intro s x hs hw hi hc hk exchanging
  have hx : partReset x s = resetDone .request (BitVec.ofNat 16 (recordTag s.requestRecord))
      (blocksPartReset (loaderPartReset (directoryPartReset (s.observe x)))) :=
    if_pos (by simp [hw, hi, hc, hk])
  have hexec : exec (.partReset x) s = .next (partReset x s) := congrArg Host.Outcome.next (if_neg (by simp [show s.resetAsserted = false from hs]))
  have hb := beforePartReset_eq s x
  rw [hexec, hx]
  generalize blocksPartReset (loaderPartReset (directoryPartReset (s.observe x))) = v at hb
  have hbytes := resetDone_bytes .request (BitVec.ofNat 16 (recordTag s.requestRecord)) v.driveCount
  have hlen : (reportBytes (.resetDone .request (BitVec.ofNat 16 (recordTag s.requestRecord)) v.driveCount)).length = 32 := by
    rw [hbytes]; rfl
  have hcount : v.re.refreshCount = s.re.refreshCount := by rw [hb]
  have hcd : v.cd = (directoryPartReset (s.observe x)).cd := by rw [hb]
  have hdrives : v.driveCount = s.driveCount := by rw [hb]
  have hmem : v.mem = s.mem := by rw [hb]
  have htcd : (resetDone .request (BitVec.ofNat 16 (recordTag s.requestRecord)) v).cd = v.cd := by rw [resetDone_eq]
  have htag : recordTag s.requestRecord < 65536 := ReturnPath.fieldNat_lt s.requestRecord 2 2
  refine ⟨resetDone .request (BitVec.ofNat 16 (recordTag s.requestRecord)) v, rfl, ?_, fun he => ?_, fun p => ?_, ?_,
    fun hstep hheld hp => ?_, ?_, fun i => ?_, ?_, resetDone_producer .., resetDone_shows _ _ _,
    fun a h h' ho => resetDone_zero _ _ _ h h' ho, fun a h => ?_⟩
  · rw [resetDone_eq, hcount]
    generalize (resetDone .request _ v).mem = m
    rw [hb, show s.resetAsserted = false from hs]
  · rw [resetDone_eq, hcount]
    exact oddAfter_even he
  · rw [htcd, hcd]
    exact directoryPartReset_pending _ p
  · rw [htcd, hcd]
    exact directoryPartReset_held _
  · rw [htcd, hcd]
    exact directoryPartReset_quiet (s := s.observe x) hstep hheld hp
  · rw [resetDone_eq, hb]
    have : (s.resetAsserted) = false := hs
    simp [State.attn, this]
  · rw [resetDone_report _ _ _ i.val (by rw [hlen]; exact i.isLt) i.isLt]
    have htoNat : (BitVec.ofNat 16 (recordTag s.requestRecord)).toNat = recordTag s.requestRecord := Nat.mod_eq_of_lt htag
    refine (resetDone_byte _ _ _ i (by rw [hlen]; exact i.isLt)).trans ?_
    rw [hdrives, htoNat]
    rfl
  · rw [resetDone_count, resetDone_eq]
  · rw [resetDone_outside _ _ _ hlen h, hmem]

end Sys2Proof.Proofs.Image
end

section
/-! PROOFS. The Ingest Streams and the Compressor (R40, R43 to R45, R52 to R55): the accept limit after a change of buffer, and
the Job Table's test that follows one. -/
namespace Sys2Proof.Proofs.Streams
open Sys2Proof Sys2Proof.Machine Sys2Proof.Safety Sys2Proof.Laws

/-! ## The accept limit -/

section Limit
variable {s : State} {i : StreamId}

theorem recomputeLimit_current (h : limitCurrent s i) : recomputeLimit i s = s := by
  have : ({ s.wd.streamAperture[i] with limit := s.streamLimit i } : Aperture) = s.wd.streamAperture[i] := by
    rw [← show s.wd.streamAperture[i].limit = s.streamLimit i from h]
  unfold recomputeLimit State.setStreamAperture
  rw [this]
  simp

/-- The accept limit looks at a stream's phase, its Framer's wait, E and the free space alone. -/
theorem streamLimit_congr {t : State} (hphase : t.streams[i].phase = s.streams[i].phase)
    (hwait : t.waiting (.stream i) = s.waiting (.stream i))
    (hexp : t.wd.streamAperture[i].expected = s.wd.streamAperture[i].expected)
    (hspace : t.streams[i].space = s.streams[i].space) : t.streamLimit i = s.streamLimit i := by
  unfold State.streamLimit
  rw [hphase, hwait, hexp, hspace]

end Limit

theorem space_eq (st : Stream) (b : Fin 2) : st.space = st.buffers[b].space + st.buffers[1 - b].space := by
  match b with
  | 0 => rfl
  | 1 => exact Nat.add_comm ..

theorem other_ne (b : Fin 2) : (1 - b).val ≠ b.val := by
  match b with
  | 0 => decide
  | 1 => decide

/-- The free space with one buffer replaced. -/
theorem space_setBuffer (st : Stream) (b : Fin 2) (x : Buffer) :
    ({ st with buffers := st.buffers.set b x } : Stream).space = x.space + st.buffers[1 - b].space := by
  rw [space_eq _ b]
  have h := Vector.getElem_set_ne (xs := st.buffers) (x := x) b.isLt (1 - b).isLt (other_ne b).symm
  simpa using congrArg Buffer.space h

section Buffers
variable {s : State} {i : StreamId} {b : Fin 2}

theorem modBuffer_phase (f : Buffer → Buffer) : (s.modBuffer i b f).streams[i].phase = s.streams[i].phase := by
  simp [State.modBuffer, State.modStream]

theorem modBuffer_buffer (f : Buffer → Buffer) : (s.modBuffer i b f).streams[i].buffers[b] = f s.streams[i].buffers[b] := by
  simp [State.modBuffer, State.modStream]

theorem modBuffer_space (f : Buffer → Buffer) :
    (s.modBuffer i b f).streams[i].space = (f s.streams[i].buffers[b]).space + s.streams[i].buffers[1 - b].space := by
  rw [← space_setBuffer]
  simp [State.modBuffer, State.modStream]

/-- A buffer that changes without freeing space leaves the accept limit current. -/
theorem limitCurrent_modBuffer {f : Buffer → Buffer} (h : limitCurrent s i)
    (hf : (f s.streams[i].buffers[b]).space = s.streams[i].buffers[b].space) : limitCurrent (s.modBuffer i b f) i := by
  refine Eq.trans h (streamLimit_congr (modBuffer_phase f) rfl rfl ?_).symm
  rw [modBuffer_space, hf, ← space_eq]

/-- The accept limit of a stream one of whose full buffers has become FREE. -/
theorem freeBuffer_limit (h : limitCurrent s i) (h0 : s.streams[i].buffers[b].space = 0) :
    (freeBuffer i b s).streamLimit i = limitRaised s i := by
  have hp : (freeBuffer i b s).streams[i].phase = s.streams[i].phase := modBuffer_phase _
  have hw : (freeBuffer i b s).waiting (.stream i) = s.waiting (.stream i) := rfl
  have hs : (freeBuffer i b s).streams[i].space = 16384 + s.streams[i].space := by
    rw [space_eq s.streams[i] b, h0, Nat.zero_add]
    exact modBuffer_space _
  have he : (freeBuffer i b s).wd.streamAperture[i].expected = s.wd.streamAperture[i].expected := rfl
  unfold limitRaised
  rw [show s.wd.streamAperture[i].limit = s.streamLimit i from h]
  unfold State.streamLimit
  rw [hp, hw, hs, he]
  cases s.streams[i].phase with
  | free => rfl
  | closing => rfl
  | opened =>
    cases s.waiting (.stream i) with
    | true => rfl
    | false => simp only [Bool.false_eq_true, if_false, and_self, if_true, BitVec.ofNat_add]; ac_rfl

end Buffers

/-! ## The test of R40 after a change of buffer (R45) -/

section FlushTest
variable {s : State}

/-- A job that has a buffer left to pack, or is not in FLUSHING, stays as it is. -/
theorem takeFlushTest_keeps {k : SlotId} (h : s.jt.jobs[k].record.state = .flushing →
      s.bufferBusy s.jt.jobs[k].record.stream 0 = true ∨ s.bufferBusy s.jt.jobs[k].record.stream 1 = true) :
    takeFlushTest k s = (s, []) := by
  unfold takeFlushTest
  refine if_neg fun hc => ?_
  obtain ⟨-, -, hf, h0, h1⟩ := hc
  rcases h hf with hb | hb
  · rw [hb] at h0; cases h0
  · rw [hb] at h1; cases h1

/-- A stream whose job stays in FLUSHING, or is not in it, only recomputes its accept limit. -/
theorem bufferChanged_keeps {i : StreamId} (hf : jobTableFree s) (h : ∀ k, s.streams[i].slot = some k →
      s.jt.jobs[k].record.state = .flushing → s.jt.jobs[k].record.stream = i ∧ ∃ b, s.bufferBusy i b = true) :
    bufferChanged i s = recomputeLimit i s := by
  have hbusy (j : StreamId) (b : Fin 2) : (recomputeLimit i s).bufferBusy j b = s.bufferBusy j b := rfl
  unfold bufferChanged
  cases hs : s.streams[i].slot with
  | none => simp only [recomputeLimit_streams, hs]
  | some k =>
    simp only [recomputeLimit_streams, hs]
    refine jobSignals_one (.flushTest k) (recomputeLimit i s) hf _ (takeFlushTest_keeps fun hk => ?_) hf.2
    obtain ⟨hi, b, hb⟩ := h k hs hk
    have hi' : (recomputeLimit i s).jt.jobs[k].record.stream = i := hi
    rw [hi', hbusy, hbusy]
    match b with
    | 0 => exact .inl hb
    | 1 => exact .inr hb

end FlushTest

/-! ## The Compressor -/

theorem compressorTake_next {s : State} {e : ChunkEntry} {rest : List ChunkEntry} (h : s.ce.inFlight = none)
    (hq : s.ce.queue = e :: rest) : compressorTake s = bufferChanged e.stream (({ s with ce := { s.ce with
      queue := rest, inFlight := some { entry := e }, headTable := [], output := [] } }).modBuffer e.stream e.buffer
        fun b => { b with state := .compressing }) := by
  unfold compressorTake; rw [h, hq]

/-- Settles O37. -/
theorem compressorTakesOldest : Obligations.CompressorTakesOldest := by
  refine ⟨fun s e rest hs hi hq hb hl hc => runStep_next s _ compressorTake hs ?_, fun s hs h => runStep_next s _ compressorTake hs ?_⟩
  · rw [compressorTake_next hi hq]
    generalize hu : ({ s with ce := { s.ce with
      queue := rest, inFlight := some { entry := e }, headTable := [], output := [] } } : State) = u
    have hlu : limitCurrent u e.stream := by subst hu; exact hl
    have hcu : u.streams[e.stream].buffers[e.buffer].state = .closed := by subst hu; exact hc
    have hnow := limitCurrent_modBuffer (b := e.buffer) (f := fun b => { b with state := .compressing }) hlu
      (by unfold Buffer.space; rw [hcu])
    rw [bufferChanged_keeps (by subst hu; exact hb.1), recomputeLimit_current hnow]
    · subst hu; rfl
    · subst hu
      intro k hk hfl
      refine ⟨hb.2 k ?_ hfl, e.buffer, ?_⟩
      · simpa [State.modBuffer, State.modStream] using hk
      · simp [State.bufferBusy, State.modBuffer, State.modStream, State.discarding]
  · unfold compressorTake
    split
    · next e queue hi hq =>
      rcases h with h | h
      · exact absurd hi h
      · rw [hq] at h; cases h
    · rfl

/-- The segment of a chunk, its header's fields named. -/
theorem segment_header (e : ChunkEntry) (data : List Byte) : e.segment data =
    let packed := tokenStream (encodeChunk data).1
    let plain := data.length ≤ packed.length
    let stored := if plain then data else packed
    ({ mode := if plain then .plain else .packed, tag := e.tag, rawLength := e.rawLength, storedLength := stored.length
       sequence := e.sequence, rawCheck := e.rawCheck }, stored) := by
  unfold ChunkEntry.segment guardExpansion ChunkEntry.header
  by_cases h : (tokenStream (encodeChunk data).1).length < data.length
  · simp only [if_pos h, if_neg (Nat.not_le.mpr h)]
  · simp only [if_neg h, if_pos (Nat.not_lt.mp h)]

/-- The counters of a job after one of its chunks has become READY. -/
theorem compressed_eq (c : Counters) (h : SegmentHeader) : c.compressed h = { c with
    rawBytes := c.rawBytes + BitVec.ofNat 64 h.rawLength
    storedBytes := c.storedBytes + BitVec.ofNat 64 h.storedLength
    plainSegments := if h.mode = .plain ∧ c.plainSegments ≠ 0xFFFFFFFF then c.plainSegments + 1 else c.plainSegments } := by
  have hp : (if h.mode = .plain then satInc c.plainSegments else c.plainSegments) =
      if h.mode = .plain ∧ c.plainSegments ≠ 0xFFFFFFFF then c.plainSegments + 1 else c.plainSegments := by
    by_cases hm : h.mode = .plain
    · by_cases hc : c.plainSegments = 0xFFFFFFFF
      · rw [if_pos hm, if_neg fun hn => hn.2 hc, satInc_eq, if_pos hc, hc]
      · rw [if_pos hm, if_pos ⟨hm, hc⟩, satInc_eq, if_neg hc]
    · rw [if_neg hm, if_neg fun hn => hm hn.1]
  unfold Counters.compressed
  rw [hp]

theorem bufferBusy_of_held {s : State} {i : StreamId} {b : Fin 2} (h : s.streams[i].buffers[b].state = .closed
    ∨ s.streams[i].buffers[b].state = .ready ∨ s.streams[i].buffers[b].state = .packing) : s.bufferBusy i b = true := by
  unfold State.bufferBusy
  rcases h with h | h | h <;> simp only [h]

/-- The buffers that keep a FLUSHING job from DRAINING include the other one, where that is said. -/
theorem bufferBusy_of_otherBusy {s : State} {i : StreamId} {b : Fin 2} (h : otherBusy s i b) : s.bufferBusy i (1 - b) = true := by
  rcases h with h | h | h | ⟨h, hd⟩
  · exact bufferBusy_of_held (.inl h)
  · exact bufferBusy_of_held (.inr (.inl h))
  · exact bufferBusy_of_held (.inr (.inr h))
  · unfold State.bufferBusy
    cases hi : s.ce.inFlight with
    | none => simp only [h, State.discarding, hi, Bool.not_false]
    | some c => simp only [h, State.discarding, hi, hd c hi, Bool.false_and, Bool.not_false]

/-- A buffer that becomes FREE leaves the other one as it was. -/
theorem bufferBusy_freeBuffer (s : State) (i : StreamId) (b : Fin 2) :
    (freeBuffer i b s).bufferBusy i (1 - b) = s.bufferBusy i (1 - b) := by
  have hd : (freeBuffer i b s).discarding i (1 - b) = s.discarding i (1 - b) := rfl
  have hs : (freeBuffer i b s).streams[i].buffers[1 - b].state = s.streams[i].buffers[1 - b].state := by
    have h := Vector.getElem_set_ne (xs := s.streams[i].buffers) (x := {}) b.isLt (1 - b).isLt (other_ne b).symm
    simpa [freeBuffer, State.modBuffer, State.modStream] using congrArg Buffer.state h
  unfold State.bufferBusy
  rw [hd, hs]

/-- A full buffer that becomes FREE, its job kept in FLUSHING by the other one or not in it, raises the accept limit. -/
theorem bufferChanged_freed {s : State} {i : StreamId} {b : Fin 2} (hl : limitCurrent s i)
    (h0 : s.streams[i].buffers[b].space = 0) (h : staysFlushing s i b) :
    bufferChanged i (freeBuffer i b s) = { s with
      streams := s.streams.set i { s.streams[i] with buffers := s.streams[i].buffers.set b {} }
      wd := { s.wd with streamAperture := s.wd.streamAperture.set i { s.wd.streamAperture[i] with
        limit := limitRaised s i } } } := by
  obtain ⟨⟨hfree, hbound⟩, hother⟩ := h
  rw [bufferChanged_keeps (s := freeBuffer i b s) hfree]
  · unfold recomputeLimit
    rw [freeBuffer_limit hl h0]
    rfl
  · intro k hk hf
    have hk' : s.streams[i].slot = some k := by
      simpa [freeBuffer, State.modBuffer, State.modStream] using hk
    exact ⟨hbound k hk' hf, 1 - b, (bufferBusy_freeBuffer s i b).trans (bufferBusy_of_otherBusy (hother k hk' hf))⟩

/-- Counting changes neither the state nor the stream of any job. -/
theorem modCounters_record {u : State} (k j : SlotId) (f : Counters → Counters) :
    (u.modCounters k f).jt.jobs[j].record.state = u.jt.jobs[j].record.state
      ∧ (u.modCounters k f).jt.jobs[j].record.stream = u.jt.jobs[j].record.stream := by
  by_cases h : k = j
  · subst h
    simp [State.modCounters, State.modJob]
  · have hv : k.val ≠ j.val := fun e => h (Fin.ext e)
    simp [State.modCounters, State.modJob, Vector.getElem_set_ne, hv]

theorem compressionComplete_unmarked {s : State} {c : Compression} (hc : s.ce.inFlight = some c) (hd : c.discard = false) :
    compressionComplete s =
      let e := c.entry
      let data := s.streams[e.stream].buffers[e.buffer].data
      let idle := { s.ce with inFlight := none, headTable := (encodeChunk data).2, output := tokenStream (encodeChunk data).1 }
      bufferChanged e.stream ((({ s with ce := idle } : State).modBuffer e.stream e.buffer fun b => { b with
        state := .ready, data := segmentHeaderBytes (e.segment data).1 ++ (e.segment data).2
        header := some (e.segment data).1 }).modCounters e.slot fun x => x.compressed (e.segment data).1) := by
  unfold compressionComplete
  rw [hc]
  exact if_neg (by simp [hd])

/-- A full buffer that becomes READY keeps a FLUSHING job where it is, and the accept limit with it. -/
theorem bufferChanged_ready {u : State} {i : StreamId} {b : Fin 2} {k : SlotId} {f : Buffer → Buffer} {g : Counters → Counters}
    (hl : limitCurrent u i) (h0 : u.streams[i].buffers[b].space = 0) (hbound : streamBound u i) (hf : ∀ x, (f x).state = .ready) :
    bufferChanged i ((u.modBuffer i b f).modCounters k g) = (u.modBuffer i b f).modCounters k g := by
  have hnow : limitCurrent (u.modBuffer i b f) i :=
    limitCurrent_modBuffer hl (by rw [h0]; unfold Buffer.space; rw [hf])
  rw [bufferChanged_keeps, recomputeLimit_current]
  · exact hnow
  · exact hbound.1
  · intro j hj hfl
    have hj' : u.streams[i].slot = some j := by simpa [State.modBuffer, State.modStream] using hj
    obtain ⟨hstate, hstream⟩ := modCounters_record (u := u.modBuffer i b f) k j g
    rw [hstate] at hfl
    rw [hstream]
    exact ⟨hbound.2 j hj' hfl, b, bufferBusy_of_held (.inr (.inl ((congrArg Buffer.state (modBuffer_buffer f)).trans (hf _))))⟩

/-- Settles O38. -/
theorem compressionCompletes : Obligations.CompressionCompletes := by
  intro s c hs hc hl hb e buffer packed plain stored h idle counters
  have hspace : buffer.space = 0 := by simp only [buffer, Buffer.space, e, hb]
  refine ⟨fun hd hbound => runStep_next s _ compressionComplete hs ?_, fun hd hst => runStep_next s _ compressionComplete hs ?_⟩
  · have hseg : e.segment buffer.data = (h, stored) := segment_header e buffer.data
    have hmode : (h.mode = .plain) = plain := by
      by_cases hp : plain <;> simp [h, hp]
    rw [compressionComplete_unmarked hc hd]
    dsimp only
    rw [hseg]
    refine (bufferChanged_ready (u := { s with ce := idle }) hl hspace hbound fun _ => rfl).trans ?_
    simp only [State.modCounters, State.modJob, compressed_eq, hmode]
    rfl
  · unfold compressionComplete
    simp only [hc, hd, if_true]
    refine (bufferChanged_freed (s := { s with ce := idle }) hl hspace ⟨hst.1, fun k hk hf => ?_⟩).trans rfl
    rcases hst.2 k hk hf with h | h | h | ⟨-, h⟩
    · exact .inl h
    · exact .inr (.inl h)
    · exact .inr (.inr (.inl h))
    · rw [h c hc] at hd; cases hd

end Sys2Proof.Proofs.Streams
end

section
/-! PROOFS. Writes to a stream aperture (R10 to R13, R43, R44): where their bytes go, and what holds the aperture. -/
namespace Sys2Proof.Proofs.StreamWrites
open Sys2Proof Sys2Proof.Machine Sys2Proof.Safety Sys2Proof.Laws
open Sys2Proof.Proofs.Windows Sys2Proof.Proofs.Streams

/-! ## Sorting -/

section Sorting
variable {a : Aperture} {d : Int} {n : Nat}

theorem sort_below (h : d + (n : Int) ≤ 0) : a.sort d n = .dropped := if_pos h

theorem sort_held (hh : a.held = true) (h : d ≠ 0 ∨ ahead a.limit a.expected = 0) : a.sort d n = .dropped := by
  unfold Aperture.sort
  by_cases h0 : d + (n : Int) ≤ 0
  · rw [if_pos h0]
  · rw [if_neg h0, if_pos hh, if_neg fun hc => by rcases h with h | h <;> omega]

theorem sort_gap (hh : a.held = false) (h : 0 < d) : a.sort d n = .gap := by
  unfold Aperture.sort
  rw [if_neg (by omega), if_neg (by simp [hh]), if_pos h]

theorem sort_taken (hh : a.held = false) (h : d ≤ 0) (hn : 0 < d + (n : Int)) : a.sort d n = .taken (-d).toNat := by
  unfold Aperture.sort
  rw [if_neg (by omega), if_neg (by simp [hh]), if_neg (by omega)]

theorem sort_at (hh : a.held = false) (h : d = 0) (hn : 0 < n) : a.sort d n = .taken 0 := by
  subst h
  exact sort_taken hh (Int.le_refl 0) (by omega)

theorem sort_held_taken (hh : a.held = true) (h : d = 0) (hn : 0 < n) (hr : 0 < ahead a.limit a.expected) :
    a.sort d n = .taken 0 := by
  unfold Aperture.sort
  rw [if_neg (by omega), if_pos hh, if_pos ⟨h, hr⟩]

end Sorting

theorem transactionOk_iff {addr : Word} {n : Nat} :
    transactionOk addr n = true ↔ 1 ≤ n ∧ addr.toNat % 4096 + n ≤ 4096 := by
  simp [transactionOk]

theorem ahead_eq_zero {a b : Word} : ahead a b = 0 ↔ a = b := by
  constructor
  · intro h
    have : a - b = 0 := BitVec.eq_of_toNat_eq h
    simpa [BitVec.sub_eq_iff_eq_add] using this
  · rintro rfl
    simp [ahead]

/-! ## Where the next bytes go (R43) -/

theorem target_of_takesNext {st : Stream} {f : Fin 2} (h : takesNext st f) :
    st.target = some (f, decide (st.buffers[f].state ≠ .filling)) := by
  unfold takesNext at h
  unfold Stream.target
  split at h
  · next h0 => subst h; simp [h0]
  · next h0 =>
    split at h
    · next h1 => subst h; simp [h0, h1]
    · next h1 =>
      split at h
      · next h2 => subst h; simp [h1, h2]
      · next h2 => obtain ⟨h3, rfl⟩ := h; simp [h0, h2, h3]

/-- With free space some buffer takes the next byte. -/
theorem exists_takesNext {st : Stream} (h : 0 < st.space) : ∃ f, takesNext st f := by
  unfold takesNext
  by_cases h0 : st.buffers[0].state = .filling
  · exact ⟨0, by simp [h0]⟩
  by_cases h1 : st.buffers[1].state = .filling
  · exact ⟨1, by simp [h0, h1]⟩
  by_cases h2 : st.buffers[0].state = .free
  · exact ⟨0, by simp [h2, h1]⟩
  by_cases h3 : st.buffers[1].state = .free
  · exact ⟨1, by simp [h0, h2, h3]⟩
  · exfalso
    have hz (b : Buffer) (hf : b.state ≠ .filling) (hf' : b.state ≠ .free) : b.space = 0 := by
      unfold Buffer.space; split <;> simp_all
    simp [Stream.space, hz _ h0 h2, hz _ h1 h3] at h

/-- The buffer that takes the next bytes, once it has taken them. -/
def joined (st : Stream) (f : Fin 2) (bs : List Byte) : Buffer :=
  { chunkInto st f with data := (chunkInto st f).data ++ bs, check := crcUpdate (chunkInto st f).check bs }

theorem chunkInto_state (st : Stream) (f : Fin 2) : (chunkInto st f).state = .filling := by
  unfold chunkInto; split
  · assumption
  · rfl

theorem fillBuffer_joined (s : State) (i : StreamId) (f : Fin 2) (bs : List Byte) :
    fillBuffer i f (decide (s.streams[i].buffers[f].state ≠ .filling)) bs s =
      s.modBuffer i f fun _ => joined s.streams[i] f bs := by
  unfold fillBuffer State.modBuffer State.modStream joined chunkInto
  by_cases h : s.streams[i].buffers[f].state = .filling
  · simp only [h, ne_eq, not_true, decide_false, if_true, Bool.false_eq_true, if_false]
  · simp only [h, ne_eq, not_false_eq_true, decide_true, if_true, if_false, crcStart, List.nil_append]

theorem placeBytes_nil (i : StreamId) (n : Nat) (s : State) : placeBytes i n [] s = (s, []) := by
  cases n <;> rfl

section Place
variable {s : State} {i : StreamId} {f : Fin 2} {bs : List Byte}

theorem placeBytes_some (n : Nat) (ho : s.streams[i].phase = .opened) (hb : bs ≠ []) (ht : takesNext s.streams[i] f) :
    placeBytes i (n + 1) bs s =
      let room := 16384 - (chunkInto s.streams[i] f).data.length
      if bs.length < room then (s.modBuffer i f fun _ => joined s.streams[i] f (bs.take room), [])
      else placeBytes i n (bs.drop room)
        (closeChunk i f (s.modBuffer i f fun _ => joined s.streams[i] f (bs.take room))) := by
  have hroom : (if decide (s.streams[i].buffers[f].state ≠ .filling) then 0 else s.streams[i].buffers[f].data.length)
      = (chunkInto s.streams[i] f).data.length := by
    unfold chunkInto
    by_cases h : s.streams[i].buffers[f].state = .filling
    · rw [if_neg (by simpa using h), if_pos h]
    · rw [if_pos (by simpa using h), if_neg h]
      rfl
  rw [placeBytes, if_neg (by simp only [ho, hb, List.isEmpty_iff, ne_eq, not_true, decide_false, Bool.or_false]; trivial), target_of_takesNext ht]
  simp only [hroom, fillBuffer_joined]

/-- A write that leaves its chunk open. -/
theorem placeBytes_fits (n : Nat) (ho : s.streams[i].phase = .opened) (hb : bs ≠ []) (ht : takesNext s.streams[i] f)
    (h : (chunkInto s.streams[i] f).data.length + bs.length < 16384) :
    placeBytes i (n + 1) bs s = (s.modBuffer i f fun _ => joined s.streams[i] f bs, []) := by
  rw [placeBytes_some n ho hb ht]
  dsimp only
  rw [if_pos (by omega), List.take_of_length_le (by omega)]

/-- A write that brings its chunk to 16,384 bytes. -/
theorem placeBytes_closes (n : Nat) (ho : s.streams[i].phase = .opened) (hb : bs ≠ []) (ht : takesNext s.streams[i] f)
    (h : 16384 ≤ (chunkInto s.streams[i] f).data.length + bs.length) :
    placeBytes i (n + 1) bs s = placeBytes i n (bs.drop (16384 - (chunkInto s.streams[i] f).data.length))
      (closeChunk i f (s.modBuffer i f fun _ =>
        joined s.streams[i] f (bs.take (16384 - (chunkInto s.streams[i] f).data.length)))) := by
  rw [placeBytes_some n ho hb ht]
  exact if_neg (by omega)

end Place

/-! ## Closing a chunk (R43, R52) -/

/-- The queue entry of a chunk that closes. -/
def closingEntry (s : State) (i : StreamId) (b : Fin 2) (k : SlotId) : ChunkEntry :=
  let r := s.jt.jobs[k].record
  { stream := i, buffer := b, slot := k, tag := r.tag, lane := r.lane, sequence := r.nextSeq
    rawLength := s.streams[i].buffers[b].data.length, rawCheck := ~~~ s.streams[i].buffers[b].check, order := s.ce.nextOrder }

/-- The chunk is CLOSED and queued; its job has not been told yet. -/
def chunkQueued (i : StreamId) (b : Fin 2) (k : SlotId) (s : State) : State :=
  { s.modBuffer i b fun x => { x with state := .closed, entry := some (closingEntry s i b k) } with
    ce := { s.ce with queue := s.ce.queue ++ [closingEntry s i b k], nextOrder := s.ce.nextOrder + 1 } }

section Close
variable {s : State} {i : StreamId} {b : Fin 2} {k : SlotId}

theorem closeChunk_next (hk : s.streams[i].slot = some k) (h : s.jt.jobs[k].record.nextSeq ≠ 0xFFFFFFFF) :
    closeChunk i b s = (chunkQueued i b k s).modJob k fun r => { r with nextSeq := r.nextSeq + 1 } := by
  unfold closeChunk
  rw [hk]
  exact if_neg h

theorem closeChunk_final (hk : s.streams[i].slot = some k) (h : s.jt.jobs[k].record.nextSeq = 0xFFFFFFFF) :
    closeChunk i b s = streamClosing i ((chunkQueued i b k s).modJob k fun r =>
      { r with closedFinal := true, state := if r.state = .active then .flushing else r.state }) := by
  unfold closeChunk
  rw [hk]
  exact if_pos h

end Close

/-- What placing bytes leaves of a stream's surroundings: the Request Engine, the stream's slot, and every job's tag. -/
structure Kept (i : StreamId) (s t : State) : Prop where
  re : t.re = s.re
  slot : t.streams[i].slot = s.streams[i].slot
  tag : ∀ k : SlotId, t.jt.jobs[k].record.tag = s.jt.jobs[k].record.tag

theorem Kept.refl (i : StreamId) (s : State) : Kept i s s := ⟨rfl, rfl, fun _ => rfl⟩

theorem Kept.trans {i : StreamId} {s t u : State} (h : Kept i s t) (h' : Kept i t u) : Kept i s u :=
  ⟨h'.re.trans h.re, h'.slot.trans h.slot, fun k => (h'.tag k).trans (h.tag k)⟩

theorem modBuffer_kept (i : StreamId) (b : Fin 2) (f : Buffer → Buffer) (s : State) : Kept i s (s.modBuffer i b f) :=
  ⟨rfl, by simp [State.modBuffer, State.modStream], fun _ => rfl⟩

theorem modJob_kept (i : StreamId) (k : SlotId) (f : JobRecord → JobRecord) (hf : ∀ r, (f r).tag = r.tag) (s : State) :
    Kept i s (s.modJob k f) := by
  refine ⟨rfl, rfl, fun j => ?_⟩
  by_cases h : k = j
  · subst h; simpa [State.modJob] using hf _
  · have hv : k.val ≠ j.val := fun e => h (Fin.ext e)
    simp [State.modJob, Vector.getElem_set_ne, hv]

theorem chunkQueued_kept (i : StreamId) (b : Fin 2) (k : SlotId) (s : State) : Kept i s (chunkQueued i b k s) :=
  Kept.trans (modBuffer_kept i b (fun x => { x with state := .closed, entry := some (closingEntry s i b k) }) s)
    ⟨rfl, rfl, fun _ => rfl⟩

theorem streamClosing_kept (i : StreamId) (s : State) : Kept i s (streamClosing i s) :=
  ⟨rfl, by simp [streamClosing, State.modStream], fun _ => rfl⟩

theorem closeChunk_kept (i : StreamId) (b : Fin 2) (s : State) : Kept i s (closeChunk i b s) := by
  cases hk : s.streams[i].slot with
  | none => unfold closeChunk; rw [hk]; exact Kept.refl i s
  | some k =>
    by_cases h : s.jt.jobs[k].record.nextSeq = 0xFFFFFFFF
    · rw [closeChunk_final hk h]
      refine ((chunkQueued_kept i b k s).trans (modJob_kept i k _ ?_ _)).trans (streamClosing_kept i _)
      exact fun _ => rfl
    · rw [closeChunk_next hk h]
      refine (chunkQueued_kept i b k s).trans (modJob_kept i k _ ?_ _)
      exact fun _ => rfl

theorem placeBytes_kept (i : StreamId) (n : Nat) : ∀ (bs : List Byte) (s : State), Kept i s (placeBytes i n bs s).1 := by
  induction n with
  | zero => exact fun _ s => Kept.refl i s
  | succ n ih =>
    intro bs s
    unfold placeBytes
    split
    · exact Kept.refl i s
    · cases s.streams[i].target with
      | none => exact Kept.refl i s
      | some x =>
        dsimp only
        generalize 16384 - _ = room
        have hfill : Kept i s (fillBuffer i x.1 x.2 (bs.take room) s) := modBuffer_kept i x.1 _ s
        by_cases h : bs.length < room
        · rw [if_pos h]
          exact hfill
        · rw [if_neg h]
          exact (hfill.trans (closeChunk_kept i x.1 _)).trans (ih _ _)

/-! ## A write within the limit is placed whole -/

/-- The queue entry that a buffer's chunk closes with. -/
def entryOf (s : State) (i : StreamId) (f : Fin 2) (k : SlotId) (x : Buffer) : ChunkEntry :=
  let r := s.jt.jobs[k].record
  { stream := i, buffer := f, slot := k, tag := r.tag, lane := r.lane, sequence := r.nextSeq
    rawLength := x.data.length, rawCheck := ~~~ x.check, order := s.ce.nextOrder }

section Closing
variable {s : State} {i : StreamId} {f : Fin 2} {k : SlotId} {x : Buffer}

theorem chunkQueued_modBuffer : chunkQueued i f k (s.modBuffer i f fun _ => x) = { s with
    streams := s.streams.set i { s.streams[i] with
      buffers := s.streams[i].buffers.set f { x with state := .closed, entry := some (entryOf s i f k x) } }
    ce := { s.ce with queue := s.ce.queue ++ [entryOf s i f k x], nextOrder := s.ce.nextOrder + 1 } } := by
  have he : closingEntry (s.modBuffer i f fun _ => x) i f k = entryOf s i f k x := by
    unfold closingEntry entryOf
    rw [modBuffer_buffer]
    rfl
  unfold chunkQueued
  rw [he]
  simp [State.modBuffer, State.modStream]

/-- A chunk closes and its job takes the next sequence. -/
theorem closeChunk_joined (hk : s.streams[i].slot = some k) (h : s.jt.jobs[k].record.nextSeq ≠ 0xFFFFFFFF) :
    closeChunk i f (s.modBuffer i f fun _ => x) = { s with
      streams := s.streams.set i { s.streams[i] with
        buffers := s.streams[i].buffers.set f { x with state := .closed, entry := some (entryOf s i f k x) } }
      jt := { s.jt with jobs := s.jt.jobs.set k { s.jt.jobs[k] with
        record := { s.jt.jobs[k].record with nextSeq := s.jt.jobs[k].record.nextSeq + 1 } } }
      ce := { s.ce with queue := s.ce.queue ++ [entryOf s i f k x], nextOrder := s.ce.nextOrder + 1 } } := by
  rw [closeChunk_next (k := k) ((modBuffer_kept i f _ s).slot.trans hk) h, chunkQueued_modBuffer]
  rfl

end Closing

/-- The buffer that takes the bytes after a chunk has closed. -/
theorem takesNext_other {st : Stream} {f : Fin 2} {x : Buffer} (hx : x.state = .closed)
    (h : st.buffers[1 - f].state = .filling ∨ st.buffers[1 - f].state = .free) :
    takesNext { st with buffers := st.buffers.set f x } (1 - f) := by
  unfold takesNext
  match f with
  | 0 =>
    have h' : st.buffers[1].state = .filling ∨ st.buffers[1].state = .free := h
    rcases h' with h' | h' <;> simp [hx, h']
  | 1 =>
    have h' : st.buffers[0].state = .filling ∨ st.buffers[0].state = .free := h
    rcases h' with h' | h' <;> simp [hx, h']

theorem chunkInto_set_other (st : Stream) (f : Fin 2) (x : Buffer) :
    chunkInto { st with buffers := st.buffers.set f x } (1 - f) = chunkInto st (1 - f) := by
  have h : (st.buffers.set f x)[1 - f] = st.buffers[1 - f] :=
    Vector.getElem_set_ne (xs := st.buffers) (x := x) f.isLt (1 - f).isLt (other_ne f).symm
  unfold chunkInto
  simp only [h]

/-- The room that the chunk of a buffer still has is the buffer's free space. -/
theorem space_of_takes {st : Stream} {f : Fin 2} (h : st.buffers[f].state = .filling ∨ st.buffers[f].state = .free) :
    st.buffers[f].space = 16384 - (chunkInto st f).data.length := by
  unfold Buffer.space chunkInto
  rcases h with h | h
  · simp only [h, if_true]
  · rw [h]; rfl

theorem state_of_takesNext {st : Stream} {f : Fin 2} (h : takesNext st f) :
    st.buffers[f].state = .filling ∨ st.buffers[f].state = .free := by
  unfold takesNext at h
  split at h
  · next h0 => subst h; exact .inl h0
  · split at h
    · next h1 => subst h; exact .inl h1
    · split at h
      · next h2 => subst h; exact .inr h2
      · obtain ⟨h3, rfl⟩ := h; exact .inr h3

theorem state_of_space {x : Buffer} (h : 0 < x.space) : x.state = .filling ∨ x.state = .free := by
  unfold Buffer.space at h
  split at h
  · next hs => exact .inr hs
  · next hs => exact .inl hs
  · exact absurd h (Nat.lt_irrefl 0)

/-- Bytes that find free space are all placed, while the job has sequences left. -/
theorem placeBytes_all {s : State} {i : StreamId} {k : SlotId} {bs : List Byte} (ho : s.streams[i].phase = .opened)
    (hk : s.streams[i].slot = some k) (hseq : s.jt.jobs[k].record.nextSeq ≠ 0xFFFFFFFF) (h : bs.length ≤ s.streams[i].space) :
    (placeBytes i 3 bs s).2 = [] := by
  by_cases hb : bs = []
  · rw [hb, placeBytes_nil]
  have hlen := List.length_pos_iff.mpr hb
  obtain ⟨f, hf⟩ := exists_takesNext (st := s.streams[i]) (by omega)
  have hspace := space_eq s.streams[i] f
  rw [space_of_takes (state_of_takesNext hf)] at hspace
  by_cases hfit : (chunkInto s.streams[i] f).data.length + bs.length < 16384
  · rw [placeBytes_fits 2 ho hb hf hfit]
  rw [placeBytes_closes 2 ho hb hf (by omega), closeChunk_joined hk hseq]
  generalize hrest : bs.drop (16384 - (chunkInto s.streams[i] f).data.length) = rest
  have hrestlen : rest.length = bs.length - (16384 - (chunkInto s.streams[i] f).data.length) := by
    rw [← hrest, List.length_drop]
  by_cases hr : rest = []
  · rw [hr, placeBytes_nil]
  have hpos := List.length_pos_iff.mpr hr
  have hother := state_of_space (x := s.streams[i].buffers[1 - f]) (by omega)
  have hroom := space_of_takes hother
  generalize hu : ({ s with streams := _, jt := _, ce := _ } : State) = u
  obtain ⟨x, hx, hus⟩ : ∃ x : Buffer, x.state = .closed
      ∧ u.streams[i] = { s.streams[i] with buffers := s.streams[i].buffers.set f x } :=
    ⟨_, rfl, by rw [← hu]; exact Vector.getElem_set_self i.isLt⟩
  have hnext : takesNext u.streams[i] (1 - f) := by rw [hus]; exact takesNext_other hx hother
  have hchunk : chunkInto u.streams[i] (1 - f) = chunkInto s.streams[i] (1 - f) := by rw [hus]; exact chunkInto_set_other ..
  have hou : u.streams[i].phase = .opened := by rw [hus]; exact ho
  by_cases hfit : (chunkInto u.streams[i] (1 - f)).data.length + rest.length < 16384
  · rw [placeBytes_fits 1 hou hr hnext hfit]
  rw [placeBytes_closes 1 hou hr hnext (by omega), hchunk, List.drop_eq_nil_of_le (by omega), placeBytes_nil]

/-! ## What a write does once its bytes have been sorted -/

theorem limitCurrent_recompute (i : StreamId) (s : State) : limitCurrent (recomputeLimit i s) i := by
  unfold limitCurrent
  rw [streamLimit_congr (t := recomputeLimit i s) (s := s) rfl rfl (by simp [recomputeLimit, State.setStreamAperture]) rfl]
  simp [recomputeLimit, State.setStreamAperture]

/-- A stream's aperture holds and its OVERRUN joins the backlog. -/
theorem streamOverrun_joins {s : State} {i : StreamId} {k : SlotId} (reason : OverrunReason) (offset : Word)
    (hw : s.waiting (.stream i) = false) (hr : s.re.hasRoom = true) (hk : s.streams[i].slot = some k) :
    streamOverrun i reason offset s = { s with
      wd := { s.wd with streamAperture := s.wd.streamAperture.set i { s.wd.streamAperture[i] with
        limit := s.streamLimit i, held := true } }
      re := { s.re with backlog := s.re.backlog ++ [.overrun (.stream i) s.jt.jobs[k].record.tag reason
        s.wd.streamAperture[i].expected s.wd.streamAperture[i].limit offset] } } := by
  unfold streamOverrun
  rw [if_neg (by simp [hw]), hk]
  dsimp only
  generalize Report.overrun (.stream i) _ reason _ _ offset = r
  have hpost : post (.stream i) r (s.setStreamAperture i { s.wd.streamAperture[i] with held := true }) =
      { s.setStreamAperture i { s.wd.streamAperture[i] with held := true } with
        re := { s.re with backlog := s.re.backlog ++ [r] } } := if_pos hr
  rw [hpost]
  have hlim := streamLimit_congr (s := s) (t := { s.setStreamAperture i { s.wd.streamAperture[i] with held := true } with
    re := { s.re with backlog := s.re.backlog ++ [r] } }) (i := i) rfl rfl (by simp [State.setStreamAperture]) rfl
  unfold recomputeLimit
  rw [hlim]
  simp [State.setStreamAperture]

/-- Bytes within the accept limit that are all placed advance E. -/
theorem streamAccept_whole {s : State} {i : StreamId} {bs : List Byte} (offset : Word)
    (h : bs.length ≤ ahead s.wd.streamAperture[i].limit s.wd.streamAperture[i].expected)
    (hp : (placeBytes i 3 bs (s.setStreamAperture i { s.wd.streamAperture[i] with held := false })).2 = []) :
    streamAccept i bs offset s =
      let t := (placeBytes i 3 bs (s.setStreamAperture i { s.wd.streamAperture[i] with held := false })).1
      recomputeLimit i (t.setStreamAperture i { t.wd.streamAperture[i] with
        expected := t.wd.streamAperture[i].expected + BitVec.ofNat 32 bs.length }) := by
  unfold streamAccept
  simp only [List.take_of_length_le h, hp, List.length_nil, Nat.sub_zero, Nat.min_eq_right h, Nat.lt_irrefl, if_false]

/-- Bytes that reach the accept limit are taken up to it, and then the aperture holds. -/
theorem streamAccept_limit {s : State} {i : StreamId} {bs : List Byte} (offset : Word)
    (h : ahead s.wd.streamAperture[i].limit s.wd.streamAperture[i].expected < bs.length)
    (hp : (placeBytes i 3 (bs.take (ahead s.wd.streamAperture[i].limit s.wd.streamAperture[i].expected))
      (s.setStreamAperture i { s.wd.streamAperture[i] with held := false })).2 = []) :
    streamAccept i bs offset s = streamOverrun i .limit offset
      (streamAccept i (bs.take (ahead s.wd.streamAperture[i].limit s.wd.streamAperture[i].expected)) offset s) := by
  rw [streamAccept_whole (bs := bs.take _) offset (by simp) hp]
  unfold streamAccept
  simp only [hp, List.length_nil, Nat.sub_zero, Nat.min_eq_left (Nat.le_of_lt h), h, if_true, List.length_take]

theorem setStreamAperture_self (s : State) (i : StreamId) : s.setStreamAperture i s.wd.streamAperture[i] = s := by
  simp [State.setStreamAperture]

/-- The aperture's hold is as it is where a write clears it that is not there. -/
theorem setStreamAperture_held {s : State} {i : StreamId} (h : s.wd.streamAperture[i].held = false) :
    s.setStreamAperture i { s.wd.streamAperture[i] with held := false } = s := by
  have : ({ s.wd.streamAperture[i] with held := false } : Aperture) = s.wd.streamAperture[i] := by rw [← h]
  rw [this, setStreamAperture_self]

/-- No bytes at E change nothing where the accept limit is current. -/
theorem streamAccept_nil {s : State} {i : StreamId} (offset : Word) (hh : s.wd.streamAperture[i].held = false)
    (hcur : limitCurrent s i) : streamAccept i [] offset s = s := by
  rw [streamAccept_whole offset (Nat.zero_le _) (by rw [placeBytes_nil]), placeBytes_nil]
  dsimp only
  rw [setStreamAperture_held hh, List.length_nil, BitVec.add_zero]
  refine (congrArg (recomputeLimit i) (setStreamAperture_self s i)).trans (recomputeLimit_current hcur)

/-- Bytes taken whole leave the accept limit current, and keep the Request Engine, the stream's slot and the jobs' tags. -/
theorem streamAccept_kept {s : State} {i : StreamId} {bs : List Byte} (offset : Word)
    (h : bs.length ≤ ahead s.wd.streamAperture[i].limit s.wd.streamAperture[i].expected)
    (hp : (placeBytes i 3 bs (s.setStreamAperture i { s.wd.streamAperture[i] with held := false })).2 = []) :
    Kept i s (streamAccept i bs offset s) ∧ limitCurrent (streamAccept i bs offset s) i := by
  rw [streamAccept_whole offset h hp]
  refine ⟨?_, limitCurrent_recompute i _⟩
  have h1 : Kept i s (s.setStreamAperture i { s.wd.streamAperture[i] with held := false }) := ⟨rfl, rfl, fun _ => rfl⟩
  have h2 := h1.trans (placeBytes_kept i 3 bs _)
  exact ⟨h2.re, h2.slot, h2.tag⟩

section Write
variable {s : State} {i : StreamId} {w : Window} {addr : Word} {data : List Byte}

theorem streamWrite_dropped
    (h : s.wd.streamAperture[i].sort (s.wd.streamAperture[i].displacement w addr.toNat) data.length = .dropped) :
    streamWrite i w addr data s = s := by
  unfold streamWrite
  simp only [h]

theorem streamWrite_gap
    (h : s.wd.streamAperture[i].sort (s.wd.streamAperture[i].displacement w addr.toNat) data.length = .gap) :
    streamWrite i w addr data s = streamOverrun i .gap
      (s.wd.streamAperture[i].expected + BitVec.ofInt 32 (s.wd.streamAperture[i].displacement w addr.toNat)) s := by
  unfold streamWrite
  simp only [h]
  rfl

theorem streamWrite_taken {skip : Nat}
    (h : s.wd.streamAperture[i].sort (s.wd.streamAperture[i].displacement w addr.toNat) data.length = .taken skip) :
    streamWrite i w addr data s = streamAccept i (data.drop skip)
      (s.wd.streamAperture[i].expected + BitVec.ofInt 32 (s.wd.streamAperture[i].displacement w addr.toNat)) s := by
  unfold streamWrite
  simp only [h]
  rfl

end Write

/-- The free space that a current accept limit leaves beyond E. -/
theorem ahead_of_current {s : State} {i : StreamId} (ho : s.streams[i].phase = .opened) (hw : s.waiting (.stream i) = false)
    (h : limitCurrent s i) : ahead s.wd.streamAperture[i].limit s.wd.streamAperture[i].expected ≤ s.streams[i].space := by
  have hlim : s.wd.streamAperture[i].limit = s.wd.streamAperture[i].expected + BitVec.ofNat 32 s.streams[i].space := by
    rw [show s.wd.streamAperture[i].limit = s.streamLimit i from h]
    unfold State.streamLimit
    rw [ho, hw]
    rfl
  have hsub : s.wd.streamAperture[i].limit - s.wd.streamAperture[i].expected = BitVec.ofNat 32 s.streams[i].space := by
    rw [hlim, BitVec.add_comm, BitVec.add_sub_cancel]
  unfold ahead
  rw [hsub]
  exact Nat.mod_le _ _

/-- Settles O11. -/
theorem streamGapHolds : Obligations.StreamGapHolds := by
  intro s l i k addr data hs hok hl hc ho hk hroom hw a d tag offset holding
  have hexec := exec_apertureWrite (s := s) hok
  have hwrite : controllerWrite addr data s = streamWrite i l.apertures[i] addr data s :=
    controllerWrite_stream hl hc (by rw [ho]; exact nofun)
  obtain ⟨hpos, hpage⟩ := transactionOk_iff.mp hok
  have hlim : s.streamLimit i = a.expected + BitVec.ofNat 32 s.streams[i].space := by
    unfold State.streamLimit
    rw [ho, hw]
    rfl
  have hover (reason : OverrunReason) : streamOverrun i reason offset s = holding reason a.limit := by
    rw [streamOverrun_joins reason offset hw hroom hk, hlim]
  rw [hexec]
  refine ⟨fun hh h => runStep_next s _ _ hs ?_, fun h => runStep_next s _ _ hs ?_, fun hh h => runStep_next s _ _ hs ?_,
    fun hh h hz hcur => runStep_next s _ _ hs ?_, fun hh h hz hlt hcur hseq => ?_⟩
  · rw [hwrite]
    exact streamWrite_dropped (sort_held hh (h.imp_right fun h => ahead_eq_zero.mpr h))
  · rw [hwrite]
    exact streamWrite_dropped (sort_below h)
  · rw [hwrite, streamWrite_gap (sort_gap hh h)]
    exact hover .gap
  · have hroom0 : ahead a.limit a.expected = 0 := ahead_eq_zero.mpr hz
    have htake := streamAccept_limit (s := s) (i := i) (bs := data) offset (by rw [hroom0]; exact hpos)
      (by rw [hroom0, List.take_zero, placeBytes_nil])
    rw [hroom0, List.take_zero, streamAccept_nil offset hh hcur] at htake
    rw [hwrite, streamWrite_taken (sort_at hh h hpos)]
    exact htake.trans (hover .limit)
  · have hroom0 : 0 < ahead a.limit a.expected := Nat.pos_of_ne_zero fun h0 => hz (ahead_eq_zero.mp h0)
    have hlen : (data.take (ahead a.limit a.expected)).length = ahead a.limit a.expected :=
      List.length_take_of_le (Nat.le_of_lt hlt)
    have hok' : transactionOk addr (data.take (ahead a.limit a.expected)).length = true :=
      transactionOk_iff.mpr ⟨by omega, by omega⟩
    have hall : (placeBytes i 3 (data.take (ahead a.limit a.expected))
        (s.setStreamAperture i { s.wd.streamAperture[i] with held := false })).2 = [] := by
      rw [setStreamAperture_held hh]
      exact placeBytes_all ho hk hseq (by rw [hlen]; exact ahead_of_current ho hw hcur)
    have hwrite' : controllerWrite addr (data.take (ahead a.limit a.expected)) s =
        streamAccept i (data.take (ahead a.limit a.expected)) offset s := by
      rw [controllerWrite_stream hl hc (by rw [ho]; exact nofun), streamWrite_taken (sort_at hh h (by rw [hlen]; exact hroom0))]
      rfl
    obtain ⟨hkept, hcur'⟩ := streamAccept_kept offset (Nat.le_of_eq hlen) hall
    have hover' := streamOverrun_joins .limit offset (s := streamAccept i (data.take (ahead a.limit a.expected)) offset s)
      (by rw [State.waiting, hkept.re]; exact hw) (by rw [hkept.re]; exact hroom) (hkept.slot.trans hk)
    rw [← show _ = State.streamLimit _ i from hcur', hkept.tag k] at hover'
    have hdata : controllerWrite addr data s = streamOverrun i .limit offset
        (streamAccept i (data.take (ahead a.limit a.expected)) offset s) := by
      rw [hwrite, streamWrite_taken (sort_at hh h hpos)]
      exact streamAccept_limit offset hlt hall
    rw [exec_apertureWrite hok']
    generalize streamAccept i (data.take (ahead a.limit a.expected)) offset s = v at *
    obtain ⟨b, hb⟩ := runStep_next s v _ hs hwrite'
    obtain ⟨b', hb'⟩ := runStep_next s _ (controllerWrite addr data) hs (hdata.trans hover')
    exact ⟨withStale b v, b', hb, hb'⟩

end Sys2Proof.Proofs.StreamWrites
end

section
/-! PROOFS. A write at E of an open stream (R11 to R13, R43, R44): the chunk it joins, the chunk it closes, and the limit it
leaves. -/
namespace Sys2Proof.Proofs.StreamWrites
open Sys2Proof Sys2Proof.Machine Sys2Proof.Safety Sys2Proof.Laws
open Sys2Proof.Proofs.Windows Sys2Proof.Proofs.Streams

/-! ## The accept limit once E has advanced -/

section Advance
variable {t : State} {i : StreamId} {e : Word}

theorem advance_opened (ho : t.streams[i].phase = .opened) (hw : t.waiting (.stream i) = false) :
    recomputeLimit i (t.setStreamAperture i { t.wd.streamAperture[i] with expected := e }) =
      t.setStreamAperture i { t.wd.streamAperture[i] with
        expected := e, limit := e + BitVec.ofNat 32 t.streams[i].space } := by
  have hlim : (t.setStreamAperture i { t.wd.streamAperture[i] with expected := e }).streamLimit i =
      e + BitVec.ofNat 32 t.streams[i].space := by
    have hw' : (t.setStreamAperture i { t.wd.streamAperture[i] with expected := e }).waiting (.stream i) = false := hw
    have ho' : (t.setStreamAperture i { t.wd.streamAperture[i] with expected := e }).streams[i].phase = .opened := ho
    unfold State.streamLimit
    rw [ho', hw']
    simp [State.setStreamAperture]
  unfold recomputeLimit
  rw [hlim]
  simp [State.setStreamAperture]

theorem advance_closing (hc : t.streams[i].phase = .closing) :
    recomputeLimit i (t.setStreamAperture i { t.wd.streamAperture[i] with expected := e }) =
      t.setStreamAperture i { t.wd.streamAperture[i] with expected := e, limit := e } := by
  have hlim : (t.setStreamAperture i { t.wd.streamAperture[i] with expected := e }).streamLimit i = e := by
    have hc' : (t.setStreamAperture i { t.wd.streamAperture[i] with expected := e }).streams[i].phase = .closing := hc
    unfold State.streamLimit
    rw [hc']
    simp [State.setStreamAperture]
  unfold recomputeLimit
  rw [hlim]
  simp [State.setStreamAperture]

end Advance

theorem joined_space (st : Stream) (f : Fin 2) (bs : List Byte) :
    (joined st f bs).space = 16384 - ((chunkInto st f).data.length + bs.length) := by
  have hs : (joined st f bs).state = .filling := chunkInto_state st f
  unfold Buffer.space
  rw [hs]
  exact congrArg (16384 - ·) List.length_append

theorem modBuffer_id (s : State) (i : StreamId) (b : Fin 2) : s.modBuffer i b id = s := by
  have hset : ({ s.streams[i] with buffers := s.streams[i].buffers.set b s.streams[i].buffers[b] } : Stream)
      = s.streams[i] := by simp
  have hstream : s.modBuffer i b id = { s with streams := s.streams.set i s.streams[i] } :=
    congrArg (fun x => ({ s with streams := s.streams.set i x } : State)) hset
  rw [hstream]
  simp

theorem other_val : ∀ f : Fin 2, (1 - f).val = 1 - f.val := by decide

/-- The free space with the other buffer replaced. -/
theorem modBuffer_other_space (s : State) (i : StreamId) (b : Fin 2) (g : Buffer → Buffer) :
    (s.modBuffer i (1 - b) g).streams[i].space = (g s.streams[i].buffers[1 - b]).space + s.streams[i].buffers[b].space := by
  match b with
  | 0 => exact modBuffer_space (b := 1) g
  | 1 => exact modBuffer_space (b := 0) g

section Accept
variable {s : State} {i : StreamId} {f : Fin 2} {bs : List Byte} {k : SlotId}

/-- Bytes that leave their chunk open. -/
theorem streamAccept_fits (offset : Word) (ho : s.streams[i].phase = .opened) (hw : s.waiting (.stream i) = false)
    (hh : s.wd.streamAperture[i].held = false) (hb : bs ≠ [])
    (hlen : bs.length ≤ ahead s.wd.streamAperture[i].limit s.wd.streamAperture[i].expected) (ht : takesNext s.streams[i] f)
    (h : (chunkInto s.streams[i] f).data.length + bs.length < 16384) :
    streamAccept i bs offset s = { s with
      streams := s.streams.set i { s.streams[i] with buffers := s.streams[i].buffers.set f (joined s.streams[i] f bs) }
      wd := { s.wd with streamAperture := s.wd.streamAperture.set i {
        expected := s.wd.streamAperture[i].expected + BitVec.ofNat 32 bs.length
        limit := s.wd.streamAperture[i].expected + BitVec.ofNat 32 bs.length
          + BitVec.ofNat 32 (16384 - ((chunkInto s.streams[i] f).data.length + bs.length) + s.streams[i].buffers[1 - f].space)
        held := false } } } := by
  have hplace := placeBytes_fits 2 ho hb ht h
  rw [streamAccept_whole offset hlen (by rw [setStreamAperture_held hh, hplace]), setStreamAperture_held hh, hplace]
  dsimp only
  rw [advance_opened ((modBuffer_phase _).trans ho) hw, modBuffer_space, joined_space]
  simp only [State.modBuffer, State.modStream, State.setStreamAperture, hh]

/-- What a chunk's close leaves of the bytes opens the other buffer. -/
def restInto (rest : List Byte) (x : Buffer) : Buffer :=
  if rest = [] then x else { state := .filling, data := rest, check := crcUpdate 0xFFFFFFFF rest }

theorem placeBytes_rest (ho : s.streams[i].phase = .opened) (hc : s.streams[i].buffers[f].state = .closed)
    (h : bs = [] ∨ s.streams[i].buffers[1 - f].state = .free) (hlen : bs.length < 16384) :
    placeBytes i 2 bs s = (s.modBuffer i (1 - f) (restInto bs), []) := by
  by_cases hb : bs = []
  · have hid : restInto bs = id := funext fun x => if_pos hb
    have hself : s.modBuffer i (1 - f) (restInto bs) = s := by
      rw [hid, modBuffer_id]
    rw [hself, hb, placeBytes_nil]
  · have hfree := h.resolve_left hb
    have hset : ({ s.streams[i] with buffers := s.streams[i].buffers.set f s.streams[i].buffers[f] } : Stream)
        = s.streams[i] := by simp
    have ht : takesNext s.streams[i] (1 - f) := by
      have := takesNext_other (st := s.streams[i]) (f := f) hc (.inr hfree)
      rwa [hset] at this
    have hchunk : chunkInto s.streams[i] (1 - f) = { state := .filling, data := [], check := 0xFFFFFFFF } :=
      if_neg (by rw [hfree]; exact nofun)
    have hjoin : (fun _ => joined s.streams[i] (1 - f) bs : Buffer → Buffer) = restInto bs := by
      funext x
      unfold joined restInto
      rw [hchunk, if_neg hb]
      rfl
    rw [placeBytes_fits 1 ho hb ht (by rw [hchunk]; simpa using hlen), hjoin]

/-- The buffer whose chunk the bytes close. -/
def closedBuffer (s : State) (i : StreamId) (f : Fin 2) (k : SlotId) (bs : List Byte) : Buffer :=
  let x := joined s.streams[i] f (bs.take (16384 - (chunkInto s.streams[i] f).data.length))
  { x with state := .closed, entry := some (entryOf s i f k x) }

/-- The bytes that are left once a chunk has closed. -/
def restBeyond (s : State) (i : StreamId) (f : Fin 2) (bs : List Byte) : List Byte :=
  bs.drop (16384 - (chunkInto s.streams[i] f).data.length)

/-- The state once the bytes have closed their chunk. -/
def chunkClosed (s : State) (i : StreamId) (f : Fin 2) (k : SlotId) (bs : List Byte) : State := { s with
  streams := s.streams.set i { s.streams[i] with buffers := s.streams[i].buffers.set f (closedBuffer s i f k bs) }
  jt := { s.jt with jobs := s.jt.jobs.set k { s.jt.jobs[k] with
    record := { s.jt.jobs[k].record with nextSeq := s.jt.jobs[k].record.nextSeq + 1 } } }
  ce := { s.ce with
    queue := s.ce.queue ++ [entryOf s i f k
      (joined s.streams[i] f (bs.take (16384 - (chunkInto s.streams[i] f).data.length)))]
    nextOrder := s.ce.nextOrder + 1 } }

theorem chunkClosed_stream : (chunkClosed s i f k bs).streams[i] =
    { s.streams[i] with buffers := s.streams[i].buffers.set f (closedBuffer s i f k bs) } := Vector.getElem_set_self i.isLt

theorem chunkClosed_buffer : (chunkClosed s i f k bs).streams[i].buffers[f] = closedBuffer s i f k bs := by
  rw [chunkClosed_stream]
  exact Vector.getElem_set_self f.isLt

theorem chunkClosed_other : (chunkClosed s i f k bs).streams[i].buffers[1 - f] = s.streams[i].buffers[1 - f] := by
  rw [chunkClosed_stream]
  exact Vector.getElem_set_ne (xs := s.streams[i].buffers) f.isLt (1 - f).isLt (other_ne f).symm

/-- The bytes that are left open the other buffer. -/
theorem chunkClosed_rest (rest : List Byte) : (chunkClosed s i f k bs).modBuffer i (1 - f) (restInto rest) =
    { chunkClosed s i f k bs with streams := s.streams.set i { s.streams[i] with
      buffers := (s.streams[i].buffers.set f (closedBuffer s i f k bs)).set (1 - f)
        (restInto rest s.streams[i].buffers[1 - f]) } } := by
  unfold State.modBuffer State.modStream
  dsimp only
  rw [chunkClosed_other, chunkClosed_stream]
  simp only [other_val]
  exact congrArg (fun v => ({ chunkClosed s i f k bs with streams := v } : State)) (Vector.set_set _ i.isLt)

/-- Bytes that close their chunk are placed there and in the other buffer. -/
theorem placeBytes_closing (ho : s.streams[i].phase = .opened) (hb : bs ≠ []) (ht : takesNext s.streams[i] f)
    (h : 16384 ≤ (chunkInto s.streams[i] f).data.length + bs.length) (h4096 : bs.length ≤ 4096)
    (hk : s.streams[i].slot = some k) (hseq : s.jt.jobs[k].record.nextSeq ≠ 0xFFFFFFFF)
    (hother : s.streams[i].buffers[1 - f].state = .free ∨ restBeyond s i f bs = []) :
    placeBytes i 3 bs s = ((chunkClosed s i f k bs).modBuffer i (1 - f) (restInto (restBeyond s i f bs)), []) := by
  have hplace := placeBytes_closes 2 ho hb ht h
  rw [closeChunk_joined hk hseq] at hplace
  refine hplace.trans (placeBytes_rest (s := chunkClosed s i f k bs) (f := f) (bs := restBeyond s i f bs) ?_ ?_ ?_ ?_)
  · rw [chunkClosed_stream]
    exact ho
  · rw [chunkClosed_buffer]
    rfl
  · rw [chunkClosed_other]
    exact hother.symm
  · unfold restBeyond
    rw [List.length_drop]
    omega

/-- Bytes that close their chunk, with sequences left. -/
theorem streamAccept_closes (offset : Word) (ho : s.streams[i].phase = .opened) (hw : s.waiting (.stream i) = false)
    (hh : s.wd.streamAperture[i].held = false) (hb : bs ≠ [])
    (hlen : bs.length ≤ ahead s.wd.streamAperture[i].limit s.wd.streamAperture[i].expected) (ht : takesNext s.streams[i] f)
    (h : 16384 ≤ (chunkInto s.streams[i] f).data.length + bs.length) (h4096 : bs.length ≤ 4096)
    (hk : s.streams[i].slot = some k) (hseq : s.jt.jobs[k].record.nextSeq ≠ 0xFFFFFFFF)
    (hother : s.streams[i].buffers[1 - f].state = .free ∨ restBeyond s i f bs = []) :
    streamAccept i bs offset s = { chunkClosed s i f k bs with
      streams := s.streams.set i { s.streams[i] with
        buffers := (s.streams[i].buffers.set f (closedBuffer s i f k bs)).set (1 - f)
          (restInto (restBeyond s i f bs) s.streams[i].buffers[1 - f]) }
      wd := { s.wd with streamAperture := s.wd.streamAperture.set i {
        expected := s.wd.streamAperture[i].expected + BitVec.ofNat 32 bs.length
        limit := s.wd.streamAperture[i].expected + BitVec.ofNat 32 bs.length
          + BitVec.ofNat 32 (restInto (restBeyond s i f bs) s.streams[i].buffers[1 - f]).space
        held := false } } } := by
  have hplace := placeBytes_closing ho hb ht h h4096 hk hseq hother
  have hopen : (chunkClosed s i f k bs).streams[i].phase = .opened := by
    rw [chunkClosed_stream]
    exact ho
  have hspace : ((chunkClosed s i f k bs).modBuffer i (1 - f) (restInto (restBeyond s i f bs))).streams[i].space =
      (restInto (restBeyond s i f bs) s.streams[i].buffers[1 - f]).space := by
    rw [modBuffer_other_space, chunkClosed_buffer, chunkClosed_other, show (closedBuffer s i f k bs).space = 0 from rfl, Nat.add_zero]
  rw [streamAccept_whole offset hlen (by rw [setStreamAperture_held hh, hplace]), setStreamAperture_held hh, hplace]
  dsimp only
  rw [advance_opened ((modBuffer_phase _).trans hopen) hw, hspace, chunkClosed_rest]
  unfold State.setStreamAperture
  dsimp only
  rw [show (chunkClosed s i f k bs).wd.streamAperture[i].held = false from hh]
  rfl

/-- Bytes that close the chunk of the last sequence. -/
theorem streamAccept_final (offset : Word) (ho : s.streams[i].phase = .opened)
    (hh : s.wd.streamAperture[i].held = false) (hb : bs ≠ [])
    (hlen : bs.length ≤ ahead s.wd.streamAperture[i].limit s.wd.streamAperture[i].expected) (ht : takesNext s.streams[i] f)
    (h : 16384 ≤ (chunkInto s.streams[i] f).data.length + bs.length)
    (hk : s.streams[i].slot = some k) (hseq : s.jt.jobs[k].record.nextSeq = 0xFFFFFFFF)
    (hactive : s.jt.jobs[k].record.state = .active)
    (hrest : bs.drop (16384 - (chunkInto s.streams[i] f).data.length) = []) :
    streamAccept i bs offset s =
      let x := joined s.streams[i] f (bs.take (16384 - (chunkInto s.streams[i] f).data.length))
      { s with
        streams := s.streams.set i { s.streams[i] with
          phase := .closing, buffers := s.streams[i].buffers.set f (closedBuffer s i f k bs) }
        jt := { s.jt with jobs := s.jt.jobs.set k { s.jt.jobs[k] with
          record := { s.jt.jobs[k].record with state := .flushing, closedFinal := true } } }
        ce := { s.ce with queue := s.ce.queue ++ [entryOf s i f k x], nextOrder := s.ce.nextOrder + 1 }
        wd := { s.wd with streamAperture := s.wd.streamAperture.set i {
          expected := s.wd.streamAperture[i].expected + BitVec.ofNat 32 bs.length
          limit := s.wd.streamAperture[i].expected + BitVec.ofNat 32 bs.length
          held := false } } } := by
  have hplace := placeBytes_closes 2 ho hb ht h
  rw [hrest, placeBytes_nil, closeChunk_final (k := k) ((modBuffer_kept i f _ s).slot.trans hk) hseq,
    chunkQueued_modBuffer] at hplace
  rw [streamAccept_whole offset hlen (by rw [setStreamAperture_held hh, hplace]), setStreamAperture_held hh, hplace]
  dsimp only
  rw [advance_closing (by simp [streamClosing, State.modStream])]
  have hheld : s.wd.streamAperture[i.val].held = false := hh
  have hstate : s.jt.jobs[k.val].record.state = .active := hactive
  simp [streamClosing, recomputeLimit, State.modStream, State.modJob, State.setStreamAperture, hheld, hstate, closedBuffer]

end Accept

/-- Taking bytes clears the hold first. -/
theorem streamAccept_unheld {s : State} {i : StreamId} {bs : List Byte} (offset : Word) :
    streamAccept i bs offset (s.setStreamAperture i { s.wd.streamAperture[i] with held := false }) =
      streamAccept i bs offset s := by
  have hself (x : Aperture) : (s.setStreamAperture i x).wd.streamAperture[i] = x := Vector.getElem_set_self i.isLt
  have htwice (x y : Aperture) : (s.setStreamAperture i x).setStreamAperture i y = s.setStreamAperture i y := by
    unfold State.setStreamAperture
    simp only [Vector.set_set]
  unfold streamAccept
  simp only [hself, htwice]

/-- The resend's bytes from E on lie at the address that many bytes on. -/
theorem onward_toNat {addr : Word} {d : Int} {n : Nat} (hok : transactionOk addr n = true) (hd : d < 0)
    (hn : 0 < d + (n : Int)) : (addr + BitVec.ofInt 32 (-d)).toNat = addr.toNat + (-d).toNat := by
  obtain ⟨hpos, hpage⟩ := transactionOk_iff.mp hok
  have ha := addr.isLt
  have hofInt : (BitVec.ofInt 32 (-d)).toNat = (-d).toNat := by
    rw [BitVec.toNat_ofInt]
    omega
  rw [BitVec.toNat_add, hofInt]
  omega

/-- Settles O9. -/
theorem streamWriteAccepted : Obligations.StreamWriteAccepted := by
  intro s l i addr data hs hok hl hc ho hw a d advanced
  have hexec := exec_apertureWrite (s := s) hok
  have hwrite : controllerWrite addr data s = streamWrite i l.apertures[i] addr data s :=
    controllerWrite_stream hl hc (by rw [ho]; exact nofun)
  obtain ⟨hpos, hpage⟩ := transactionOk_iff.mp hok
  have hb : data ≠ [] := List.length_pos_iff.mp hpos
  refine ⟨?_, ?_, ?_⟩
  · intro f hh h hlen ht chunk other
    rw [hexec]
    have haccept : controllerWrite addr data s = streamAccept i data (a.expected + BitVec.ofInt 32 d) s := by
      rw [hwrite, streamWrite_taken (sort_at hh h hpos), List.drop_zero]
    refine ⟨fun hfit => runStep_next s _ _ hs ?_, ?_⟩
    · rw [haccept]
      exact streamAccept_fits _ ho hw hh hb hlen ht hfit
    intro k hroom hfull hk job first rest entry closed queued
    have hraw : (chunk.data ++ first).length = 16384 := by
      rw [List.length_append, List.length_take_of_le (by omega)]
      omega
    have hentry : entryOf s i f k (joined s.streams[i] f first) = entry :=
      congrArg (fun n => ({ entry with rawLength := n } : ChunkEntry)) hraw
    refine ⟨fun hseq hother => runStep_next s _ _ hs ?_, fun hseq hrest hactive => runStep_next s _ _ hs ?_⟩
    · have hspace : (restInto rest other).space = if rest = [] then other.space else 16384 - rest.length := by
        unfold restInto
        split <;> rfl
      rw [haccept, streamAccept_closes _ ho hw hh hb hlen ht hfull (by omega) hk hseq (hother.imp_right And.left)]
      unfold chunkClosed closedBuffer
      dsimp only
      rw [show (restInto (restBeyond s i f data) s.streams[i].buffers[1 - f]).space =
        if rest = [] then other.space else 16384 - rest.length from hspace, hentry]
      rfl
    · rw [haccept, streamAccept_final _ ho hh hb hlen ht hfull hk hseq hactive hrest]
      unfold closedBuffer
      dsimp only
      rw [hentry]
      rfl
  · intro k hh h hn hcur hk hseq onward hco hd0 hlen
    have honward := onward_toNat hok h hn
    have hdrop : (data.drop (-d).toNat).length = data.length - (-d).toNat := List.length_drop
    have hok' : transactionOk onward (data.drop (-d).toNat).length = true :=
      transactionOk_iff.mpr ⟨by omega, by rw [show onward.toNat = _ from honward]; omega⟩
    have hroom : (data.drop (-d).toNat).length ≤ ahead a.limit a.expected := by omega
    have hall : (placeBytes i 3 (data.drop (-d).toNat)
        (s.setStreamAperture i { s.wd.streamAperture[i] with held := false })).2 = [] := by
      rw [setStreamAperture_held hh]
      exact placeBytes_all ho hk hseq (Nat.le_trans hroom (ahead_of_current ho hw hcur))
    have hsame : controllerWrite addr data s = controllerWrite onward (data.drop (-d).toNat) s := by
      rw [hwrite, controllerWrite_stream hl hco (by rw [ho]; exact nofun), streamWrite_taken (sort_taken hh (Int.le_of_lt h) hn),
        streamWrite_taken (sort_at hh hd0 (by omega)), List.drop_zero, streamAccept_whole _ hroom hall,
        streamAccept_whole _ hroom hall]
    rw [hexec, exec_apertureWrite hok', runStep_spec, runStep_spec, hsame]
  · intro hh h hroom
    have hu := streamAccept_unheld (s := s) (i := i) (bs := data) (a.expected + BitVec.ofInt 32 d)
    have hself : ∀ x : Aperture, (s.setStreamAperture i x).wd.streamAperture[i] = x := fun x =>
      Vector.getElem_set_self i.isLt
    have hwriteU : controllerWrite addr data (s.setStreamAperture i { a with held := false }) =
        streamAccept i data (a.expected + BitVec.ofInt 32 d) (s.setStreamAperture i { a with held := false }) := by
      have hfree : s.streams[i].phase ≠ .free := by rw [ho]; exact nofun
      rw [controllerWrite_stream (s := s.setStreamAperture i { a with held := false }) (i := i) (l := l) hl hc hfree,
        streamWrite_taken (skip := 0) (by rw [hself]; exact sort_at rfl h hpos), hself, List.drop_zero]
      rfl
    have hwriteS : controllerWrite addr data s = streamAccept i data (a.expected + BitVec.ofInt 32 d) s := by
      rw [hwrite, streamWrite_taken (sort_held_taken hh h hpos hroom), List.drop_zero]
    obtain ⟨b, hb⟩ := runStep_next s _ _ hs (hwriteS.trans hu.symm)
    obtain ⟨b', hb'⟩ := runStep_next (s.setStreamAperture i { a with held := false }) _ _ hs hwriteU
    exact ⟨_, b, (exec_apertureWrite hok).trans hb', hexec.trans hb⟩

end Sys2Proof.Proofs.StreamWrites
end

section
/-! PROOFS. The consumed mark of a Return Framer (R102): the needed position least far ahead, and how an event that recomputes it
ends. -/
namespace Sys2Proof.Proofs.Framers
open Sys2Proof Sys2Proof.Machine Sys2Proof.Safety Sys2Proof.Laws

/-! ## The least of some positions -/

theorem earlier_cases (base a b : Word) : earlier base a b = a ∨ earlier base a b = b := by
  unfold earlier
  split
  · exact .inr rfl
  · exact .inl rfl

theorem earlier_le (base a b : Word) :
    ahead (earlier base a b) base ≤ ahead a base ∧ ahead (earlier base a b) base ≤ ahead b base := by
  unfold earlier
  split <;> omega

theorem foldl_earlier_mem (base : Word) (l : List Word) : ∀ a, l.foldl (earlier base) a ∈ a :: l := by
  induction l with
  | nil => exact fun a => List.mem_singleton_self a
  | cons b l ih =>
    intro a
    rw [List.foldl_cons]
    rcases List.mem_cons.mp (ih (earlier base a b)) with h | h
    · rw [h]
      rcases earlier_cases base a b with h | h
      · rw [h]; exact List.mem_cons_self
      · rw [h]; exact List.mem_cons_of_mem _ List.mem_cons_self
    · exact List.mem_cons_of_mem _ (List.mem_cons_of_mem _ h)

theorem foldl_earlier_le (base : Word) (l : List Word) :
    ∀ a, ∀ x ∈ a :: l, ahead (l.foldl (earlier base) a) base ≤ ahead x base := by
  induction l with
  | nil => intro a x hx; rw [List.mem_singleton.mp hx]; exact Nat.le_refl _
  | cons b l ih =>
    intro a x hx
    have hle := ih (earlier base a b) _ List.mem_cons_self
    have := earlier_le base a b
    rw [List.foldl_cons]
    rcases List.mem_cons.mp hx with rfl | hx
    · omega
    · rcases List.mem_cons.mp hx with rfl | hx
      · omega
      · exact ih (earlier base a b) x (List.mem_cons_of_mem _ hx)

/-! ## The needed positions -/

/-- The positions that a Framer's consumed mark is the least of. -/
def neededList (f : Framer) (de : DecodeEngine) (n : LaneId) : List Word :=
  f.retained :: (f.assemblyPieces ++ de.piecesOf n)

theorem mem_firstPiece {x : Word} (l : List Piece) :
    x ∈ ((l.take 1).map fun p => p.position) ↔ ∃ p rest, l = p :: rest ∧ p.position = x := by
  cases l with
  | nil => simp
  | cons p rest => simp [eq_comm]

theorem mem_assemblyPieces {f : Framer} {x : Word} : x ∈ f.assemblyPieces ↔
    ∃ a, (f.assembler = .collect a ∨ f.assembler = .hold a) ∧ ∃ p rest, a.pieces = p :: rest ∧ p.position = x := by
  unfold Framer.assemblyPieces
  cases h : f.assembler with
  | collect a => exact (mem_firstPiece _).trans ⟨fun hx => ⟨a, .inl rfl, hx⟩, by rintro ⟨b, hb, hx⟩; cases hb <;> simp_all⟩
  | hold a => exact (mem_firstPiece _).trans ⟨fun hx => ⟨a, .inr rfl, hx⟩, by rintro ⟨b, hb, hx⟩; cases hb <;> simp_all⟩
  | waitStart => simp
  | atNext => simp
  | atHeader => simp

theorem mem_piecesOf {de : DecodeEngine} {n : LaneId} {x : Word} : x ∈ de.piecesOf n ↔
    (∃ e ∈ de.queue, e.lane = n ∧ ∃ p rest, e.pieces = p :: rest ∧ p.position = x)
    ∨ ∃ d, de.operation = some (.decode d) ∧ d.result = none ∧ d.linked = true ∧ d.entry.lane = n
        ∧ ∃ p rest, d.entry.pieces = p :: rest ∧ p.position = x := by
  unfold DecodeEngine.piecesOf
  rw [List.mem_append]
  refine or_congr ?_ ?_
  · simp only [List.mem_flatMap, List.mem_filter, decide_eq_true_eq, mem_firstPiece, and_assoc]
  · cases h : de.operation with
    | none => simp
    | some o =>
      cases o with
      | evaluation k => simp
      | decode d =>
        by_cases hd : d.result.isNone ∧ d.linked ∧ d.entry.lane = n
        · simp only [if_pos hd, mem_firstPiece]
          obtain ⟨h1, h2, h3⟩ := hd
          refine ⟨fun hx => ⟨d, rfl, Option.isNone_iff_eq_none.mp h1, h2, h3, hx⟩, ?_⟩
          rintro ⟨_, hd, -, -, -, hx⟩
          cases hd
          exact hx
        · simp only [if_neg hd]
          refine ⟨nofun, ?_⟩
          rintro ⟨_, hd', h1, h2, h3, -⟩
          cases hd'
          exact absurd ⟨Option.isNone_iff_eq_none.mpr h1, h2, h3⟩ hd

theorem needed_iff {t : State} {n : LaneId} {x : Word} : needed t n x ↔ x ∈ neededList t.framers[n] t.de n := by
  unfold needed neededList
  rw [List.mem_cons, List.mem_append, mem_assemblyPieces, mem_piecesOf]
  rfl

/-! ## Recomputing -/

/-- The Framer alone decides which positions it needs, and its consumed mark is none of what decides. -/
theorem neededList_consumed (f : Framer) (c : Word) (de : DecodeEngine) (n : LaneId) :
    neededList { f with consumed := c } de n = neededList f de n := rfl

section Moves
variable {s u : State} {l : Layout} {n : LaneId} {f : Framer}

theorem recomputeConsumed_eq (hl : u.wd.layout = some l) (hp : u.framers[n].phase ≠ .unbound) :
    recomputeConsumed n u =
      let c := (u.framers[n].assemblyPieces ++ u.de.piecesOf n).foldl (earlier u.framers[n].consumed) u.framers[n].retained
      { u with
        framers := u.framers.set n { u.framers[n] with consumed := c }
        wd := { u.wd with ringAperture := u.wd.ringAperture.set n { u.wd.ringAperture[n] with
          limit := c + BitVec.ofNat 32 l.rings[n].size } } } := by
  unfold recomputeConsumed State.returnRing
  rw [hl]
  exact if_neg hp

/-- A Framer whose marks are recomputed has the consumed mark that it should. -/
theorem recompute_moves (hl : u.wd.layout = some l) (hp : f.phase ≠ .unbound) (hc : f.consumed = s.framers[n].consumed) :
    let t := recomputeConsumed n { u with framers := u.framers.set n f }
    t = withFramer u t l n f ∧ consumedRight s t n := by
  intro t
  have hself : ({ u with framers := u.framers.set n f } : State).framers[n] = f := Vector.getElem_set_self n.isLt
  have ht := recomputeConsumed_eq (u := { u with framers := u.framers.set n f }) (n := n) hl (by rw [hself]; exact hp)
  rw [hself, hc] at ht
  generalize hm : (f.assemblyPieces ++ u.de.piecesOf n).foldl (earlier s.framers[n].consumed) f.retained = c at ht
  have htn : t.framers[n] = { f with consumed := c } := by
    rw [show t = _ from ht]
    exact Vector.getElem_set_self n.isLt
  have hde : t.de = u.de := by rw [show t = _ from ht]
  refine ⟨?_, ?_⟩
  · refine ht.trans ?_
    unfold withFramer
    rw [htn]
    simp only [Vector.set_set]
  · unfold consumedRight
    rw [htn]
    have hlist : neededList t.framers[n] t.de n = f.retained :: (f.assemblyPieces ++ u.de.piecesOf n) := by
      rw [htn, hde]; rfl
    simp only [needed_iff, hlist, ← hm]
    exact ⟨foldl_earlier_mem _ _ _, foldl_earlier_le _ _ _⟩

/-- A command that ends with a Framer's marks recomputed. -/
theorem next_moves {c : Instr} (h : ∃ b, exec c s = .next (withStale b (recomputeConsumed n { u with framers := u.framers.set n f })))
    (hl : u.wd.layout = some l) (hp : f.phase ≠ .unbound) (hc : f.consumed = s.framers[n].consumed) :
    ∃ t, exec c s = .next t ∧ framerMoves s u t l n f := by
  obtain ⟨h1, h2⟩ := recompute_moves (s := s) hl hp hc
  obtain ⟨b, hb⟩ := h
  generalize recomputeConsumed n { u with framers := u.framers.set n f } = t at *
  exact ⟨_, hb, congrArg (withStale b) h1, h2⟩

theorem exec_moves {c : Instr} {g : State → State} (hs : running s) (hx : exec c s = runStep s g)
    (hg : g s = recomputeConsumed n { u with framers := u.framers.set n f }) (hl : u.wd.layout = some l)
    (hp : f.phase ≠ .unbound) (hc : f.consumed = s.framers[n].consumed) :
    ∃ t, exec c s = .next t ∧ framerMoves s u t l n f :=
  next_moves (by rw [hx]; exact runStep_next s _ g hs hg) hl hp hc

end Moves

end Sys2Proof.Proofs.Framers
end

section
/-! PROOFS. The end of a Framer's event, and the synchronizer's search and confirmation (R102, R105, R106). -/
namespace Sys2Proof.Proofs.Framers
open Sys2Proof Sys2Proof.Machine Sys2Proof.Safety Sys2Proof.Laws

/-! ## The end of an event -/

section Settle
variable {s u : State} {l : Layout} {n : LaneId} {f : Framer}

theorem recomputeConsumed_verifyEnded (h : u.framers[n].pastLast = false) :
    (recomputeConsumed n u).verifyEnded n = false := by
  have hp : (recomputeConsumed n u).framers[n].pastLast = u.framers[n].pastLast := by
    unfold recomputeConsumed
    dsimp only
    split
    · rfl
    · simp [State.modFramer, State.setRingAperture]
  unfold State.verifyEnded
  rw [hp, h]
  simp

theorem framerSettle_taking (hw : u.waiting (.framer n) = false) (hp : u.framers[n].phase = .taking)
    (hv : u.framers[n].pastLast = false) : framerSettle n u = recomputeConsumed n u := by
  have hstop : ¬ u.framers[n].phase = .stopped := by rw [hp]; decide
  unfold framerSettle
  simp only [hw, Bool.false_eq_true, if_false, if_neg hstop, recomputeConsumed_verifyEnded hv]

/-- A command whose event ends with a TAKING Framer as given. -/
theorem next_settles {c : Instr} (h : ∃ b, exec c s = .next (withStale b (framerSettle n { u with framers := u.framers.set n f })))
    (hl : u.wd.layout = some l) (hw : u.waiting (.framer n) = false) (hp : f.phase = .taking) (hv : f.pastLast = false)
    (hc : f.consumed = s.framers[n].consumed) : ∃ t, exec c s = .next t ∧ framerMoves s u t l n f := by
  have hself : ({ u with framers := u.framers.set n f } : State).framers[n] = f := Vector.getElem_set_self n.isLt
  have hsettle := framerSettle_taking (u := { u with framers := u.framers.set n f }) (n := n) hw (by rw [hself]; exact hp)
    (by rw [hself]; exact hv)
  rw [hsettle] at h
  exact next_moves h hl (by rw [hp]; decide) hc

theorem exec_settles {c : Instr} {g : State → State} (hs : running s) (hx : exec c s = runStep s g)
    (hg : g s = framerSettle n { u with framers := u.framers.set n f }) (hl : u.wd.layout = some l)
    (hw : u.waiting (.framer n) = false) (hp : f.phase = .taking) (hv : f.pastLast = false)
    (hc : f.consumed = s.framers[n].consumed) : ∃ t, exec c s = .next t ∧ framerMoves s u t l n f :=
  next_settles (by rw [hx]; exact runStep_next s _ g hs hg) hl hw hp hv hc

end Settle

/-! ## Search and confirmation -/

section Sync
variable {s : State} {n : LaneId} {l : Layout}

theorem synchronizing_free (h : FramerFree s n) : s.synchronizing n = true := by
  unfold State.synchronizing
  rw [h.taking, h.noPost, h.noFrame]
  rfl

theorem returned_eq (hl : s.wd.layout = some l) (x : Word) (count : Nat) :
    s.returned n x count = ringBytes s.mem l.rings[n] x count := by
  unfold State.returned State.returnRing
  rw [hl]

theorem arrived_iff (count : Nat) :
    s.arrived n count = true ↔ count ≤ (s.wd.ringAperture[n].expected - s.framers[n].scan).toNat := decide_eq_true_iff

theorem arrived_not {count : Nat} (h : (s.wd.ringAperture[n].expected - s.framers[n].scan).toNat < count) :
    s.arrived n count = false := by
  rw [Bool.eq_false_iff, ne_eq, arrived_iff]
  omega

theorem syncSearchTest_short (h : (s.wd.ringAperture[n].expected - s.framers[n].scan).toNat < 20) : syncSearchTest n s = s := by
  unfold syncSearchTest
  rw [arrived_not h, Bool.and_false]
  rfl

theorem syncSearchTest_whole (hf : FramerFree s n) (hl : s.wd.layout = some l) (hs : s.framers[n].sync = .search)
    (h : 20 ≤ (s.wd.ringAperture[n].expected - s.framers[n].scan).toNat) :
    syncSearchTest n s =
      if headerGood (ringBytes s.mem l.rings[n] s.framers[n].scan 20) then
        s.modFramer n fun f => { f with sync := .confirm1 (headerName (ringBytes s.mem l.rings[n] s.framers[n].scan 20)) }
      else framerSettle n (s.modFramer n fun f => { f with scan := f.scan + 1 }) := by
  unfold syncSearchTest
  rw [synchronizing_free hf, (arrived_iff 20).mpr h, hs, returned_eq hl]
  rfl

theorem syncConfirm_one (hf : FramerFree s n) (hl : s.wd.layout = some l) {x : FrameName} (hs : s.framers[n].sync = .confirm1 x) :
    syncConfirm n s =
      if s.arrived n 4116 then
        if headerGood (ringBytes s.mem l.rings[n] (s.framers[n].scan + 4096) 20)
            && decide (headerName (ringBytes s.mem l.rings[n] (s.framers[n].scan + 4096) 20) = x.next) then
          s.modFramer n fun f => { f with sync := .confirm2 x }
        else confirmFailed n s
      else s := by
  unfold syncConfirm
  rw [synchronizing_free hf, if_pos rfl]
  simp only [hs, returned_eq hl]

theorem syncConfirm_two (hf : FramerFree s n) (hl : s.wd.layout = some l) {x : FrameName} (hs : s.framers[n].sync = .confirm2 x) :
    syncConfirm n s =
      if s.arrived n 8212 then
        if headerGood (ringBytes s.mem l.rings[n] (s.framers[n].scan + 8192) 20)
            && decide (headerName (ringBytes s.mem l.rings[n] (s.framers[n].scan + 8192) 20) = x.next.next) then gainLock n x s
        else confirmFailed n s
      else s := by
  unfold syncConfirm
  rw [synchronizing_free hf, if_pos rfl]
  simp only [hs, returned_eq hl]

theorem framerPost_room (r : Report) (h : s.re.hasRoom = true) :
    framerPost n r s = { s with re := { s.re with backlog := s.re.backlog ++ [r] } } := by
  rcases framerPost_spec n r s with ⟨-, e⟩ | ⟨h', -⟩
  · exact e
  · rw [h] at h'; cases h'

theorem modFramer_self (g : Framer → Framer) : (s.modFramer n g).framers[n] = g s.framers[n] :=
  Vector.getElem_set_self n.isLt

theorem framerJob_modFramer {g : Framer → Framer} (h : (g s.framers[n]).slot = s.framers[n].slot) :
    (s.modFramer n g).framerJob n = s.framerJob n := by
  unfold State.framerJob
  rw [modFramer_self, h]
  rfl

theorem gainLock_posts (x : FrameName) (h : s.re.hasRoom = true) :
    gainLock n x s = framerSettle n { s.modFramer n (fun f => { f with
        sync := .locked, missCount := 0, firstMissed := none, expected := some x, failures := 0, lastAccepted := none,
        assembler := match f.assembler with | .hold a => .hold a | _ => .waitStart }) with
      re := { s.re with backlog := s.re.backlog ++ [.lockGained n (s.framerJob n).tag s.framers[n].scan x] } } := by
  unfold gainLock
  dsimp only
  rw [framerJob_modFramer (s := s) (n := n) rfl]
  rw [framerPost_room _ (by exact h), modFramer_self]
  rfl

end Sync

/-- Settles O44. -/
theorem syncSearchesAndConfirms : Obligations.SyncSearchesAndConfirms := by
  intro s n l hs hf hl f arrived header onward
  have hzero : header 0 = ringBytes s.mem l.rings[n] s.framers[n].scan 20 :=
    congrArg (fun x => ringBytes s.mem l.rings[n] x 20) (BitVec.add_zero f.scan)
  have honward {c : Instr} {g : State → State} (hx : exec c s = runStep s g)
      (hg : g s = framerSettle n (s.modFramer n fun f => { f with sync := .search, scan := f.scan + 1 })) : onward c :=
    exec_settles hs hx hg hl hf.noPost hf.taking hf.notPast rfl
  refine ⟨fun hsync => ⟨fun h => runStep_next s _ _ hs (syncSearchTest_short h), fun h hbad => ?_,
      fun h hgood => runStep_next s _ (syncSearchTest n) hs ?_⟩, fun x hsync => ⟨fun h => runStep_next s _ (syncConfirm n) hs ?_,
      fun h hbad => ?_, fun h hgood hname => runStep_next s _ (syncConfirm n) hs ?_⟩,
    fun x hsync => ⟨fun h => runStep_next s _ (syncConfirm n) hs ?_, fun h hbad => ?_, fun h hgood hname hroom => ?_⟩⟩
  · refine honward (g := syncSearchTest n) rfl ?_
    rw [syncSearchTest_whole hf hl hsync h, ← hzero, if_neg (by rw [hbad]; decide)]
    exact congrArg (framerSettle n) (modFramer_congr (by rw [← hsync]))
  · rw [syncSearchTest_whole hf hl hsync h, ← hzero, if_pos hgood]
    rfl
  · rw [syncConfirm_one hf hl hsync, arrived_not h]
    rfl
  · refine honward (g := syncConfirm n) rfl ?_
    rw [syncConfirm_one hf hl hsync, if_pos ((arrived_iff _).mpr h), if_neg fun hc => hbad (((Bool.and_eq_true _ _).mp hc).imp_right of_decide_eq_true)]
    rfl
  · rw [syncConfirm_one hf hl hsync, if_pos ((arrived_iff _).mpr h), if_pos ((Bool.and_eq_true _ _).mpr ⟨hgood, decide_eq_true hname⟩)]
    rfl
  · rw [syncConfirm_two hf hl hsync, arrived_not h]
    rfl
  · refine honward (g := syncConfirm n) rfl ?_
    rw [syncConfirm_two hf hl hsync, if_pos ((arrived_iff _).mpr h), if_neg fun hc => hbad (((Bool.and_eq_true _ _).mp hc).imp_right of_decide_eq_true)]
    rfl
  · have hg : syncConfirm n s = gainLock n x s := by
      rw [syncConfirm_two hf hl hsync, if_pos ((arrived_iff _).mpr h), if_pos ((Bool.and_eq_true _ _).mpr ⟨hgood, decide_eq_true hname⟩)]
    rw [gainLock_posts x hroom] at hg
    have htag : (s.framerJob n).tag = match f.slot with | none => 0 | some k => s.jt.jobs[k].record.tag := by
      unfold State.framerJob
      cases f.slot <;> rfl
    rw [htag] at hg
    exact exec_settles hs rfl hg hl hf.noPost hf.taking hf.notPast rfl

end Sys2Proof.Proofs.Framers
end

section
/-! PROOFS. Writes to a return ring (R11 to R14, R102, R103, R116): the bytes taken at the arrived mark, and what holds the
aperture. -/
namespace Sys2Proof.Proofs.Framers
open Sys2Proof Sys2Proof.Machine Sys2Proof.Safety Sys2Proof.Laws
open Sys2Proof.Proofs.Windows
open Sys2Proof.Proofs.StreamWrites (sort_below sort_held sort_gap sort_taken sort_at sort_held_taken transactionOk_iff)

/-! ## The end of an event of a Framer that is not TAKING -/

section Settle
variable {u : State} {n : LaneId}

theorem framerSettle_waiting (h : u.waiting (.framer n) = true) : framerSettle n u = u := if_pos h

theorem framerSettle_stopped (hw : u.waiting (.framer n) = false) (hp : u.framers[n].phase = .stopped) :
    framerSettle n u = recomputeConsumed n (u.modFramer n fun f => { f with scan := u.wd.ringAperture[n].expected }) := by
  have hphase : ∀ v : State, v.framers[n].phase = .stopped → (recomputeConsumed n v).verifyEnded n = false := by
    intro v hv
    have hr : (recomputeConsumed n v).framers[n].phase = .stopped := by
      unfold recomputeConsumed
      dsimp only
      split
      · exact hv
      · exact (congrArg Framer.phase (Vector.getElem_set_self n.isLt)).trans hv
    unfold State.verifyEnded
    rw [hr]
    rfl
  unfold framerSettle
  simp only [hw, Bool.false_eq_true, if_false, hp, if_true]
  rw [hphase _ ((congrArg Framer.phase (modFramer_self _)).trans hp)]
  rfl

end Settle

/-! ## Writes by sorting -/

section Write
variable {s : State} {n : LaneId} {w : Window} {addr : Word} {data : List Byte}

theorem ringDataWrite_dropped
    (h : s.wd.ringAperture[n].sort (s.wd.ringAperture[n].displacement w addr.toNat) data.length = .dropped) :
    ringDataWrite n w addr data s = s := by
  unfold ringDataWrite
  simp only [h]

theorem ringDataWrite_gap
    (h : s.wd.ringAperture[n].sort (s.wd.ringAperture[n].displacement w addr.toNat) data.length = .gap) :
    ringDataWrite n w addr data s = ringHold n .gap
      (s.wd.ringAperture[n].expected + BitVec.ofInt 32 (s.wd.ringAperture[n].displacement w addr.toNat)) s := by
  unfold ringDataWrite
  simp only [h]
  rfl

theorem ringDataWrite_taken {skip : Nat}
    (h : s.wd.ringAperture[n].sort (s.wd.ringAperture[n].displacement w addr.toNat) data.length = .taken skip) :
    ringDataWrite n w addr data s = ringAccept n (addr.toNat + skip) (data.drop skip)
      (s.wd.ringAperture[n].expected + BitVec.ofInt 32 (s.wd.ringAperture[n].displacement w addr.toNat)) s := by
  unfold ringDataWrite
  simp only [h]
  rfl

end Write

section Accept
variable {s : State} {n : LaneId} {addr : Nat} {bs : List Byte}

/-- The return ring once bytes from E on have arrived. -/
def ringArrived (n : LaneId) (addr : Nat) (bs : List Byte) (s : State) : State :=
  (s.store addr bs).setRingAperture n { s.wd.ringAperture[n] with
    held := false, expected := s.wd.ringAperture[n].expected + BitVec.ofNat 32 bs.length }

theorem ringAccept_whole (offset : Word) (h : bs.length ≤ ahead s.wd.ringAperture[n].limit s.wd.ringAperture[n].expected) :
    ringAccept n addr bs offset s =
      if s.framers[n].phase = .stopped then framerSettle n (ringArrived n addr bs s) else ringArrived n addr bs s := by
  have hmin := Nat.min_eq_right h
  unfold ringAccept ringArrived
  simp only [List.take_of_length_le h, hmin, Nat.not_lt.mpr h, if_false]
  rfl

theorem ringAccept_limit (offset : Word) (h : ahead s.wd.ringAperture[n].limit s.wd.ringAperture[n].expected < bs.length)
    (hp : s.framers[n].phase = .taking) :
    ringAccept n addr bs offset s = ringHold n .limit offset
      (ringArrived n addr (bs.take (ahead s.wd.ringAperture[n].limit s.wd.ringAperture[n].expected)) s) := by
  have hmin := Nat.min_eq_left (Nat.le_of_lt h)
  have hlen := List.length_take_of_le (Nat.le_of_lt h)
  have hstop : ¬ (s.framers[n].phase = .stopped) := by rw [hp]; decide
  unfold ringAccept ringArrived
  simp only [hmin, h, if_true, hlen]
  congr 1
  exact if_neg hstop

end Accept

/-! ## The hold -/

section Hold
variable {s : State} {n : LaneId}

/-- The OVERRUN of a return ring. -/
def ringReport (n : LaneId) (reason : OverrunReason) (offset : Word) (s : State) : Report :=
  .overrun (.ring n) (s.framerJob n).tag reason s.wd.ringAperture[n].expected s.wd.ringAperture[n].limit offset

theorem ringHold_eq (reason : OverrunReason) (offset : Word) : ringHold n reason offset s =
    ringOverrun n (ringReport n reason offset s) (s.setRingAperture n { s.wd.ringAperture[n] with held := true }) := rfl

theorem ringHold_mem (reason : OverrunReason) (offset : Word) : (ringHold n reason offset s).mem = s.mem := by
  rw [ringHold_eq]
  unfold ringOverrun
  split
  · rfl
  · unfold post
    split <;> rfl

theorem ringHold_posts (reason : OverrunReason) (offset : Word) (hw : s.waiting (.framer n) = false) (hr : s.re.hasRoom = true) :
    ringHold n reason offset s = { s.setRingAperture n { s.wd.ringAperture[n] with held := true } with
      re := { s.re with backlog := s.re.backlog ++ [ringReport n reason offset s] } } := by
  rw [ringHold_eq]
  unfold ringOverrun
  rw [if_neg (by exact Bool.eq_false_iff.mp hw)]
  exact if_pos hr

theorem ringHold_pends (reason : OverrunReason) (offset : Word) (hw : s.waiting (.framer n) = true) :
    ringHold n reason offset s = { s.setRingAperture n { s.wd.ringAperture[n] with held := true } with
      framers := s.framers.set n { s.framers[n] with pendingOverrun := some (ringReport n reason offset s) } } := by
  rw [ringHold_eq]
  exact if_pos hw

/-- What a hold leaves, posted or kept pending. -/
theorem ringHold_overrun {u v : State} {reason : OverrunReason} {offset : Word} {r : Report} (b : Bool)
    (hset : v.setRingAperture n { v.wd.ringAperture[n] with held := true } = u) (hr : ringReport n reason offset v = r)
    (hre : v.re = s.re) (hf : v.framers = s.framers) :
    let t := withStale b (ringHold n reason offset v)
    (s.waiting (.framer n) = false → s.re.hasRoom = true →
        t = withStale t.re.stale { u with re := { s.re with backlog := s.re.backlog ++ [r] } })
      ∧ (s.waiting (.framer n) = true →
        t = withStale t.re.stale { u with framers := s.framers.set n { s.framers[n] with pendingOverrun := some r } }) := by
  have hwait : v.waiting (.framer n) = s.waiting (.framer n) := by rw [State.waiting, hre]; rfl
  refine ⟨fun hw hroom => ?_, fun hw => ?_⟩
  · rw [ringHold_posts reason offset (hwait.trans hw) (by rw [hre]; exact hroom), hset, hr, hre]
    rfl
  · rw [ringHold_pends reason offset (hwait.trans hw), hset, hr, hf]
    rfl

/-- Taking bytes clears the hold first. -/
theorem ringAccept_unheld {addr : Nat} {bs : List Byte} (offset : Word) :
    ringAccept n addr bs offset (s.setRingAperture n { s.wd.ringAperture[n] with held := false }) =
      ringAccept n addr bs offset s := by
  have hself (x : Aperture) : (s.setRingAperture n x).wd.ringAperture[n] = x := Vector.getElem_set_self n.isLt
  have htwice (m : Nat) (b : List Byte) (x y : Aperture) :
      ((s.setRingAperture n x).store m b).setRingAperture n y = (s.store m b).setRingAperture n y := by
    unfold State.setRingAperture State.store
    simp only [Vector.set_set]
  unfold ringAccept
  simp only [hself, htwice]

end Hold

/-- Settles O10. -/
theorem ringWriteAccepted : Obligations.RingWriteAccepted := by
  intro s l n addr data hs hok hl hc hrole a d room bytes aperture tag overrun
  have hexec := exec_apertureWrite (s := s) hok
  have hwrite : controllerWrite addr data s = ringDataWrite n l.rings[n] addr data s := controllerWrite_ring hl hc hrole
  obtain ⟨hpos, hpage⟩ := transactionOk_iff.mp hok
  have hbytes : bytes.length = data.length - (-d).toNat := List.length_drop
  have htag : (s.framerJob n).tag = tag := by
    unfold State.framerJob
    simp only [tag]
    cases s.framers[n].slot <;> rfl
  rw [hexec]
  refine ⟨fun hh hd hn hlen => ?_, fun hh hd hlt hp => ?_, fun hh hd => ?_, fun h => runStep_next s _ _ hs ?_, fun hh h0 hroom => ?_⟩
  · intro arrived
    have haccept : controllerWrite addr data s =
        if s.framers[n].phase = .stopped then framerSettle n (ringArrived n (addr.toNat + (-d).toNat) bytes s)
        else ringArrived n (addr.toNat + (-d).toNat) bytes s := by
      rw [hwrite, ringDataWrite_taken (sort_taken hh hd hn)]
      exact ringAccept_whole _ hlen
    have hopen : ({ a with held := false, expected := arrived } : Aperture) = { a with expected := arrived } :=
      congrArg (fun b => ({ expected := arrived, limit := a.limit, held := b } : Aperture)) hh.symm
    have hv : ringArrived n (addr.toNat + (-d).toNat) bytes s = { s with
        mem := memWrite s.mem (addr.toNat + (-d).toNat) bytes
        wd := { s.wd with ringAperture := s.wd.ringAperture.set n { a with expected := arrived } } } := by
      rw [← hopen]
      rfl
    have hwritten := memWrite_written s.mem (addr.toNat + (-d).toNat) bytes
    generalize memWrite s.mem (addr.toNat + (-d).toNat) bytes = m at hv hwritten
    by_cases hst : s.framers[n].phase = .stopped ∧ s.waiting (.framer n) = false
    · obtain ⟨hstop, hw⟩ := hst
      have hsettle := framerSettle_stopped (u := ringArrived n (addr.toNat + (-d).toNat) bytes s) (n := n) hw hstop
      rw [if_pos hstop, hsettle] at haccept
      have harrived : (ringArrived n (addr.toNat + (-d).toNat) bytes s).wd.ringAperture[n].expected = arrived :=
        congrArg Aperture.expected (Vector.getElem_set_self n.isLt)
      rw [harrived, hv] at haccept
      obtain ⟨t, ht, hmoves⟩ := exec_moves (l := l) hs hexec haccept hl (by rw [hstop]; decide) rfl
      have hmem : t.mem = m := by rw [hmoves.1]; rfl
      refine ⟨t, hexec.symm.trans ht, hmem.symm ▸ hwritten, fun h => ?_, fun _ _ => ?_⟩
      · rcases h with h | h
        · rw [hstop] at h; cases h
        · rw [hw] at h; cases h
      · simp only [aperture, hmem]
        exact hmoves
    · have hplain : controllerWrite addr data s = ringArrived n (addr.toNat + (-d).toNat) bytes s := by
        rw [haccept]
        split
        · next hstop =>
          have hw : s.waiting (.framer n) = true := Bool.not_eq_false _ ▸ fun hw => hst ⟨hstop, hw⟩
          exact framerSettle_waiting hw
        · rfl
      obtain ⟨b, hb⟩ := runStep_next s _ _ hs (hplain.trans hv)
      exact ⟨_, hb, hwritten, fun _ => rfl, fun h h' => absurd ⟨h, h'⟩ hst⟩
  · have hlen : (bytes.take room).length = room := List.length_take_of_le (Nat.le_of_lt hlt)
    generalize hv : ringArrived n (addr.toNat + (-d).toNat) (bytes.take room) s = v
    have hhold : controllerWrite addr data s = ringHold n .limit (a.expected + BitVec.ofInt 32 d) v := by
      have htaken : 0 < d + (data.length : Int) := by
        have : 0 < data.length - (-d).toNat := hbytes ▸ Nat.lt_of_le_of_lt (Nat.zero_le room) hlt
        omega
      rw [hwrite, ringDataWrite_taken (sort_taken hh hd htaken), ← hv]
      exact ringAccept_limit _ hlt hp
    have hself : v.wd.ringAperture[n] = { a with held := false, expected := a.expected + BitVec.ofNat 32 room } := by
      rw [← hv]
      refine (Vector.getElem_set_self n.isLt).trans ?_
      rw [hlen]
    have hreport : ringReport n .limit (a.expected + BitVec.ofInt 32 d) v =
        .overrun (.ring n) tag .limit (a.expected + BitVec.ofNat 32 room) a.limit (a.expected + BitVec.ofInt 32 d) := by
      unfold ringReport
      rw [hself, ← htag, ← hv]
      rfl
    have hmem : v.mem = memWrite s.mem (addr.toNat + (-d).toNat) (bytes.take room) := by rw [← hv]; rfl
    have hset : v.setRingAperture n { v.wd.ringAperture[n] with held := true } =
        aperture v { a with expected := a.expected + BitVec.ofNat 32 room, held := true } := by
      rw [hself, ← hv]
      unfold ringArrived State.setRingAperture State.store
      simp only [Vector.set_set, aperture]
    obtain ⟨b, hb⟩ := runStep_next s _ _ hs hhold
    have hover := ringHold_overrun (s := s) b hset hreport (by rw [← hv]; rfl) (by rw [← hv]; rfl)
    have htm : (withStale b (ringHold n .limit (a.expected + BitVec.ofInt 32 d) v)).mem = v.mem := ringHold_mem _ _
    refine ⟨_, hb, ?_, ?_⟩
    · rw [htm, hmem]
      exact memWrite_written ..
    · simp only [overrun, aperture, htm]
      exact hover
  · have hset : s.setRingAperture n { s.wd.ringAperture[n] with held := true } = aperture s { a with held := true } := rfl
    have hreport : ringReport n .gap (a.expected + BitVec.ofInt 32 d) s =
        .overrun (.ring n) tag .gap a.expected a.limit (a.expected + BitVec.ofInt 32 d) := by
      unfold ringReport
      rw [← htag]
    have hhold : controllerWrite addr data s = ringHold n .gap (a.expected + BitVec.ofInt 32 d) s := by
      rw [hwrite, ringDataWrite_gap (sort_gap hh hd)]
    obtain ⟨b, hb⟩ := runStep_next s _ _ hs hhold
    exact ⟨_, hb, ringHold_mem _ _, ringHold_overrun (s := s) b hset hreport rfl rfl⟩
  · rw [hwrite]
    refine ringDataWrite_dropped ?_
    rcases h with h | ⟨hh, h⟩
    · exact sort_below h
    · exact sort_held hh h
  · have hwriteU : controllerWrite addr data (s.setRingAperture n { a with held := false }) =
        ringAccept n addr.toNat data (a.expected + BitVec.ofInt 32 d) (s.setRingAperture n { a with held := false }) := by
      have hself : ∀ x : Aperture, (s.setRingAperture n x).wd.ringAperture[n] = x := fun x =>
        Vector.getElem_set_self n.isLt
      rw [controllerWrite_ring (s := s.setRingAperture n { a with held := false }) (n := n) (l := l) hl hc hrole,
        ringDataWrite_taken (skip := 0) (by rw [hself]; exact sort_at rfl h0 hpos), hself, List.drop_zero]
      rfl
    have hwriteS : controllerWrite addr data s = ringAccept n addr.toNat data (a.expected + BitVec.ofInt 32 d) s := by
      rw [hwrite, ringDataWrite_taken (sort_held_taken hh h0 hpos hroom), List.drop_zero]
      rfl
    obtain ⟨b, hb⟩ := runStep_next s _ _ hs (hwriteS.trans (ringAccept_unheld _).symm)
    obtain ⟨b', hb'⟩ := runStep_next (s.setRingAperture n { a with held := false }) _ _ hs hwriteU
    exact ⟨_, b, (exec_apertureWrite hok).trans hb', hb⟩

end Sys2Proof.Proofs.Framers
end

section
/-! PROOFS. Lock lost (R108, R110, R111), and the requests that act on a Framer: LANE_RESYNC and JOB_END (R42, R116). -/
namespace Sys2Proof.Proofs.Framers
open Sys2Proof Sys2Proof.Machine Sys2Proof.Safety Sys2Proof.Laws
open Sys2Proof.Proofs.Requests

/-! ## Recomputing again -/

section Again
variable {s : State} {l : Layout} {n : LaneId}

/-- The marks look at no report, no free value, no job and no due list. -/
theorem recomputeConsumed_aside (re : RequestEngine) (c : Nat) (jt : JobTable) (due : List SlotId) :
    recomputeConsumed n { s with re := re, freeCount := c, jt := jt, de := { s.de with due := due } } =
      { recomputeConsumed n s with re := re, freeCount := c, jt := jt, de := { s.de with due := due } } := by
  unfold recomputeConsumed
  dsimp only
  split
  · rfl
  · rfl

theorem eq_of_ahead_zero {a b : Word} (h : ahead a b = 0) : a = b := by
  have : a - b = 0 := BitVec.eq_of_toNat_eq h
  simpa [BitVec.sub_eq_iff_eq_add] using this

/-- Marks that have been recomputed stay as they are. -/
theorem recomputeConsumed_twice (hl : s.wd.layout = some l) (hp : s.framers[n].phase ≠ .unbound) :
    recomputeConsumed n (recomputeConsumed n s) = recomputeConsumed n s := by
  have h1 := recomputeConsumed_eq (u := s) (n := n) hl hp
  generalize hc : (s.framers[n].assemblyPieces ++ s.de.piecesOf n).foldl (earlier s.framers[n].consumed)
    s.framers[n].retained = c at h1
  have hmem := foldl_earlier_mem s.framers[n].consumed (s.framers[n].assemblyPieces ++ s.de.piecesOf n) s.framers[n].retained
  rw [hc] at hmem
  have hframer : (recomputeConsumed n s).framers[n] = { s.framers[n] with consumed := c } := by
    rw [h1]
    exact Vector.getElem_set_self n.isLt
  have hde : (recomputeConsumed n s).de = s.de := by rw [h1]
  have hl' : (recomputeConsumed n s).wd.layout = some l := by rw [h1]; exact hl
  have h2 := recomputeConsumed_eq (u := recomputeConsumed n s) (n := n) hl' (by rw [hframer]; exact hp)
  rw [hframer, hde] at h2
  have hzero := foldl_earlier_le c (s.framers[n].assemblyPieces ++ s.de.piecesOf n) s.framers[n].retained c hmem
  have hself : (s.framers[n].assemblyPieces ++ s.de.piecesOf n).foldl (earlier c) s.framers[n].retained = c :=
    eq_of_ahead_zero (by
      have : ahead c c = 0 := by simp [ahead]
      omega)
  refine h2.trans ?_
  have hfold : (({ s.framers[n] with consumed := c } : Framer).assemblyPieces ++ s.de.piecesOf n).foldl (earlier c)
      ({ s.framers[n] with consumed := c } : Framer).retained = c := hself
  dsimp only
  rw [hfold, h1]
  simp only [Vector.set_set, Vector.getElem_set_self, Fin.getElem_fin]

end Again

/-! ## Losing lock -/

/-- The Framer once its group in hand, if any, has been settled unchecked, field by field. -/
theorem unchecked_eq (f : Framer) : unchecked f = { f with
    groupInHand := none
    lastSettled := (f.groupInHand.map fun g => g.group).or f.lastSettled
    groupsUnchecked := if f.groupInHand = none ∨ f.groupsUnchecked = 0xFFFFFFFF then f.groupsUnchecked
      else f.groupsUnchecked + 1 } := by
  unfold unchecked
  cases h : f.groupInHand with
  | none =>
    simp only [true_or, if_true, Option.map_none, Option.none_or]
    exact congrArg (fun g => ({ f with groupInHand := g } : Framer)) h
  | some g =>
    by_cases hm : f.groupsUnchecked = 0xFFFFFFFF
    · simp [hm]
    · simp only [hm, Option.map_some, Option.some_or, reduceCtorEq, or_self, if_false]

/-- The assembler once a partial segment has been given up. -/
def keptSegment : Assembler → Assembler
  | .hold a => .hold a
  | _ => .waitStart

/-- A Framer that has lost lock. -/
def lostLock (reason : LostReason) (resume : Word) (f : Framer) : Framer :=
  { unchecked f with
    sync := .search, scan := resume, missCount := 0, firstMissed := none, expected := none, frame := none
    failures := if reason = .misses then f.failures else 0
    assembler := keptSegment f.assembler
    locksLost := if f.locksLost = 0xFFFFFFFF then 0xFFFFFFFF else f.locksLost + 1 }

/-- The frame index that LOCK_LOST names. -/
def lostIndex : Option FrameName → Byte
  | none => 0xFF
  | some x => BitVec.ofNat 8 x.index.val

section Lose
variable {s : State} {l : Layout} {n : LaneId}

theorem unchecked_locksLost (f : Framer) : (unchecked f).locksLost = f.locksLost := by rw [unchecked_eq]
theorem unchecked_failures (f : Framer) : (unchecked f).failures = f.failures := by rw [unchecked_eq]
theorem unchecked_assembler (f : Framer) : (unchecked f).assembler = f.assembler := by rw [unchecked_eq]
theorem unchecked_consumed (f : Framer) : (unchecked f).consumed = f.consumed := by rw [unchecked_eq]
theorem unchecked_phase (f : Framer) : (unchecked f).phase = f.phase := by rw [unchecked_eq]
theorem unchecked_pastLast (f : Framer) : (unchecked f).pastLast = f.pastLast := by rw [unchecked_eq]
theorem unchecked_lastAccepted (f : Framer) : (unchecked f).lastAccepted = f.lastAccepted := by rw [unchecked_eq]
theorem unchecked_slot (f : Framer) : (unchecked f).slot = f.slot := by rw [unchecked_eq]

/-- The Framer that loses lock, before the marks are recomputed. -/
theorem loseLock_framer (reason : LostReason) (resume : Word) :
    (settleUnchecked n s).modFramer n (fun f => { f with
      sync := .search, scan := resume, missCount := 0, firstMissed := none, expected := none, frame := none,
      failures := if reason = .misses then f.failures else 0,
      assembler := match f.assembler with | .hold a => .hold a | _ => .waitStart,
      locksLost := satInc f.locksLost }) = s.modFramer n (lostLock reason resume) := by
  rw [settleUnchecked_eq, modFramer_modFramer]
  refine modFramer_congr ?_
  rw [unchecked_failures, unchecked_assembler, unchecked_locksLost, satInc_eq]
  rfl

theorem recomputeConsumed_re : (recomputeConsumed n s).re = s.re := by
  unfold recomputeConsumed
  dsimp only
  split <;> rfl

theorem recomputeConsumed_freeCount : (recomputeConsumed n s).freeCount = s.freeCount := by
  unfold recomputeConsumed
  dsimp only
  split <;> rfl

theorem recomputeConsumed_jt : (recomputeConsumed n s).jt = s.jt := by
  unfold recomputeConsumed
  dsimp only
  split <;> rfl

theorem recomputeConsumed_de : (recomputeConsumed n s).de = s.de := by
  unfold recomputeConsumed
  dsimp only
  split <;> rfl

/-- Recomputing the marks changes nothing of a Framer but its consumed mark. -/
theorem recomputeConsumed_framer : ∃ c, (recomputeConsumed n s).framers[n] = { s.framers[n] with consumed := c } := by
  unfold recomputeConsumed
  dsimp only
  split
  · exact ⟨_, rfl⟩
  · exact ⟨_, Vector.getElem_set_self n.isLt⟩

/-- Reports and free values that come after the marks have been recomputed. -/
theorem framerSettle_after {v : State} (re : RequestEngine) (c : Nat) (hl : v.wd.layout = some l)
    (hp : v.framers[n].phase = .taking) (hw : ({ v with re := re } : State).waiting (.framer n) = false)
    (hv : v.framers[n].pastLast = false) :
    framerSettle n { recomputeConsumed n v with re := re, freeCount := c } =
      recomputeConsumed n { v with re := re, freeCount := c } := by
  obtain ⟨c', hc'⟩ := recomputeConsumed_framer (s := v) (n := n)
  have haside (w : State) (hjt : w.jt = v.jt) (hde : w.de = v.de) :
      recomputeConsumed n { w with re := re, freeCount := c } = { recomputeConsumed n w with re := re, freeCount := c } := by
    have h := recomputeConsumed_aside (s := w) (n := n) re c w.jt w.de.due
    refine h.trans ?_
    have h1 := recomputeConsumed_jt (s := w) (n := n)
    have h2 := recomputeConsumed_de (s := w) (n := n)
    generalize recomputeConsumed n w = x at *
    rw [← h1, ← h2]
  have hsettle := framerSettle_taking (u := { recomputeConsumed n v with re := re, freeCount := c }) (n := n) hw
    ((congrArg Framer.phase hc').trans hp) ((congrArg Framer.pastLast hc').trans hv)
  rw [hsettle, haside _ recomputeConsumed_jt recomputeConsumed_de, haside v rfl rfl,
    recomputeConsumed_twice hl (by rw [hp]; decide)]

theorem lostLock_phase (reason : LostReason) (resume : Word) (f : Framer) : (lostLock reason resume f).phase = f.phase :=
  unchecked_phase f
theorem lostLock_pastLast (reason : LostReason) (resume : Word) (f : Framer) :
    (lostLock reason resume f).pastLast = f.pastLast := unchecked_pastLast f
theorem lostLock_lastAccepted (reason : LostReason) (resume : Word) (f : Framer) :
    (lostLock reason resume f).lastAccepted = f.lastAccepted := unchecked_lastAccepted f
theorem lostLock_slot (reason : LostReason) (resume : Word) (f : Framer) : (lostLock reason resume f).slot = f.slot :=
  unchecked_slot f

/-- LOCK_LOST is posted by a Framer that has lost lock and recomputed its marks. -/
def lockLostPosted (n : LaneId) (reason : LostReason) (resume : Word) (u : State) : State :=
  match u.framers[n].lastAccepted with
  | some x => post (.framer n) (.lockLost n (u.framerJob n).tag reason resume x.group (lostIndex (some x))) u
  | none => post (.framer n) (.lockLost n (u.framerJob n).tag reason resume u.freeWord (lostIndex none)) u.freeUsed

theorem loseLock_eq (reason : LostReason) (resume : Word) : loseLock n reason resume s =
    lockLostPosted n reason resume (recomputeConsumed n (s.modFramer n (lostLock reason resume))) :=
  congrArg (fun w => lockLostPosted n reason resume (recomputeConsumed n w)) (loseLock_framer reason resume)

theorem lockLostPosted_some {u : State} {x : FrameName} (reason : LostReason) (resume : Word) (h : u.framers[n].lastAccepted = some x)
    (hr : u.re.hasRoom = true) : lockLostPosted n reason resume u = { u with re := { u.re with backlog := u.re.backlog ++
      [.lockLost n (u.framerJob n).tag reason resume x.group (lostIndex (some x))] } } := by
  unfold lockLostPosted
  rw [h]
  exact if_pos hr

theorem lockLostPosted_none {u : State} (reason : LostReason) (resume : Word) (h : u.framers[n].lastAccepted = none)
    (hr : u.re.hasRoom = true) : lockLostPosted n reason resume u = { u with
      re := { u.re with backlog := u.re.backlog ++ [.lockLost n (u.framerJob n).tag reason resume u.freeWord (lostIndex none)] }
      freeCount := u.freeCount + 1 } := by
  unfold lockLostPosted
  rw [h]
  exact if_pos hr

/-- Lock lost, with room for the report. -/
theorem loseLock_settles (reason : LostReason) (resume : Word) (hl : s.wd.layout = some l)
    (hp : s.framers[n].phase = .taking) (hw : s.waiting (.framer n) = false) (hv : s.framers[n].pastLast = false)
    (hr : s.re.hasRoom = true) :
    ∃ g, framerSettle n (loseLock n reason resume s) = recomputeConsumed n { s with
        freeCount := if s.framers[n].lastAccepted = none then s.freeCount + 1 else s.freeCount
        re := { s.re with backlog := s.re.backlog ++
          [.lockLost n (s.framerJob n).tag reason resume g (lostIndex s.framers[n].lastAccepted)] }
        framers := s.framers.set n (lostLock reason resume s.framers[n]) }
      ∧ ∀ x, s.framers[n].lastAccepted = some x → g = x.group := by
  let v := s.modFramer n (lostLock reason resume)
  have hself : v.framers[n] = lostLock reason resume s.framers[n] := modFramer_self _
  obtain ⟨c, hc⟩ := recomputeConsumed_framer (s := v) (n := n)
  have hre : (recomputeConsumed n v).re = s.re := recomputeConsumed_re
  have hfree : (recomputeConsumed n v).freeCount = s.freeCount := recomputeConsumed_freeCount
  have hjt : (recomputeConsumed n v).jt = s.jt := recomputeConsumed_jt
  have hlast : (recomputeConsumed n v).framers[n].lastAccepted = s.framers[n].lastAccepted := by
    rw [hc, hself]
    exact lostLock_lastAccepted reason resume _
  have hjob : (recomputeConsumed n v).framerJob n = s.framerJob n := by
    unfold State.framerJob
    rw [hc, hself, hjt]
    simp only [lostLock_slot]
  have hroom : (recomputeConsumed n v).re.hasRoom = true := by rw [hre]; exact hr
  have hsettle (re : RequestEngine) (c : Nat) (hre : re.waiters = s.re.waiters) := framerSettle_after (v := v) re c hl
    (by rw [hself, lostLock_phase]; exact hp) (show _ = false by rw [State.waiting, hre]; exact hw)
    (by rw [hself, lostLock_pastLast]; exact hv)
  rw [loseLock_eq]
  cases hla : s.framers[n].lastAccepted with
  | some x =>
    refine ⟨x.group, ?_, fun y hy => by cases hy; rfl⟩
    have h := hsettle { s.re with backlog := s.re.backlog ++
      [.lockLost n (s.framerJob n).tag reason resume x.group (lostIndex (some x))] } s.freeCount rfl
    have hposted := lockLostPosted_some reason resume (hlast.trans hla) hroom
    rw [hre, hjob] at hposted
    refine (congrArg (framerSettle n) hposted).trans (Eq.trans ?_ (h.trans rfl))
    rw [← hfree]
  | none =>
    refine ⟨(recomputeConsumed n v).freeWord, ?_, nofun⟩
    have h := hsettle { s.re with backlog := s.re.backlog ++
      [.lockLost n (s.framerJob n).tag reason resume (recomputeConsumed n v).freeWord (lostIndex none)] } (s.freeCount + 1) rfl
    have hposted := lockLostPosted_none reason resume (hlast.trans hla) hroom
    rw [hre, hjob, hfree] at hposted
    exact (congrArg (framerSettle n) hposted).trans (h.trans rfl)

end Lose

/-! ## LANE_RESYNC (R111) -/

theorem exists_and_of_exists {α : Type} {p q : α → Prop} {c : Prop} (hc : c) (h : ∃ x, p x ∧ q x) : ∃ x, p x ∧ q x ∧ c := by
  obtain ⟨x, hp, hq⟩ := h
  exact ⟨x, hp, hq, hc⟩

theorem answered_hasRoom {s : State} (code : Code) (r : List Byte) (h : roomFor s 1) : (answered code r s).re.hasRoom = true := by
  obtain ⟨hw, hb⟩ := h
  simpa [RequestEngine.hasRoom, RequestEngine.used, answered, hw] using hb

theorem resyncFramer_idle {s : State} {n : LaneId} (h : s.framers[n].phase ≠ .taking) : resyncFramer n s = s := if_neg h

theorem resyncFramer_locked {s : State} {n : LaneId} (h : s.framers[n].phase = .taking) (hs : s.framers[n].sync = .locked) :
    resyncFramer n s = framerSettle n (loseLock n .resync s.framers[n].scan s) := by
  unfold resyncFramer
  rw [if_pos h, if_pos hs]

/-- A Framer that is back in SEARCH at its scan mark without having lost lock. -/
def resynced (f : Framer) : Framer :=
  { unchecked f with
    sync := .search, missCount := 0, firstMissed := none, failures := 0, frame := none, assembler := keptSegment f.assembler }

theorem resyncFramer_searching {s : State} {n : LaneId} (h : s.framers[n].phase = .taking) (hs : s.framers[n].sync ≠ .locked) :
    resyncFramer n s = framerSettle n (s.modFramer n resynced) := by
  have hmod : (settleUnchecked n s).modFramer n (fun f => { f with
      sync := .search, missCount := 0, firstMissed := none, failures := 0, frame := none,
      assembler := match f.assembler with | .hold a => .hold a | _ => .waitStart }) = s.modFramer n resynced := by
    rw [settleUnchecked_eq, modFramer_modFramer]
    refine modFramer_congr ?_
    rw [unchecked_assembler]
    rfl
  unfold resyncFramer
  rw [if_pos h, if_neg hs]
  exact congrArg (framerSettle n) hmod

/-- Settles O34. -/
theorem laneResynced : Obligations.LaneResynced := by
  intro s r n h hn hw a f searching
  obtain ⟨hn, hlt⟩ := hn
  have hlane : laneOf (argByte r 4) = n := by rw [hn]; exact laneOf_val n
  have hp : s.preCheck .laneResync r = true := by
    simp [State.preCheck, RequestKind.namesLane, RequestKind.namesTag, recordLane, hn, hlt]
  have ho : s.ownerReady .laneResync r = true := by simp [State.ownerReady, hlane, hw]
  have hx := request_accepted (c := .laneResync) (u := s) (f := resyncFramer n) (by decide) rfl rfl h hp ho
    (show Except.ok _ = _ by rw [hlane])
  have hsearching : resynced f = searching := by
    unfold resynced
    rw [unchecked_eq]
    cases hf : f.assembler <;> simp only [searching, hf] <;> rfl
  refine ⟨fun hf => ?_, fun l hf hl hv hs => ?_, fun l hf hl hv hs hroom => ?_⟩
  · rwa [resyncFramer_idle (s := answered .done r s) hf] at hx
  · rw [resyncFramer_searching (s := answered .done r s) hf hs] at hx
    have hmod : (answered .done r s).modFramer n resynced = { a with framers := a.framers.set n searching } :=
      congrArg (fun g => ({ a with framers := a.framers.set n g } : State)) hsearching
    rw [hmod] at hx
    exact next_settles hx hl hw hf hv rfl
  · rw [resyncFramer_locked (s := answered .done r s) hf hs] at hx
    obtain ⟨g, hg, hgroup⟩ := loseLock_settles (s := answered .done r s) (n := n) .resync f.scan hl hf hw hv
      (answered_hasRoom .done r hroom)
    rw [show (answered .done r s).framers[n].scan = f.scan from rfl, hg] at hx
    have hlost : lostLock .resync f.scan f = { searching with
        expected := none, locksLost := if f.locksLost = 0xFFFFFFFF then 0xFFFFFFFF else f.locksLost + 1 } := by
      rw [← hsearching]
      unfold lostLock resynced
      rw [unchecked_eq]
      rfl
    have htag : ((answered .done r s).framerJob n).tag = match f.slot with | none => 0 | some k => s.jt.jobs[k].record.tag := by
      unfold State.framerJob
      rw [show (answered .done r s).framers[n].slot = f.slot from rfl]
      cases f.slot <;> rfl
    have hindex : lostIndex f.lastAccepted = match f.lastAccepted with | none => 0xFF | some x => BitVec.ofNat 8 x.index.val := by
      cases f.lastAccepted <;> rfl
    rw [htag, show lostIndex (answered .done r s).framers[n].lastAccepted = _ from hindex,
      show lostLock .resync f.scan (answered .done r s).framers[n] = _ from hlost] at hx
    refine exists_comm.mp ⟨g, exists_and_of_exists hgroup ?_⟩
    exact next_moves hx hl (by rw [show searching.phase = f.phase from rfl, hf]; decide) rfl

end Sys2Proof.Proofs.Framers
end

section
/-! PROOFS. JOB_END (R42, R116, R127): the Framer stops, and the job's end evaluation is due once nothing of it is left. -/
namespace Sys2Proof.Proofs.Framers
open Sys2Proof Sys2Proof.Machine Sys2Proof.Safety Sys2Proof.Laws
open Sys2Proof.Proofs.Requests

/-! ## The job that a tag names -/

section Tag
variable {s : State} {k : SlotId} {tag : Nat}

theorem jobByTag_some {job : JobRecord} (h : s.jobByTag tag = some (k, job)) :
    s.jt.jobs[k].live = true ∧ s.jt.jobs[k].record.tag.toNat = tag ∧ job = s.jt.jobs[k].record := by
  unfold State.jobByTag at h
  split at h
  · cases h
  · next j rest hj =>
    cases h
    have hmem : k ∈ finFilter 8 fun k => s.jt.jobs[k].live && decide (s.jt.jobs[k].record.tag.toNat = tag) := by
      rw [hj]; exact List.mem_cons_self
    simpa [finFilter] using hmem

theorem jobByTag_liveOnly (h : liveOnly s k tag) : s.jobByTag tag = some (k, s.jt.jobs[k].record) := by
  obtain ⟨hl, ht, honly⟩ := h
  have hsome := jobByTag_isSome hl ht
  obtain ⟨⟨j, job⟩, hj⟩ := Option.isSome_iff_exists.mp hsome
  obtain ⟨hjl, hjt, rfl⟩ := jobByTag_some hj
  rw [hj, honly j hjl hjt]

end Tag

/-! ## Stopping a Framer (R116) -/

/-- A Framer that is STOPPED with its scan mark at the arrived mark. -/
def stoppedFramer (arrived : Word) (f : Framer) : Framer :=
  { unchecked f with phase := .stopped, assembler := .waitStart, frame := none, scan := arrived }

theorem stopFramer_taking {s : State} {n : LaneId} (h : s.framers[n].phase = .taking) :
    stopFramer n s = recomputeConsumed n { s with
      framers := s.framers.set n (stoppedFramer s.wd.ringAperture[n].expected s.framers[n])
      de := { s.de with holding := s.de.holding.filter fun m => decide (m ≠ n) } } := by
  unfold stopFramer
  rw [if_pos h, settleUnchecked_eq]
  refine congrArg (recomputeConsumed n) ?_
  have hset : (s.modFramer n unchecked).framers[n] = unchecked s.framers[n] := modFramer_self _
  unfold leaveHolding State.modFramer
  simp only [Vector.set_set, Vector.getElem_set_self, Fin.getElem_fin]
  rfl

theorem modJob_live {s : State} {k : SlotId} {f : JobRecord → JobRecord} (h : s.jt.jobs[k].live = true) :
    s.modJob k f = { s with jt := { s.jt with jobs := s.jt.jobs.set k { live := true, record := f s.jt.jobs[k].record } } } :=
  congrArg (fun b => ({ s with jt := { s.jt with
    jobs := s.jt.jobs.set k { live := b, record := f s.jt.jobs[k].record } } } : State)) h

/-- An ACTIVE job that meets its end condition enters ENDING. -/
theorem takeEndCondition {s : State} {k : SlotId} (hl : s.jt.jobs[k].live = true) (ha : s.jt.jobs[k].record.state = .active) :
    takeJobSignal (.endCondition k) s = ({ s with
      jt := { s.jt with jobs := s.jt.jobs.set k { live := true, record := { s.jt.jobs[k].record with state := .ending } } }
      de := { s.de with due := evaluationDue s.de k } }, []) := by
  have htake : takeJobSignal (.endCondition k) s = (dueCheck k (s.modJob k fun r => { r with state := .ending }), []) :=
    if_pos ⟨hl, ha⟩
  rw [htake, modJob_live hl, dueCheck_eq]
  have hset : (s.jt.jobs.set k { live := true, record := { s.jt.jobs[k].record with state := .ending } })[k] =
      { live := true, record := { s.jt.jobs[k].record with state := .ending } } := Vector.getElem_set_self k.isLt
  dsimp only
  rw [hset, if_pos ⟨rfl, rfl⟩]

/-- The marks look neither at the jobs nor at the due list. -/
theorem recomputeConsumed_due (s : State) (n : LaneId) (jt : JobTable) (due : List SlotId) :
    { recomputeConsumed n s with jt := jt, de := { s.de with due := due } } =
      recomputeConsumed n { s with jt := jt, de := { s.de with due := due } } := by
  have h := recomputeConsumed_aside (s := s) (n := n) s.re s.freeCount jt due
  refine Eq.trans ?_ h.symm
  have h1 := recomputeConsumed_re (s := s) (n := n)
  have h2 := recomputeConsumed_freeCount (s := s) (n := n)
  generalize recomputeConsumed n s = x at *
  rw [← h1, ← h2]

/-- Settles O32. -/
theorem jobEndEnters : Obligations.JobEndEnters := by
  intro s r h hfree
  refine ⟨fun hnone => ?_, ?_⟩
  · cases htag : s.jobByTag (recordTag r) with
    | none =>
      exact request_refused (c := .jobEnd) (u := s) rfl rfl h rfl (by simp [State.ownerReady, State.jobFramerWaits, htag, hfree.1])
        (by simp [State.decision, jobEndDecision, htag])
    | some x =>
      obtain ⟨k, job⟩ := x
      obtain ⟨hl, ht, rfl⟩ := jobByTag_some htag
      have hkind := hnone k hl ht
      exact request_refused (c := .jobEnd) (u := s) rfl rfl h rfl
        (by simp only [State.ownerReady, State.jobFramerWaits, htag, hfree.1, hkind]; rfl)
        (by simp only [State.decision, jobEndDecision, htag, hkind, if_true])
  intro k hk hkind a job n e hw
  have htag := jobByTag_liveOnly hk
  have ho : s.ownerReady .jobEnd r = true := by
    have hw' : s.waiting (.framer s.jt.jobs[k].record.lane) = false := hw
    simp only [State.ownerReady, State.jobFramerWaits, htag, hfree.1, hw', Bool.and_false, Bool.not_false, Bool.and_true]
  refine ⟨fun hend => ?_, fun l hact hp hl => ?_⟩
  · have hstate : s.jt.jobs[k].record.state = .ending := hend
    have hd : s.decision .jobEnd r = .ok id := by
      simp only [State.decision, jobEndDecision, htag, if_neg hkind, hstate]
      rfl
    exact request_accepted (c := .jobEnd) (u := s) (by decide) rfl rfl h rfl ho hd
  · have hstate : s.jt.jobs[k].record.state = .active := hact
    have hd : s.decision .jobEnd r = .ok fun s => jobSignals [.endCondition k] (stopFramer n s) := by
      simp only [State.decision, jobEndDecision, htag, if_neg hkind, hstate]
      rfl
    have hx := request_accepted (c := .jobEnd) (u := s) (by decide) rfl rfl h rfl ho hd
    rw [stopFramer_taking (s := answered .done r s) hp] at hx
    generalize hv : ({ answered .done r s with framers := _, de := _ } : State) = v at hx
    have hvjt : v.jt = s.jt := by rw [← hv]; rfl
    have hvre : v.re = (answered .done r s).re := by rw [← hv]
    have hjt : (recomputeConsumed n v).jt = s.jt := recomputeConsumed_jt.trans hvjt
    have hde : (recomputeConsumed n v).de = v.de := recomputeConsumed_de
    have hre : (recomputeConsumed n v).re = (answered .done r s).re := recomputeConsumed_re.trans hvre
    have htake := takeEndCondition (s := recomputeConsumed n v) (k := k) (by rw [hjt]; exact hk.1) (by rw [hjt]; exact hact)
    rw [hjt, hde, recomputeConsumed_due] at htake
    have hsignal := jobSignals_one (.endCondition k) (recomputeConsumed n v)
      ⟨by rw [State.waiting, hre]; exact hfree.1, by rw [hjt]; exact hfree.2⟩ _ htake
      ((congrArg JobTable.held recomputeConsumed_jt).trans hfree.2)
    rw [hsignal] at hx
    subst hv
    exact next_moves hx hl (show Phase.stopped ≠ .unbound by decide) (unchecked_consumed _)

end Sys2Proof.Proofs.Framers
end

section
/-! PROOFS. Sightings (R98, R126): the first live record at a segment's tape position, and what a SIGHTING does. -/
namespace Sys2Proof.Proofs.Sightings
open Sys2Proof Sys2Proof.Machine Sys2Proof.Safety Sys2Proof.Laws Sys2Proof.Proofs.Catalog

/-- A word of a record, compared as a number. -/
theorem leWord_eq_iff (bs : List Byte) (i : Nat) (w : Word) : leWord ((bs.drop i).take 4) = w ↔ fieldNat bs i 4 = w.toNat := by
  have h : fieldNat bs i 4 < 4294967296 := ReturnPath.fieldNat_lt bs i 4
  unfold leWord
  change BitVec.ofNat 32 (fieldNat bs i 4) = w ↔ _
  constructor
  · rintro rfl
    rw [BitVec.toNat_ofNat, Nat.mod_eq_of_lt h]
  · intro e
    rw [e, BitVec.ofNat_toNat, BitVec.setWidth_eq]

theorem sightingFinds_iff (label : Option Label) (frame : FrameName) (offset : Nat) (r : List Byte) :
    sightingFinds label frame offset r = true ↔ sightedBy label frame offset r := by
  cases label with
  | none => simp [sightingFinds, sightedBy]
  | some x =>
    simp only [sightingFinds, sightedBy, decide_eq_true_eq, recLabel, recStartGroup, recStartFrame, recStartOffset, recState,
      leWord_eq_iff, Option.some.injEq, exists_eq_left']

/-- The first live record that a test names, in ring order from Cc. -/
theorem live_find {s : State} {p : Word → Bool} {i : Nat} (hi : i < (s.sc.producer - s.sc.consumer).toNat)
    (hp : p (s.sc.consumer + BitVec.ofNat 32 i) = true)
    (hfirst : ∀ j < i, p (s.sc.consumer + BitVec.ofNat 32 j) = false) :
    s.sc.live.find? p = some (s.sc.consumer + BitVec.ofNat 32 i) := by
  unfold Catalog.live ahead
  rw [List.find?_map, Option.map_eq_some_iff]
  refine ⟨i, List.find?_range_eq_some.mpr ⟨hp, List.mem_range.mpr hi, fun j hj => ?_⟩, rfl⟩
  simp [hfirst j hj]

theorem cartLabel_eq {s : State} {c : CartId} {x : CartRecord} (h : s.cd.records[c] = some x) : s.cartLabel c = x.label := by
  simp only [State.cartLabel, h, Option.bind_some]

/-- No live record lies at the position. -/
theorem catalogSighting_notFound {s : State} {l : Layout} {label : Option Label} {frame : FrameName} {offset : Nat}
    (good : Bool) (check : Word) (hl : s.wd.layout = some l)
    (h : ∀ q ∈ s.sc.live, ¬ sightedBy label frame offset (recordAt s l q)) :
    catalogSighting label frame offset good check s = (s, .notFound) := by
  have hnone : (s.sc.live.find? fun c => sightingFinds label frame offset (memBytes s.mem (recordAddress l c) 32)) = none :=
    List.find?_eq_none.mpr fun q hq e => h q hq ((sightingFinds_iff ..).mp e)
  unfold catalogSighting
  simp only [hl, hnone]

/-- The first live record at the position is settled by the two checks. -/
theorem catalogSighting_found {s : State} {l : Layout} {label : Option Label} {frame : FrameName} {offset i : Nat}
    (good : Bool) (check : Word) (hl : s.wd.layout = some l) (hi : i < (s.sc.producer - s.sc.consumer).toNat)
    (hp : sightedBy label frame offset (recordAt s l (s.sc.consumer + BitVec.ofNat 32 i)))
    (hfirst : ∀ j < i, ¬ sightedBy label frame offset (recordAt s l (s.sc.consumer + BitVec.ofNat 32 j))) :
    let q := s.sc.consumer + BitVec.ofNat 32 i
    catalogSighting label frame offset good check s
      = if good = true ∧ check.toNat = fieldNat (recordAt s l q) 28 4 then
          ({ s with mem := writeRecordState s.mem l q .verified }, .matchedGood)
        else ({ s with mem := writeRecordState s.mem l q .verifyFailed }, .matchedBad) := by
  intro q
  have hfind : (s.sc.live.find? fun c => sightingFinds label frame offset (memBytes s.mem (recordAddress l c) 32)) = some q :=
    live_find hi ((sightingFinds_iff ..).mpr hp) fun j hj => Bool.eq_false_iff.mpr fun e =>
      hfirst j hj ((sightingFinds_iff ..).mp e)
  have hcheck : check = recRawCheck (recordAt s l q) ↔ check.toNat = fieldNat (recordAt s l q) 28 4 := by
    rw [eq_comm, recRawCheck, leWord_eq_iff, eq_comm]
  unfold catalogSighting
  simp only [hl, hfind, Bool.and_eq_true, decide_eq_true_eq]
  change (if good = true ∧ check = recRawCheck (recordAt s l q) then _ else _) = _
  simp only [hcheck]

/-- A settled VERIFY decode: its sighting raises a counter, and the decode ends. -/
theorem sighting_of {s : State} {d : Decode} {r : DecodeResult} {m : List Host.Cell} {f : SightingResult}
    (ho : s.de.operation = some (.decode d)) (hr : d.result = some r) (hk : d.entry.kind = .verify) (hsc : s.sc.operation = none)
    (h : catalogSighting (s.cartLabel s.jt.jobs[d.entry.slot].record.cart) d.entry.frame d.entry.offset (decide (r = .good))
      (~~~ d.check) s = ({ s with mem := m }, f)) :
    sighting s = { s with
      mem := m
      de := decodeEnded s d.entry.slot
      jt := { s.jt with jobs := s.jt.jobs.set d.entry.slot { s.jt.jobs[d.entry.slot] with
        record := { s.jt.jobs[d.entry.slot].record with
          counters := s.jt.jobs[d.entry.slot].record.counters.sighted f } } } } := by
  have e : sighting s = finishDecode d.entry.slot
      (({ s with mem := m } : State).modCounters d.entry.slot fun c => c.sighted f) := by
    unfold sighting
    simp only [ho, hr, hk, hsc, and_self, if_true]
    rw [h]
  rw [e, finishDecode_eq]
  simp [State.modCounters, State.modJob, decodeEnded, evaluationDue]

/-- Settles O47. -/
theorem sightingSettles : Obligations.SightingSettles := by
  intro s d r l c hs ho hr hk hsc hl hc e finds counters settled
  have hlabel := cartLabel_eq hc
  refine ⟨fun hnone => ?_, fun i hi hp hfirst => ?_⟩
  · refine runStep_next s _ sighting hs ?_
    rw [sighting_of (m := s.mem) ho hr hk hsc (by rw [hlabel]; exact catalogSighting_notFound _ _ hl hnone)]
    simp only [Counters.sighted, satInc_eq, settled, counters, e]
  · intro q good
    have hfound := catalogSighting_found (decide (r = .good)) (~~~ d.check) hl hi hp hfirst
    simp only [decide_eq_true_eq] at hfound
    by_cases hg : good
    · rw [if_pos (by exact hg)] at hfound
      obtain ⟨b, hb⟩ := runStep_next s _ sighting hs (sighting_of ho hr hk hsc (by rw [hlabel]; exact hfound))
      refine ⟨_, hb, ?_, ?_⟩
      · rw [if_pos hg]; exact memWrite_written _ _ _
      · simp only [if_pos hg, Counters.sighted, satInc_eq]; rfl
    · rw [if_neg (by exact hg)] at hfound
      obtain ⟨b, hb⟩ := runStep_next s _ sighting hs (sighting_of ho hr hk hsc (by rw [hlabel]; exact hfound))
      refine ⟨_, hb, ?_, ?_⟩
      · rw [if_neg hg]; exact memWrite_written _ _ _
      · simp only [if_neg hg, Counters.sighted, satInc_eq]; rfl

end Sys2Proof.Proofs.Sightings
end

section
/-! PROOFS. How jobs end (R46): the signals that the Job Table takes, and the slot, lane and bindings that an ending releases. -/
namespace Sys2Proof.Proofs.JobEnds
open Sys2Proof Sys2Proof.Machine Sys2Proof.Safety Sys2Proof.Laws

/-! ## Signals -/

/-- The state with signals held by the Job Table. -/
def withHeld (xs : List JobSignal) (s : State) : State := { s with jt := { s.jt with held := xs } }

theorem withHeld_none {s : State} (h : s.jt.held = []) : withHeld [] s = s := held_none h

/-- A Job Table that does not wait takes the oldest held signal, and what it leads to comes before the others. -/
theorem takeJobSignals_cons {s u : State} {x : JobSignal} {rest ys zs : List JobSignal} (m : Nat)
    (hw : s.waiting .jobTable = false) (hx : takeJobSignal x (withHeld rest s) = (withHeld zs u, ys)) :
    takeJobSignals (m + 1) (withHeld (x :: rest) s) = takeJobSignals m (withHeld (ys ++ zs) u) := by
  have h : takeJobSignals (m + 1) (withHeld (x :: rest) s) =
      takeJobSignals m (withHeld ((takeJobSignal x (withHeld rest s)).2 ++ (takeJobSignal x (withHeld rest s)).1.jt.held)
        (takeJobSignal x (withHeld rest s)).1) := by
    conv_lhs => unfold takeJobSignals
    rw [show (withHeld (x :: rest) s).waiting .jobTable = false from hw]
    rfl
  rw [h, hx]
  rfl

/-- A signal that leads to one other, which leads to none. -/
theorem jobSignals_two {s u v : State} (x y : JobSignal) (hs : jobTableFree s) (hx : takeJobSignal x s = (u, [y]))
    (hu : jobTableFree u) (hy : takeJobSignal y u = (v, [])) (hv : v.jt.held = []) : jobSignals [x] s = v := by
  obtain ⟨hw, hh⟩ := hs
  have h1 : jobSignals [x] s = takeJobSignals (18 + 1 + 1) (withHeld [x] s) := by
    unfold jobSignals
    simp only [hh, List.nil_append, State.jobFuel, List.length_singleton, Nat.mul_one]
    rfl
  rw [h1, takeJobSignals_cons (u := u) (zs := []) _ hw (by rw [withHeld_none hh, withHeld_none hu.2, hx]),
    List.append_nil, takeJobSignals_cons (u := v) (ys := []) (zs := []) _ hu.1 (by rw [withHeld_none hu.2, withHeld_none hv, hy]),
    List.append_nil, withHeld_none hv, takeJobSignals_none _ _ hv]

/-! ## Lanes and Framers that a job leaves -/

/-- A lane that leaves the catalog's wait list and gives up its claim changes these alone. -/
theorem leaveCatalog_eq (n : LaneId) (s : State) : ∃ w c, n ∉ w ∧
    leaveCatalog n s = { s with sc := { s.sc with waitList := w, claims := c } } := by
  have hmem : n ∉ s.sc.waitList.filter fun m => decide (m ≠ n) := by simp
  unfold leaveCatalog endClaim
  dsimp only
  split
  · exact ⟨_, _, fun h => hmem (List.mem_of_mem_drop h), rfl⟩
  · exact ⟨_, _, hmem, rfl⟩

/-- A lane that has become IDLE. -/
def idleLane (l : Lane) : Lane :=
  { l with role := .idle, full := false, closePending := none, lastRelease := none, interval := none }

theorem laneIdle_eq (n : LaneId) (s : State) : ∃ w c, n ∉ w ∧
    laneIdle n s = { s with
      lanes := s.lanes.set n (idleLane s.lanes[n]), sc := { s.sc with waitList := w, claims := c } } :=
  leaveCatalog_eq n (s.modLane n idleLane)

/-- A Framer that is bound to no job. -/
def unboundFramer (f : Framer) : Framer :=
  { locksLost := f.locksLost, groupsChecked := f.groupsChecked, groupsUnchecked := f.groupsUnchecked
    segmentFaults := f.segmentFaults }

/-- A decode of the lane in flight signals the Framer no more. -/
def unlinked (n : LaneId) : Option DecodeOperation → Option DecodeOperation
  | some (.decode d) => if d.entry.lane = n then some (.decode { d with linked := false }) else some (.decode d)
  | o => o

theorem unbindFramer_eq (n : LaneId) (s : State) : unbindFramer n s = { s with
    framers := s.framers.set n (unboundFramer s.framers[n])
    wd := { s.wd with ringAperture := s.wd.ringAperture.set n {} }
    de := { s.de with holding := s.de.holding.filter fun m => decide (m ≠ n), operation := unlinked n s.de.operation } } := by
  unfold unbindFramer leaveHolding State.modFramer State.setRingAperture
  dsimp only
  split
  next d ho =>
    rw [ho]
    unfold unlinked
    dsimp only
    split
    next => rfl
    next => rw [← ho]; rfl
  next hn =>
    have hu : unlinked n s.de.operation = s.de.operation := by
      unfold unlinked
      split
      next d ho => exact absurd ho (hn d)
      next => rfl
    rw [hu]
    rfl

/-! ## Ends of reading jobs -/

/-- The slot of a VERIFY or RESTORE job becomes free: its lane is IDLE and its Framer UNBOUND. -/
theorem freeSlot_reading {s : State} {k : SlotId} {n : LaneId} (hk : s.jt.jobs[k].record.kind ≠ .write)
    (hn : s.jt.jobs[k].record.lane = n) (hw : s.waiting (.framer n) = false) : ∃ w c, n ∉ w ∧ freeSlot k s = { s with
      jt := { s.jt with jobs := s.jt.jobs.set k { live := false, record := { s.jt.jobs[k].record with state := .free } } }
      lanes := s.lanes.set n (idleLane s.lanes[n])
      sc := { s.sc with waitList := w, claims := c }
      framers := s.framers.set n (unboundFramer s.framers[n])
      wd := { s.wd with ringAperture := s.wd.ringAperture.set n {} }
      de := { s.de with
        holding := s.de.holding.filter fun m => decide (m ≠ n), operation := unlinked n s.de.operation } } := by
  subst hn
  have hfree : freeSlot k s = signalUnbind s.jt.jobs[k].record.lane (laneIdle s.jt.jobs[k].record.lane { s with
      jt.jobs := s.jt.jobs.set k { live := false, record := { s.jt.jobs[k].record with state := .free } } }) := by
    unfold freeSlot
    dsimp only
    cases hkind : s.jt.jobs[k].record.kind with
    | write => exact absurd hkind hk
    | verify => rfl
    | restore => rfl
  obtain ⟨w, c, hm, he⟩ := laneIdle_eq s.jt.jobs[k].record.lane { s with
    jt.jobs := s.jt.jobs.set k { live := false, record := { s.jt.jobs[k].record with state := .free } } }
  refine ⟨w, c, hm, ?_⟩
  rw [hfree, he, signalUnbind, if_neg (by simp [State.waiting] at hw ⊢; exact hw), unbindFramer_eq]

/-- With room in the backlog a job that ends posts its JOB_DONE, and its slot is freed at once. -/
theorem endJob_joins {s : State} (k : SlotId) (outcome : JobOutcome) (h : s.re.hasRoom = true) :
    endJob k outcome s = freeSlot k { s with
      re := { s.re with backlog := s.re.backlog ++ [.jobDone k s.jt.jobs[k].record outcome] } } := by
  unfold endJob post
  simp only [h, if_true]

theorem takeEnding {s : State} {k : SlotId} (outcome : JobOutcome) (hl : s.jt.jobs[k].live = true) :
    takeJobSignal (.ending k outcome) s = (endJob k outcome s, []) := by
  unfold takeJobSignal
  simp only [hl, if_true]

/-- The VERIFY or RESTORE job of slot `k` on lane `n` has ended. -/
def readingEnded (s : State) (k : SlotId) (n : LaneId) (outcome : JobOutcome) (w c : List LaneId) : State := { s with
  re := { s.re with backlog := s.re.backlog ++ [.jobDone k s.jt.jobs[k].record outcome] }
  jt := { s.jt with jobs := s.jt.jobs.set k { live := false, record := { s.jt.jobs[k].record with state := .free } } }
  lanes := s.lanes.set n (idleLane s.lanes[n])
  sc := { s.sc with waitList := w, claims := c }
  framers := s.framers.set n (unboundFramer s.framers[n])
  wd := { s.wd with ringAperture := s.wd.ringAperture.set n {} }
  de := { s.de with
    holding := s.de.holding.filter fun m => decide (m ≠ n), operation := unlinked n s.de.operation } }

theorem takeEnding_reading {s : State} {k : SlotId} {n : LaneId} (outcome : JobOutcome) (hl : s.jt.jobs[k].live = true)
    (hk : s.jt.jobs[k].record.kind ≠ .write) (hn : s.jt.jobs[k].record.lane = n) (hw : s.waiting (.framer n) = false)
    (hr : s.re.hasRoom = true) :
    ∃ w c, n ∉ w ∧ takeJobSignal (.ending k outcome) s = (readingEnded s k n outcome w c, []) := by
  obtain ⟨w, c, hm, he⟩ := freeSlot_reading (s := { s with
      re := { s.re with backlog := s.re.backlog ++ [.jobDone k s.jt.jobs[k].record outcome] } }) hk hn hw
  exact ⟨w, c, hm, by rw [takeEnding outcome hl, endJob_joins k outcome hr, he]; rfl⟩

/-- A VERIFY or RESTORE job ends at once. -/
theorem jobSignals_endReading {s : State} {k : SlotId} {n : LaneId} (outcome : JobOutcome) (hs : jobTableFree s)
    (hl : s.jt.jobs[k].live = true) (hk : s.jt.jobs[k].record.kind ≠ .write) (hn : s.jt.jobs[k].record.lane = n)
    (hw : s.waiting (.framer n) = false) (hr : s.re.hasRoom = true) :
    ∃ w c, n ∉ w ∧ jobSignals [.ending k outcome] s = readingEnded s k n outcome w c := by
  obtain ⟨w, c, hm, he⟩ := takeEnding_reading outcome hl hk hn hw hr
  exact ⟨w, c, hm, jobSignals_one _ _ hs _ he hs.2⟩

/-- An end evaluation that is done ends its job COMPLETE; a request in hand may have met it (R127). -/
theorem evaluationDone_ends {s : State} {k : SlotId} {n : LaneId} (hs : jobTableFree s)
    (hl : s.jt.jobs[k].live = true) (hk : s.jt.jobs[k].record.kind ≠ .write) (hn : s.jt.jobs[k].record.lane = n)
    (hw : s.waiting (.framer n) = false) (hr : s.re.hasRoom = true) :
    ∃ h w c, evaluationDone k s = readingEnded { s with
      re := { s.re with inHand := h }, de := { s.de with operation := none } } k n .complete w c := by
  obtain ⟨h, hh⟩ : ∃ h, meetEvaluation s.jt.jobs[k].record.lane s = { s with re := { s.re with inHand := h } } := ⟨_, rfl⟩
  obtain ⟨w, c, -, he⟩ := takeEnding_reading (s := { s with
    re := { s.re with inHand := h }, de := { s.de with operation := none } }) .complete hl hk hn hw hr
  refine ⟨h, w, c, ?_⟩
  unfold evaluationDone
  rw [hh]
  exact jobSignals_two (.evaluationDone k) (.ending k .complete) hs rfl hs he hs.2

end Sys2Proof.Proofs.JobEnds
end

section
/-! PROOFS. The restore ring (R129 to R132): entries written at the producer count, the missing entries before and behind the
segments, and the end evaluation of a RESTORE job. -/
namespace Sys2Proof.Proofs.Restore
open Sys2Proof Sys2Proof.Machine Sys2Proof.Safety Sys2Proof.Laws Sys2Proof.Proofs.JobEnds Sys2Proof.Proofs.Requests

/-! ## Writes into a byte ring -/

/-- Bytes have been written into a byte ring from a count on, and no other byte of memory changed. -/
def ringWritten (m m' : List Host.Cell) (w : Window) (p : Nat) (bs : List Byte) : Prop :=
  (∀ (i : Nat) (h : i < bs.length), memRead m' (w.base + (p + i) % w.size) = bs[i])
    ∧ ∀ a, (∀ i, i < bs.length → a ≠ w.base + (p + i) % w.size) → memRead m' a = memRead m a

/-- Two places of a ring that lie less than its size apart are two addresses. -/
theorem ringPlace_ne {w : Window} {p i j : Nat} (hij : i < j) (hj : j < i + w.size) :
    w.base + (p + i) % w.size ≠ w.base + (p + j) % w.size := by
  intro h
  have hmod : (p + i) % w.size = (p + j) % w.size := by omega
  have hd := (Nat.modEq_iff_dvd' (by omega : p + i ≤ p + j)).mp hmod
  have := Nat.le_of_dvd (by omega) hd
  omega

theorem ringWrite_written (w : Window) (bs : List Byte) (m : List Host.Cell) (x : Word) (hsize : bs.length ≤ w.size)
    (hx : x.toNat + bs.length < 4294967296) : ringWritten m (ringWrite m w x bs) w x.toNat bs := by
  induction bs generalizing m x with
  | nil => exact ⟨nofun, fun a _ => rfl⟩
  | cons b bs ih =>
    rw [List.length_cons] at hsize hx
    have hnext : (x + 1).toNat = x.toNat + 1 := by
      rw [BitVec.toNat_add]
      exact Nat.mod_eq_of_lt (by rw [show (1 : Word).toNat = 1 from rfl]; omega)
    obtain ⟨hin, hout⟩ := ih (memWrite m (ringAddress w x.toNat) [b]) (x + 1) (by omega) (by omega)
    rw [hnext] at hin hout
    refine ⟨fun i hi => ?_, fun a ha => ?_⟩
    · cases i with
      | zero =>
        refine (hout _ fun j hj => ?_).trans (memRead_memWrite_inside m _ [b] 0 Nat.one_pos)
        rw [show x.toNat + 1 + j = x.toNat + (j + 1) by omega]
        exact ringPlace_ne (by omega) (by omega)
      | succ i =>
        rw [List.length_cons] at hi
        have h := hin i (by omega)
        rwa [show x.toNat + 1 + i = x.toNat + (i + 1) by omega] at h
    · refine (hout a fun i hi => ?_).trans (memRead_memWrite_outside m _ [b] a ?_)
      · have h := ha (i + 1) (by rw [List.length_cons]; omega)
        rwa [show x.toNat + 1 + i = x.toNat + (i + 1) by omega]
      · have h := ha 0 (by rw [List.length_cons]; omega)
        simp only [ringAddress, List.length_singleton, Nat.add_zero] at h ⊢
        omega

/-- Data written behind a descriptor, and then the descriptor, are one entry. -/
theorem ringWritten_append {m m₁ m₂ : List Host.Cell} {w : Window} {p : Nat} {as bs : List Byte}
    (hb : ringWritten m m₁ w (p + as.length) bs) (ha : ringWritten m₁ m₂ w p as) (hsize : as.length + bs.length ≤ w.size) :
    ringWritten m m₂ w p (as ++ bs) := by
  obtain ⟨hbin, hbout⟩ := hb
  obtain ⟨hain, haout⟩ := ha
  refine ⟨fun i hi => ?_, fun a h => ?_⟩
  · rw [List.length_append] at hi
    by_cases hlt : i < as.length
    · rw [List.getElem_append_left hlt]
      exact hain i hlt
    · rw [List.getElem_append_right (by omega), haout _ fun j hj => (ringPlace_ne (by omega) (by omega)).symm]
      have h := hbin (i - as.length) (by omega)
      rwa [show p + as.length + (i - as.length) = p + i by omega] at h
  · rw [List.length_append] at h
    rw [haout a fun i hi => h i (by omega), hbout a fun i hi => ?_]
    have h' := h (as.length + i) (by omega)
    rwa [show p + as.length + i = p + (as.length + i) by omega]

/-! ## Entries (R129 to R131) -/

theorem descriptorBytes_length (x count raw : Nat) (status : RestoreStatus) :
    (descriptorBytes x count raw status).length = 16 :=
  padded_length (by simp [half, byte1, leBytes_length])

/-- The state once an entry of `n` bytes has been written into memory `m`. -/
def entryAt (s : State) (k : SlotId) (m : List Host.Cell) (n : Nat) : State := { s with
  mem := m
  de := { s.de with slots := s.de.slots.set k { s.de.slots[k] with
    producer := s.de.slots[k].producer + BitVec.ofNat 32 n } } }

theorem writeEntry_written {s : State} {k : SlotId} {d data : List Byte} (hd : d.length = 16)
    (hsize : 16 + data.length ≤ s.jt.jobs[k].record.ringSize.toNat)
    (hp : s.de.slots[k].producer.toNat + 16 + data.length < 4294967296) :
    ∃ m, writeEntry k d data s = entryAt s k m (16 + data.length)
      ∧ ringWritten s.mem m s.jt.jobs[k].record.ring s.de.slots[k].producer.toNat (d ++ data) := by
  have hnext : (s.de.slots[k].producer + 16).toNat = s.de.slots[k].producer.toNat + d.length := by
    rw [BitVec.toNat_add, hd]
    exact Nat.mod_eq_of_lt (by rw [show (16 : Word).toNat = 16 from rfl]; omega)
  refine ⟨_, rfl, ringWritten_append (m₁ := ringWrite s.mem s.jt.jobs[k].record.ring (s.de.slots[k].producer + 16) data) ?_
    (ringWrite_written _ _ _ _ ?_ ?_) ?_⟩
  · rw [← hnext]
    exact ringWrite_written _ _ _ _ (show data.length ≤ s.jt.jobs[k].record.ringSize.toNat by omega) (by omega)
  · rw [hd]; show 16 ≤ s.jt.jobs[k].record.ringSize.toNat; omega
  · omega
  · rw [hd]; exact hsize

theorem satAdd_eq (w : Word) (n : Nat) :
    satAdd w n = if w.toNat + n < 4294967295 then w + BitVec.ofNat 32 n else 0xFFFFFFFF := by
  unfold satAdd
  rw [BitVec.ofNat_add, BitVec.ofNat_toNat, BitVec.setWidth_eq]

/-- The state once a MISSING entry of `count` chunks has been written into memory `m`. -/
def missingAt (s : State) (k : SlotId) (m : List Host.Cell) (count : Nat) : State := { s with
  mem := m
  de := { s.de with slots := s.de.slots.set k { s.de.slots[k] with
    producer := s.de.slots[k].producer + 16, expected := s.de.slots[k].expected + count } }
  jt := { s.jt with jobs := s.jt.jobs.set k { s.jt.jobs[k] with record := { s.jt.jobs[k].record with
    counters := { s.jt.jobs[k].record.counters with missing := countedMissing s.jt.jobs[k].record count } } } } }

theorem writeMissing_written {s : State} {k : SlotId} {upTo : Nat} (hc : upTo - s.de.slots[k].expected < 4294967296)
    (hsize : 16 ≤ s.jt.jobs[k].record.ringSize.toNat) (hp : s.de.slots[k].producer.toNat + 16 < 4294967296) :
    ∃ m, writeMissing k upTo s = missingAt s k m (upTo - s.de.slots[k].expected)
      ∧ ringWritten s.mem m s.jt.jobs[k].record.ring s.de.slots[k].producer.toNat
        (descriptorBytes s.de.slots[k].expected (upTo - s.de.slots[k].expected) 0 .missing) := by
  obtain ⟨m, he, hm⟩ := writeEntry_written (s := s) (k := k) (data := [])
    (descriptorBytes_length s.de.slots[k].expected (upTo - s.de.slots[k].expected) 0 .missing) hsize hp
  rw [List.append_nil] at hm
  refine ⟨m, ?_, hm⟩
  have hmin : min (upTo - s.de.slots[k].expected) 4294967295 = upTo - s.de.slots[k].expected := by omega
  unfold writeMissing
  dsimp only
  rw [hmin, he]
  simp only [entryAt, missingAt, State.modCounters, State.modJob, State.modRestore, satAdd_eq, countedMissing, Fin.getElem_fin,
    Vector.getElem_set_self, Vector.set_set]
  rfl

/-- A FAULTED entry. -/
theorem writeOwn_faulted {s : State} {e : DecodeEntry} (hsize : 16 ≤ s.jt.jobs[e.slot].record.ringSize.toNat)
    (hp : s.de.slots[e.slot].producer.toNat + 16 < 4294967296) :
    ∃ m, writeOwn e false s = { s with
        mem := m
        de := { s.de with slots := s.de.slots.set e.slot { s.de.slots[e.slot] with
          producer := s.de.slots[e.slot].producer + 16, expected := e.header.sequence.toNat + 1 } } }
      ∧ ringWritten s.mem m s.jt.jobs[e.slot].record.ring s.de.slots[e.slot].producer.toNat
        (descriptorBytes e.header.sequence.toNat 1 0 .faulted) := by
  obtain ⟨m, he, hm⟩ := writeEntry_written (s := s) (k := e.slot) (data := [])
    (descriptorBytes_length e.header.sequence.toNat 1 0 .faulted) hsize hp
  rw [List.append_nil] at hm
  refine ⟨m, ?_, hm⟩
  unfold writeOwn
  simp only [Bool.false_eq_true, if_false]
  rw [he]
  simp only [entryAt, State.modRestore, Fin.getElem_fin, Vector.getElem_set_self, Vector.set_set]
  rfl

/-- A GOOD entry with its bytes padded to a multiple of 16. -/
theorem writeOwn_good {s : State} {e : DecodeEntry} (hb : s.de.buffer.length = e.header.rawLength)
    (hsize : 16 + (e.header.rawLength + 15) / 16 * 16 ≤ s.jt.jobs[e.slot].record.ringSize.toNat)
    (hp : s.de.slots[e.slot].producer.toNat + 16 + (e.header.rawLength + 15) / 16 * 16 < 4294967296) :
    ∃ m, writeOwn e true s = { s with
        mem := m
        de := { s.de with slots := s.de.slots.set e.slot { s.de.slots[e.slot] with
          producer := s.de.slots[e.slot].producer + BitVec.ofNat 32 (16 + (e.header.rawLength + 15) / 16 * 16)
          expected := e.header.sequence.toNat + 1 } }
        jt := { s.jt with jobs := s.jt.jobs.set e.slot { s.jt.jobs[e.slot] with record := { s.jt.jobs[e.slot].record with
          counters := { s.jt.jobs[e.slot].record.counters with
            rawBytes := s.jt.jobs[e.slot].record.counters.rawBytes + BitVec.ofNat 64 e.header.rawLength } } } } }
      ∧ ringWritten s.mem m s.jt.jobs[e.slot].record.ring s.de.slots[e.slot].producer.toNat
        (descriptorBytes e.header.sequence.toNat 1 e.header.rawLength .good ++ s.de.buffer
          ++ zeroBytes ((e.header.rawLength + 15) / 16 * 16 - e.header.rawLength)) := by
  have hlen : (padded ((e.header.rawLength + 15) / 16 * 16) s.de.buffer).length = (e.header.rawLength + 15) / 16 * 16 :=
    padded_length (by rw [hb]; omega)
  obtain ⟨m, he, hm⟩ := writeEntry_written (s := s) (k := e.slot)
    (data := padded ((e.header.rawLength + 15) / 16 * 16) s.de.buffer)
    (descriptorBytes_length e.header.sequence.toNat 1 e.header.rawLength .good) (by rw [hlen]; exact hsize) (by rw [hlen]; exact hp)
  rw [hlen] at he
  rw [padded, hb, ← List.append_assoc] at hm
  refine ⟨m, ?_, hm⟩
  unfold writeOwn
  simp only [if_true]
  rw [he]
  simp only [entryAt, State.modCounters, State.modJob, State.modRestore, Fin.getElem_fin, Vector.getElem_set_self,
    Vector.set_set]

end Sys2Proof.Proofs.Restore
end

section
/-! PROOFS. RESTORE_ENTRY_WRITE and END_EVALUATION (R127 to R132). -/
namespace Sys2Proof.Proofs.Restore
open Sys2Proof Sys2Proof.Machine Sys2Proof.Safety Sys2Proof.Laws Sys2Proof.Proofs.JobEnds

section Trailing
variable {s : State} {k : SlotId}

/-- The trailing MISSING entry waits for room. -/
theorem trailingMissing_waits {m : Nat} (hx : s.de.slots[k].expected ≤ s.jt.jobs[k].record.lastChunk.toNat)
    (hroom : s.restoreRoom k < 16) : trailingMissing k (m + 1) s = s := by
  unfold trailingMissing
  dsimp only
  rw [if_neg (by omega), if_pos hroom]

/-- The trailing MISSING entry reaches the last chunk, and the evaluation is done. -/
theorem trailingMissing_writes {m : Nat} (hx : s.de.slots[k].expected ≤ s.jt.jobs[k].record.lastChunk.toNat)
    (hroom : 16 ≤ s.restoreRoom k) (hc : s.jt.jobs[k].record.lastChunk.toNat + 1 - s.de.slots[k].expected < 4294967296)
    (hp : s.de.slots[k].producer.toNat + 16 < 4294967296) :
    ∃ mem, trailingMissing k (m + 1) s
        = evaluationDone k (missingAt s k mem (s.jt.jobs[k].record.lastChunk.toNat + 1 - s.de.slots[k].expected))
      ∧ ringWritten s.mem mem s.jt.jobs[k].record.ring s.de.slots[k].producer.toNat
        (descriptorBytes s.de.slots[k].expected (s.jt.jobs[k].record.lastChunk.toNat + 1 - s.de.slots[k].expected) 0 .missing) := by
  have hsize : 16 ≤ s.jt.jobs[k].record.ringSize.toNat := hroom.trans (Nat.sub_le _ _)
  obtain ⟨mem, he, hm⟩ := writeMissing_written (upTo := s.jt.jobs[k].record.lastChunk.toNat + 1) hc hsize hp
  refine ⟨mem, ?_, hm⟩
  have hexp : ∀ c, (missingAt s k mem c).de.slots[k].expected = s.de.slots[k].expected + c := fun c => by
    simp only [missingAt, Fin.getElem_fin, Vector.getElem_set_self]
  unfold trailingMissing
  dsimp only
  rw [if_neg (by omega), if_neg (by omega), he, if_pos (by rw [hexp]; omega)]

/-- A RESTORE job whose end evaluation is done, with the trailing MISSING entry written, has ended. -/
theorem evaluationDone_missing {mem : List Host.Cell} {count : Nat} (hs : jobTableFree s) (hl : s.jt.jobs[k].live = true)
    (hk : s.jt.jobs[k].record.kind ≠ .write) (hw : s.waiting (.framer s.jt.jobs[k].record.lane) = false)
    (hr : s.re.hasRoom = true) :
    restoreEnded s (evaluationDone k (missingAt s k mem count)) k { s.jt.jobs[k].record with
        counters := { s.jt.jobs[k].record.counters with missing := countedMissing s.jt.jobs[k].record count } }
      ∧ (evaluationDone k (missingAt s k mem count)).mem = mem
      ∧ (evaluationDone k (missingAt s k mem count)).de.slots = (missingAt s k mem count).de.slots := by
  have hjob : (missingAt s k mem count).jt.jobs[k] = { s.jt.jobs[k] with record := { s.jt.jobs[k].record with
      counters := { s.jt.jobs[k].record.counters with missing := countedMissing s.jt.jobs[k].record count } } } :=
    Vector.getElem_set_self k.isLt
  obtain ⟨h, w, c, he⟩ := evaluationDone_ends (s := missingAt s k mem count) hs (by rw [hjob]; exact hl)
    (by rw [hjob]; exact hk) (by rw [hjob]) hw hr
  rw [he]
  refine ⟨⟨?_, ?_, rfl, rfl, rfl, ?_, ?_, rfl, rfl, rfl⟩, rfl, rfl⟩
  · simp only [readingEnded, hjob]
    exact Vector.set_set ..
  · simp only [readingEnded, hjob]
    rfl
  · simp only [readingEnded]
    exact congrArg Lane.role (Vector.getElem_set_self (Fin.isLt _))
  · simp only [readingEnded]
    exact congrArg Framer.phase (Vector.getElem_set_self (Fin.isLt _))

end Trailing

/-! ## RESTORE_ENTRY_WRITE -/

/-- A decode that ends leaves the slots' restore counts. -/
theorem decodeEnded_slots {s u : State} {k : SlotId} (v : Vector RestoreSlot 8) (hde : u.de = { s.de with slots := v })
    (hlive : u.jt.jobs[k].live = s.jt.jobs[k].live) (hstate : u.jt.jobs[k].record.state = s.jt.jobs[k].record.state) :
    decodeEnded u k = { decodeEnded s k with slots := v } := by
  unfold decodeEnded
  rw [hde, hlive, hstate]
  dsimp only
  split <;> rfl

section Settle
variable {s : State} {d : Decode} {r : DecodeResult}

theorem restoreEntryWrite_decode (ho : s.de.operation = some (.decode d)) (hr : d.result = some r) (hk : d.entry.kind = .restore) :
    restoreEntryWrite s = settleRestore d r s := by
  unfold restoreEntryWrite
  simp only [ho, hr, hk, if_true]

theorem settleRestore_below (h : d.entry.header.sequence.toNat < s.de.slots[d.entry.slot].expected) :
    settleRestore d r s = { s with de := decodeEnded s d.entry.slot } :=
  (if_pos h).trans (finishDecode_eq _ _)

/-- An entry takes 16 bytes at least. -/
theorem entrySize_ge (d : Decode) (x : Nat) : 16 ≤ d.entrySize x := by
  unfold Decode.entrySize
  split
  · exact Nat.le_refl 16
  · split <;> omega

theorem settleRestore_waits (h : s.de.slots[d.entry.slot].expected ≤ d.entry.header.sequence.toNat)
    (hroom : s.restoreRoom d.entry.slot < ({ d with result := some r } : Decode).entrySize s.de.slots[d.entry.slot].expected) :
    settleRestore d r s = s := by
  unfold settleRestore
  dsimp only
  rw [if_neg (by omega), if_pos hroom]

/-- The gap before a segment is written as MISSING. -/
theorem settleRestore_gap (h : s.de.slots[d.entry.slot].expected < d.entry.header.sequence.toNat)
    (hlast : d.entry.header.sequence.toNat ≤ s.jt.jobs[d.entry.slot].record.lastChunk.toNat)
    (hroom : 16 ≤ s.restoreRoom d.entry.slot) (hp : s.de.slots[d.entry.slot].producer.toNat + 16 < 4294967296) :
    ∃ m, settleRestore d r s
        = missingAt s d.entry.slot m (d.entry.header.sequence.toNat - s.de.slots[d.entry.slot].expected)
      ∧ ringWritten s.mem m s.jt.jobs[d.entry.slot].record.ring s.de.slots[d.entry.slot].producer.toNat
        (descriptorBytes s.de.slots[d.entry.slot].expected
          (d.entry.header.sequence.toNat - s.de.slots[d.entry.slot].expected) 0 .missing) := by
  have hsize : 16 ≤ s.jt.jobs[d.entry.slot].record.ringSize.toNat := hroom.trans (Nat.sub_le _ _)
  have hseq := d.entry.header.sequence.isLt
  obtain ⟨m, he, hm⟩ := writeMissing_written (upTo := d.entry.header.sequence.toNat) (by omega) hsize hp
  refine ⟨m, ?_, hm⟩
  have hentry : ({ d with result := some r } : Decode).entrySize s.de.slots[d.entry.slot].expected = 16 := if_pos h
  have hexp : ∀ c, (missingAt s d.entry.slot m c).de.slots[d.entry.slot].expected
      = s.de.slots[d.entry.slot].expected + c := fun c => by
    simp only [missingAt, Fin.getElem_fin, Vector.getElem_set_self]
  unfold settleRestore
  dsimp only
  rw [if_neg (by omega), hentry, if_neg (by omega), if_pos h, Nat.min_eq_left (by omega), he,
    if_neg (by rw [hexp]; omega)]

/-- The segment's own entry, and the decode ends. -/
theorem settleRestore_own {u : State} {v : Vector RestoreSlot 8}
    (h : s.de.slots[d.entry.slot].expected = d.entry.header.sequence.toNat)
    (hlast : d.entry.header.sequence.toNat ≤ s.jt.jobs[d.entry.slot].record.lastChunk.toNat)
    (hroom : ({ d with result := some r } : Decode).entrySize s.de.slots[d.entry.slot].expected ≤ s.restoreRoom d.entry.slot)
    (hu : writeOwn d.entry (decide (r = .good)) s = u) (hde : u.de = { s.de with slots := v })
    (hlive : u.jt.jobs[d.entry.slot].live = s.jt.jobs[d.entry.slot].live)
    (hstate : u.jt.jobs[d.entry.slot].record.state = s.jt.jobs[d.entry.slot].record.state) :
    settleRestore d r s = { u with de := { decodeEnded s d.entry.slot with slots := v } } := by
  unfold settleRestore
  dsimp only
  rw [if_neg (by omega), if_neg (by omega), if_neg (by omega), if_pos hlast, hu, finishDecode_eq,
    decodeEnded_slots v hde hlive hstate]

end Settle

/-- Settles O48. -/
theorem restoreEntryWritten : Obligations.RestoreEntryWritten := by
  refine ⟨?_, ?_⟩
  · intro s d r hs ho hr hk k job x seq raw size room at' entry hlast hsize hp
    have hrun := restoreEntryWrite_decode ho hr hk
    have hp16 : s.de.slots[k].producer.toNat + 16 < 4294967296 := by
      have : x.producer.toNat + 16 + (raw + 15) / 16 * 16 < 4294967296 := hp
      have : s.de.slots[k].producer.toNat = x.producer.toNat := rfl
      omega
    refine ⟨fun h => ?_, fun h hroom => ?_, fun h hroom => ?_, fun h hbad hroom => ?_, ?_⟩
    · exact runStep_next s _ restoreEntryWrite hs (hrun.trans (settleRestore_below h))
    · exact runStep_next s _ restoreEntryWrite hs (hrun.trans (settleRestore_waits h
        (Nat.lt_of_lt_of_le hroom (entrySize_ge _ _))))
    · obtain ⟨m, he, hm⟩ := settleRestore_gap (r := r) h hlast hroom hp16
      obtain ⟨b, hb⟩ := runStep_next s _ restoreEntryWrite hs (hrun.trans he)
      refine ⟨_, hb, hm, ?_⟩
      have hseq : x.expected + (seq - x.expected) = seq := by omega
      simp only [missingAt, withStale, countedMissing]
      rw [show s.de.slots[d.entry.slot].expected + (d.entry.header.sequence.toNat - s.de.slots[d.entry.slot].expected) = seq
        from hseq]
    · have hentry : ({ d with result := some r } : Decode).entrySize s.de.slots[d.entry.slot].expected = 16 := by
        unfold Decode.entrySize
        rw [if_neg (by have : s.de.slots[d.entry.slot].expected = d.entry.header.sequence.toNat := h; dsimp only; omega)]
        cases r with
        | good => exact absurd rfl hbad
        | _ => rfl
      have hsize16 : 16 ≤ s.jt.jobs[d.entry.slot].record.ringSize.toNat := Nat.le_trans hroom (Nat.sub_le _ _)
      obtain ⟨m, he, hm⟩ := writeOwn_faulted (s := s) (e := d.entry) hsize16 hp16
      rw [← decide_eq_false hbad] at he
      obtain ⟨b, hb⟩ := runStep_next s _ restoreEntryWrite hs
        (hrun.trans (settleRestore_own h hlast (by rw [hentry]; exact hroom) he rfl rfl rfl))
      exact ⟨_, hb, hm, rfl⟩
    · intro h hgood hbuffer need
      subst hgood
      have hentry : ({ d with result := some .good } : Decode).entrySize s.de.slots[d.entry.slot].expected = need := by
        unfold Decode.entrySize
        rw [if_neg (by have : s.de.slots[d.entry.slot].expected = d.entry.header.sequence.toNat := h; dsimp only; omega)]
      refine ⟨fun hroom => ?_, fun hroom => ?_⟩
      · exact runStep_next s _ restoreEntryWrite hs (hrun.trans (settleRestore_waits (Nat.le_of_eq h)
          (by rw [hentry]; exact hroom)))
      · obtain ⟨m, he, hm⟩ := writeOwn_good (s := s) (e := d.entry) hbuffer (Nat.le_trans hroom (Nat.sub_le _ _)) hp
        obtain ⟨b, hb⟩ := runStep_next s _ restoreEntryWrite hs
          (hrun.trans (settleRestore_own h hlast (by rw [hentry]; exact hroom) he rfl
            (by simp only [Fin.getElem_fin, Vector.getElem_set_self]) (by simp only [Fin.getElem_fin, Vector.getElem_set_self])))
        exact ⟨_, hb, hm, rfl⟩
  · intro s k hs ho hj hl hk hr hw job x size room count hx hc hsize hp
    have hrun : restoreEntryWrite s = trailingMissing k (0 + 1) s := by
      unfold restoreEntryWrite
      rw [ho]
    refine ⟨fun hroom => ?_, fun hroom => ?_⟩
    · exact runStep_next s _ restoreEntryWrite hs (hrun.trans (trailingMissing_waits hx hroom))
    · obtain ⟨m, he, hm⟩ := trailingMissing_writes (m := 0) hx hroom hc hp
      obtain ⟨b, hb⟩ := runStep_next s _ restoreEntryWrite hs (hrun.trans he)
      obtain ⟨hended, hmem, hslots⟩ := evaluationDone_missing (mem := m)
        (count := s.jt.jobs[k].record.lastChunk.toNat + 1 - s.de.slots[k].expected) hj hl (by rw [hk]; decide) hw hr
      refine ⟨_, hb, ⟨?_, ?_, hslots⟩, hended⟩
      · intro i hi; rw [show ∀ u : State, (withStale b u).mem = u.mem from fun _ => rfl, hmem]; exact hm.1 i hi
      · intro a ha; rw [show ∀ u : State, (withStale b u).mem = u.mem from fun _ => rfl, hmem]; exact hm.2 a ha

end Sys2Proof.Proofs.Restore
end

section
/-! PROOFS. END_EVALUATION (R127, R128, R132): the missing sweep of a VERIFY job and the judgement of its cartridge, and the end
of the job. -/
namespace Sys2Proof.Proofs.Evaluation
open Sys2Proof Sys2Proof.Machine Sys2Proof.Safety Sys2Proof.Laws
open Sys2Proof.Proofs.JobEnds Sys2Proof.Proofs.Restore Sys2Proof.Proofs.Catalog Sys2Proof.Proofs.Sightings

section Missing
variable {s : State} {l : Layout} {label : Option Label} {first last : Word}

theorem recordInRange_iff (y : List Byte) : recordInRange label first last y = true ↔ inRange label first last y := by
  have hstart : (recStartGroup y).toNat = fieldNat y 16 4 := Requests.argWord_toNat y 16
  cases label with
  | none => simp [recordInRange, inRange]
  | some x => simp [recordInRange, inRange, hstart, recLabel]

/-- The missing sweep's test, with the value it sets. -/
theorem missingSweep_spec (hl : s.wd.layout = some l) (hb : catalogBounded s l) :
    ∃ m missing, missingSweep label first last s = ({ s with mem := m }, missing)
      ∧ ∀ f : List Byte → Option Nat,
        (∀ y, inRange label first last y ∧ fieldNat y 11 1 = 2 → f y = some 5) →
        (∀ y, ¬ (inRange label first last y ∧ fieldNat y 11 1 = 2) → f y = none) →
        recordsSet s l f m ∧ missing = (s.sc.live.filterMap fun q => f (recordAt s l q)).length := by
  obtain ⟨m, hm, hs⟩ := catalogSweep_spec (fun y => if recordInRange label first last y && decide (recState y = 2)
    then some .missing else none) hl hb
  refine ⟨m, _, hm, fun f hyes hno => ?_⟩
  have hf (y : List Byte) : ((if recordInRange label first last y && decide (recState y = 2)
      then some RecordState.missing else none).map RecordState.value) = f y := by
    by_cases h : inRange label first last y ∧ fieldNat y 11 1 = 2
    · rw [hyes y h, if_pos (by rw [Bool.and_eq_true, recordInRange_iff, decide_eq_true_eq]; exact h)]; rfl
    · rw [hno y h, if_neg (by rw [Bool.and_eq_true, recordInRange_iff, decide_eq_true_eq]; exact h)]; rfl
  refine ⟨recordsSet_congr (fun q _ => hf _) hs, ?_⟩
  rw [List.length_filterMap_eq_countP]
  refine List.countP_congr fun q _ => ?_
  rw [← hf, Option.isSome_map]

end Missing

/-- A cartridge record as the evaluation judges it (R128). -/
theorem judged_eq (c : CartRecord) (r : JobRecord) : c.judged r =
    if r.counters.failed = 0 ∧ r.counters.missing = 0 ∧ r.counters.groupCheckFailures = 0 then
      (if r.firstGroup.toNat ≤ c.verified.toNat ∧ c.verified.toNat ≤ r.lastGroup.toNat then
        { c with verified := r.lastGroup + 1 } else c)
    else { c with condition := .suspect } := by
  simp only [CartRecord.judged, Nat.lt_succ_iff]

/-- The record of a VERIFY job with the missing records counted. -/
def judgedRecord (job : JobRecord) (missing : Nat) : JobRecord :=
  { job with counters := { job.counters with missing := countedMissing job missing } }

/-- The state once the missing records of a VERIFY job are swept and counted and its cartridge is judged. -/
def judgedAt (s : State) (k : SlotId) (c : CartRecord) (m : List Host.Cell) (missing : Nat) : State :=
  let job := s.jt.jobs[k].record
  { s with
    mem := m
    jt := { s.jt with jobs := s.jt.jobs.set k { s.jt.jobs[k] with record := judgedRecord job missing } }
    cd := { s.cd with records := s.cd.records.set job.cart (some (c.judged (judgedRecord job missing))) } }

theorem judgedAt_job (s : State) (k : SlotId) (c : CartRecord) (m : List Host.Cell) (missing : Nat) :
    (judgedAt s k c m missing).jt.jobs[k] = { s.jt.jobs[k] with record := judgedRecord s.jt.jobs[k].record missing } :=
  Vector.getElem_set_self k.isLt

/-- The VERIFY evaluation, up to the job's end. -/
theorem verifyEvaluation_eq {s : State} {k : SlotId} {c : CartRecord} {m : List Host.Cell} {missing : Nat}
    (hc : s.cd.records[s.jt.jobs[k].record.cart] = some c)
    (hsweep : missingSweep c.label s.jt.jobs[k].record.firstGroup s.jt.jobs[k].record.lastGroup s = ({ s with mem := m }, missing)) :
    verifyEvaluation k s = evaluationDone k (judgedAt s k c m missing) := by
  have hc' : s.cd.records[s.jt.jobs[k.val].record.cart.val] = some c := hc
  unfold verifyEvaluation
  dsimp only
  rw [cartLabel_eq hc, hsweep]
  simp only [State.modCounters, State.modJob, State.modCart, Fin.getElem_fin, Vector.getElem_set_self, satAdd_eq, hc',
    Option.map_some]
  rfl

/-- Settles O49. -/
theorem evaluationEndsJob : Obligations.EvaluationEndsJob := by
  refine ⟨fun s hs h => ?_, ?_⟩
  · refine runStep_next s s endEvaluation hs ?_
    unfold endEvaluation
    split
    next k due ho hd => rcases h with h | h <;> simp_all
    next => rfl
  intro s k due l hs ho hd hj hl hlay hb hr hw job ended
  have hrun (hne : job.kind ≠ .verify) : endEvaluation s = trailingMissing k 2 { s with
      de := { s.de with due := due, operation := some (.evaluation k) } } := by
    unfold endEvaluation
    rw [ho, hd]
    dsimp only
    split
    next h => exact absurd h hne
    next => rfl
  refine ⟨?_, ?_, ?_⟩
  · intro c hk hc gone
    obtain ⟨m, missing, hsweep, hset⟩ := missingSweep_spec (s := { s with
      de := { s.de with due := due, operation := some (.evaluation k) } }) (label := c.label) (first := job.firstGroup)
      (last := job.lastGroup) hlay hb
    have hverify : endEvaluation s = verifyEvaluation k { s with
        de := { s.de with due := due, operation := some (.evaluation k) } } := by
      unfold endEvaluation
      rw [ho, hd]
      dsimp only
      rw [show s.jt.jobs[k].record.kind = .verify from hk]
    let s' : State := { s with de := { s.de with due := due, operation := some (.evaluation k) } }
    have heval := verifyEvaluation_eq (s := s') (k := k) hc hsweep
    have hjob : (judgedAt s' k c m missing).jt.jobs[k] = { s.jt.jobs[k] with record := judgedRecord job missing } :=
      judgedAt_job ..
    have hkw : job.kind ≠ .write := by rw [hk]; decide
    obtain ⟨h, w, cl, he⟩ := evaluationDone_ends (s := judgedAt s' k c m missing) (k := k) (n := job.lane) hj
      (by rw [hjob]; exact hl) (by rw [hjob]; exact hkw) (by rw [hjob]; rfl) hw hr
    obtain ⟨b, hb'⟩ := runStep_next s _ endEvaluation hs (hverify.trans (heval.trans he))
    refine ⟨_, missing, judgedRecord job missing, ⟨hb', ?_, ?_, rfl, rfl, rfl, ?_, ?_, rfl, rfl⟩, hset, rfl, ?_⟩
    · simp only [readingEnded, withStale, hjob]
      exact Vector.set_set ..
    · simp only [readingEnded, withStale, hjob]
      rfl
    · exact congrArg Lane.role (Vector.getElem_set_self (Fin.isLt _))
    · exact congrArg Framer.phase (Vector.getElem_set_self (Fin.isLt _))
    · exact congrArg (fun x => ({ s.cd with records := s.cd.records.set job.cart (some x) } : Directory))
        (judged_eq c (judgedRecord job missing))
  · intro hk hlast
    have hkw : s.jt.jobs[k].record.kind ≠ .write := by rw [show s.jt.jobs[k].record.kind = .restore from hk]; decide
    obtain ⟨h, w, cl, he⟩ := evaluationDone_ends (s := { s with
      de := { s.de with due := due, operation := some (.evaluation k) } }) (k := k) (n := job.lane) hj hl hkw rfl hw hr
    have hdone : trailingMissing k 2 { s with de := { s.de with due := due, operation := some (.evaluation k) } }
        = evaluationDone k { s with de := { s.de with due := due, operation := some (.evaluation k) } } := if_pos hlast
    obtain ⟨b, hb'⟩ := runStep_next s _ endEvaluation hs
      ((hrun (by rw [hk]; decide)).trans (hdone.trans he))
    exact ⟨_, ⟨hb', rfl, rfl, rfl, rfl, rfl, congrArg Lane.role (Vector.getElem_set_self (Fin.isLt _)),
      congrArg Framer.phase (Vector.getElem_set_self (Fin.isLt _)), rfl, rfl⟩, rfl, rfl⟩
  · intro hk hlast x room count
    have hrun := hrun (by rw [hk]; decide)
    have hkw : s.jt.jobs[k].record.kind ≠ .write := by rw [show s.jt.jobs[k].record.kind = .restore from hk]; decide
    refine ⟨fun hroom => ?_, fun hroom hc hsize hp => ?_⟩
    · exact runStep_next s _ endEvaluation hs (hrun.trans (trailingMissing_waits (m := 1) hlast hroom))
    · obtain ⟨m, he, hm⟩ := trailingMissing_writes (s := { s with
        de := { s.de with due := due, operation := some (.evaluation k) } }) (m := 1) hlast hroom hc hp
      obtain ⟨b, hb'⟩ := runStep_next s _ endEvaluation hs (hrun.trans he)
      obtain ⟨⟨hjobs, hback, hop, hdue, hqueue, hrole, hphase, hlc, hcd, hstreams⟩, hmem, hslots⟩ := evaluationDone_missing (s := { s with
        de := { s.de with due := due, operation := some (.evaluation k) } }) (mem := m) (count := count) hj hl hkw hw hr
      refine ⟨_, ⟨hb', hjobs, hback, hop, hdue, hqueue, hrole, hphase, hlc, hstreams⟩, ⟨?_, ?_, hslots⟩, hcd⟩
      · intro i hi; rw [show ∀ u : State, (withStale b u).mem = u.mem from fun _ => rfl, hmem]; exact hm.1 i hi
      · intro a ha; rw [show ∀ u : State, (withStale b u).mem = u.mem from fun _ => rfl, hmem]; exact hm.2 a ha

end Sys2Proof.Proofs.Evaluation
end

section
/-! PROOFS. An accepted frame on its way (R107, R112, R115): the rules of the steps that go on with it. -/
namespace Sys2Proof.Proofs.Framers
open Sys2Proof Sys2Proof.Machine Sys2Proof.Safety Sys2Proof.Laws

/-- The state with the lane's Framer as given. -/
def withFr (n : LaneId) (f : Framer) (u : State) : State := { u with framers := u.framers.set n f }

section WithFr
variable {n : LaneId} {f : Framer} {u : State}

@[simp] theorem withFr_framer : (withFr n f u).framers[n] = f := Vector.getElem_set_self n.isLt

@[simp] theorem withFr_modFramer (g : Framer → Framer) : (withFr n f u).modFramer n g = withFr n (g f) u := by
  unfold State.modFramer
  rw [withFr_framer]
  unfold withFr
  simp only [Vector.set_set]

@[simp] theorem withFr_withFr (g : Framer) : withFr n g (withFr n f u) = withFr n g u := by
  unfold withFr
  simp only [Vector.set_set]

theorem modFramer_withFr (g : Framer → Framer) : u.modFramer n g = withFr n (g u.framers[n]) u := rfl

theorem withFr_self (h : u.framers[n] = f) : withFr n f u = u := by
  subst h
  exact modFramer_id u n

end WithFr

/-! ## The steps of a frame -/

/-- A Framer in the middle of a frame that may go on: it does not hold a segment, and no VERIFY job has met its end. -/
structure GoesOn (s : State) (n : LaneId) (w : FrameWork) : Prop where
  frame : s.framers[n].frame = some w
  noPost : s.waiting (.framer n) = false
  notHeld : ∀ a, s.framers[n].assembler ≠ .hold a
  notPast : s.framers[n].pastLast = false

theorem goesOn_withFr {u : State} {n : LaneId} {w : FrameWork} (f : Framer) (hf : f.frame = some w)
    (hw : u.waiting (.framer n) = false) (hh : ∀ a, f.assembler ≠ .hold a) (hp : f.pastLast = false) :
    GoesOn (withFr n f u) n w :=
  ⟨by rw [withFr_framer]; exact hf, hw, by rw [withFr_framer]; exact hh, by rw [withFr_framer]; exact hp⟩

section Steps
variable {s : State} {n : LaneId} {w : FrameWork}

theorem runFrame_none (m : Nat) (h : s.framers[n].frame = none) : runFrame n m s = s := by
  cases m with
  | zero => rfl
  | succ m => unfold runFrame; rw [h]

theorem runFrame_rests (m : Nat) (h : s.frameRests n = true) : runFrame n m s = s := by
  cases m with
  | zero => rfl
  | succ m =>
    unfold runFrame
    rw [h]
    split
    · rfl
    · rfl

theorem frameRests_waiting (h : s.waiting (.framer n) = true) : s.frameRests n = true := by
  unfold State.frameRests
  rw [h, Bool.true_or]

theorem frameRests_hold {a : Assembly} (h : s.framers[n].assembler = .hold a) : s.frameRests n = true := by
  unfold State.frameRests
  rw [h, Bool.or_true]

theorem frameRests_free (hw : s.waiting (.framer n) = false) (h : ∀ a, s.framers[n].assembler ≠ .hold a) :
    s.frameRests n = false := by
  unfold State.frameRests
  rw [hw, Bool.false_or]
  split
  · next a ha => exact absurd ha (h a)
  · rfl

theorem verifyEnded_notPast (h : s.framers[n].pastLast = false) : s.verifyEnded n = false := by
  unfold State.verifyEnded
  rw [h, Bool.and_false, Bool.false_and]

theorem runFrame_goesOn (h : GoesOn s n w) (m : Nat) : runFrame n (m + 1) s = match w.stage with
    | .assemble => runFrame n m (assemblerStep n w s)
    | .check => runFrame n m (settleGroup n w s)
    | .finish lost => finishFrame n w lost s := by
  conv_lhs => unfold runFrame
  rw [h.frame, frameRests_free h.noPost h.notHeld, verifyEnded_notPast h.notPast]
  rfl

theorem runFrame_assemble (h : GoesOn s n w) (hs : w.stage = .assemble) (m : Nat) :
    runFrame n (m + 1) s = runFrame n m (assemblerStep n w s) := by rw [runFrame_goesOn h, hs]

theorem runFrame_check (h : GoesOn s n w) (hs : w.stage = .check) (m : Nat) :
    runFrame n (m + 1) s = runFrame n m (settleGroup n w s) := by rw [runFrame_goesOn h, hs]

theorem runFrame_finish (h : GoesOn s n w) {lost : Bool} (hs : w.stage = .finish lost) (m : Nat) :
    runFrame n (m + 1) s = finishFrame n w lost s := by rw [runFrame_goesOn h, hs]

end Steps

/-! ## The settlement of a group (R109, R110) -/

section Settle
variable {u : State} {n : LaneId} {w : FrameWork} {f : Framer}

/-- No group is settled at a frame that is not the last of the group in hand. -/
theorem settleGroup_other (h : w.name.index ≠ 7 ∨ ∀ g, f.groupInHand = some g → g.group ≠ w.name.group) :
    settleGroup n w (withFr n f u) = withFr n { f with frame := some { w with stage := .finish false } } u := by
  unfold settleGroup
  rw [withFr_framer]
  cases hg : f.groupInHand with
  | none => simp only [withFr_modFramer, hg]
  | some g =>
    have hno : ¬ (w.name.index = 7 ∧ g.group = w.name.group) := fun hc => by
      rcases h with h | h
      · exact h hc.1
      · exact h g hg hc.2
    simp only [withFr_modFramer, hg, if_neg hno]

/-- A broken group is settled unchecked. -/
theorem settleGroup_broken {g : GroupInHand} (hg : f.groupInHand = some g) (h7 : w.name.index = 7)
    (hn : g.group = w.name.group) (ha : g.accumulating = false) :
    settleGroup n w (withFr n f u) = withFr n { f with
      groupInHand := none, lastSettled := some w.name.group
      groupsUnchecked := if f.groupsUnchecked = 0xFFFFFFFF then 0xFFFFFFFF else f.groupsUnchecked + 1
      frame := some { w with stage := .finish false } } u := by
  unfold settleGroup
  rw [withFr_framer, hg]
  simp only [h7, hn, and_self, if_true, ha, Bool.not_false,
    settleUnchecked_eq, withFr_modFramer, unchecked, hg]

/-- A group whose check agrees. -/
theorem settleGroup_agrees {g : GroupInHand} (hg : f.groupInHand = some g) (h7 : w.name.index = 7)
    (hn : g.group = w.name.group) (ha : g.accumulating = true) (hc : ~~~ g.check = w.recorded) :
    settleGroup n w (withFr n f u) = withFr n { f with
      groupInHand := none, lastSettled := some w.name.group
      groupsChecked := if f.groupsChecked = 0xFFFFFFFF then 0xFFFFFFFF else f.groupsChecked + 1
      failures := 0
      frame := some { w with stage := .finish false } } u := by
  unfold settleGroup
  rw [withFr_framer, hg]
  simp only [h7, hn, and_self, if_true, ha, Bool.not_true, Bool.false_eq_true,
    if_false, withFr_modFramer, hc, satInc_eq]

theorem framerCount_active {k : SlotId} (g : Counters → Counters) (hs : f.slot = some k)
    (ha : u.jt.jobs[k].record.state = .active) : framerCount n g (withFr n f u) = withFr n f (u.modCounters k g) := by
  unfold framerCount
  rw [withFr_framer, hs]
  exact if_pos ha

theorem framerJob_withFr {k : SlotId} (hs : f.slot = some k) : (withFr n f u).framerJob n = u.jt.jobs[k].record := by
  unfold State.framerJob
  rw [withFr_framer, hs]
  rfl

/-- A failed group check is reported, and the frame goes on to its finish. -/
def checkFailed (n : LaneId) (w : FrameWork) (computed : Word) (s : State) : State :=
  let t := s.modFramer n fun f => { f with frame := some { w with stage := .finish (decide (2 ≤ s.framers[n].failures)) } }
  framerPost n (.groupCheckFail n (t.framerJob n).tag w.name.group computed w.recorded w.position) t

/-- A group whose check fails, with room for its report. -/
theorem settleGroup_fails {k : SlotId} {g : GroupInHand} (hg : f.groupInHand = some g) (h7 : w.name.index = 7)
    (hn : g.group = w.name.group) (ha : g.accumulating = true) (hc : ~~~ g.check ≠ w.recorded) (hs : f.slot = some k)
    (hactive : u.jt.jobs[k].record.state = .active) (hr : u.re.hasRoom = true) :
    settleGroup n w (withFr n f u) = withFr n { f with
        groupInHand := none, lastSettled := some w.name.group
        groupsChecked := if f.groupsChecked = 0xFFFFFFFF then 0xFFFFFFFF else f.groupsChecked + 1
        failures := f.failures + 1
        frame := some { w with stage := .finish (decide (2 ≤ f.failures + 1)) } }
      { u.modCounters k (fun c => { c with groupCheckFailures := satInc c.groupCheckFailures }) with
        re := { u.re with backlog := u.re.backlog ++
          [.groupCheckFail n u.jt.jobs[k].record.tag w.name.group (~~~ g.check) w.recorded w.position] } } := by
  have htag : (u.modCounters k fun c => { c with groupCheckFailures := satInc c.groupCheckFailures }).jt.jobs[k].record.tag
      = u.jt.jobs[k].record.tag := by
    simp only [State.modCounters, State.modJob, Fin.getElem_fin, Vector.getElem_set_self]
  let f' : Framer := { f with
    groupInHand := none, lastSettled := some w.name.group, groupsChecked := satInc f.groupsChecked
    failures := f.failures + 1 }
  have hfails : settleGroup n w (withFr n f u) = checkFailed n w (~~~ g.check)
      (framerCount n (fun c => { c with groupCheckFailures := satInc c.groupCheckFailures }) (withFr n f' u)) := by
    unfold settleGroup
    rw [withFr_framer, hg]
    simp only [h7, hn, and_self, if_true, ha, Bool.not_true, Bool.false_eq_true, if_false, withFr_modFramer, if_neg hc]
    rfl
  rw [hfails, framerCount_active (f := f') _ hs hactive]
  unfold checkFailed
  dsimp only
  rw [withFr_framer, withFr_modFramer, framerPost_room _ (by exact hr), framerJob_withFr (k := k) (by exact hs), htag,
    ← satInc_eq]
  rfl

end Settle

theorem finishFrame_kept {u : State} {n : LaneId} {w : FrameWork} {f : Framer} :
    finishFrame n w false (withFr n f u) = withFr n { f with frame := none, scan := w.position + 4096 } u :=
  (if_neg Bool.false_ne_true).trans (withFr_modFramer _)

/-! ## The steps of the assembler (R112 to R115) -/

section Assemble
variable {u : State} {n : LaneId} {w : FrameWork} {f : Framer} {l : Layout}

@[simp] theorem setAssembler_withFr (a : Assembler) :
    setAssembler n w a (withFr n f u) = withFr n { f with assembler := a, frame := some w } u := withFr_modFramer _

theorem segmentFault_posts {k : SlotId} (reason : SegmentFaultReason) (position : Word) (x : FrameName) (hs : f.slot = some k)
    (hr : u.re.hasRoom = true) :
    segmentFault n w reason position x (withFr n f u) = withFr n { f with
        segmentFaults := if f.segmentFaults = 0xFFFFFFFF then 0xFFFFFFFF else f.segmentFaults + 1
        assembler := .waitStart, frame := some { w with stage := .check } }
      { u with re := { u.re with backlog := u.re.backlog ++
        [.segmentFault n u.jt.jobs[k].record.tag reason position x] } } := by
  unfold segmentFault
  simp only [withFr_modFramer, setAssembler_withFr, satInc_eq]
  rw [framerPost_room _ (by exact hr), framerJob_withFr (k := k) (by exact hs)]
  rfl

theorem segmentFault_waits {k : SlotId} (reason : SegmentFaultReason) (position : Word) (x : FrameName) (hs : f.slot = some k)
    (hr : u.re.hasRoom = false) :
    let v := withFr n { f with
      segmentFaults := if f.segmentFaults = 0xFFFFFFFF then 0xFFFFFFFF else f.segmentFaults + 1
      assembler := .waitStart, frame := some { w with stage := .check } } u
    segmentFault n w reason position x (withFr n f u) = { recomputeConsumed n v with
      re := { u.re with waiters := u.re.waiters ++
        [{ unit := .framer n, item := .post (.segmentFault n u.jt.jobs[k].record.tag reason position x) }] } } := by
  intro v
  have hjob : v.framerJob n = u.jt.jobs[k].record := framerJob_withFr (by exact hs)
  have hfault : segmentFault n w reason position x (withFr n f u) =
      framerPost n (.segmentFault n (v.framerJob n).tag reason position x) v := by
    unfold segmentFault
    simp only [withFr_modFramer, setAssembler_withFr, satInc_eq]
    rfl
  rw [hfault, hjob]
  unfold framerPost post
  have hvr : ¬ v.re.hasRoom = true := by rw [show v.re = u.re from rfl, hr]; decide
  have hre : (recomputeConsumed n v).re = u.re := recomputeConsumed_re
  rw [if_neg hvr, if_neg (by rw [hre, hr]; decide), hre]

end Assemble

end Sys2Proof.Proofs.Framers
end

section
/-! PROOFS. DECODE_TAKE and EXPANSION_COMPLETE (R118 to R125): a decode is taken, a held segment joins the queue, and an expansion
has its result. -/
namespace Sys2Proof.Proofs.Decoding
open Sys2Proof Sys2Proof.Machine Sys2Proof.Safety Sys2Proof.Laws Sys2Proof.Proofs.Framers

/-! ## DECODE_TAKE -/

section Take
variable {s : State} {e : DecodeEntry} {rest : List DecodeEntry} {l : Layout}

/-- The Decode Engine once it has taken an entry. -/
def tookEntry (s : State) (l : Layout) (e : DecodeEntry) (rest : List DecodeEntry) : State := { s with
  de := { s.de with
    queue := rest, buffer := [], outputCheck := 0xFFFFFFFF
    operation := some (.decode { entry := e, ring := l.rings[e.lane], result := none, discard := false, linked := true }) } }

theorem decodeTake_takes (ho : s.de.operation = none) (hd : s.de.due = []) (hq : s.de.queue = e :: rest)
    (hl : s.wd.layout = some l) : decodeTake s = freedPlaces (tookEntry s l e rest) := by
  have hring : s.returnRing e.lane = l.rings[e.lane] := by unfold State.returnRing; rw [hl]
  unfold decodeTake
  rw [ho, hd, hq]
  dsimp only
  rw [hring]
  rfl

theorem decodeTake_busy (h : s.de.operation ≠ none) : decodeTake s = s := by
  unfold decodeTake
  split
  next ho _ _ => exact absurd ho h
  next => rfl

theorem freedPlaces_none (h : s.de.holding = []) : freedPlaces s = s := by
  unfold freedPlaces
  rw [h]
  rfl

/-- The one Framer that holds has its segment join the queue, and goes on. -/
theorem freedPlaces_one {m : LaneId} {a : Assembly} {k : SlotId} (h : s.de.holding = [m]) (hq : s.de.queue.length < 8)
    (ha : s.framers[m].assembler = .hold a) (hk : s.framers[m].slot = some k) (hw : s.waiting (.framer m) = false) :
    freedPlaces s = takeAdmitted m { s with
      de := { s.de with holding := [], queue := s.de.queue ++ [s.offered m k a] } } := by
  have hadmit : admitHolding 1 s = ({ s with
      de := { s.de with holding := [], queue := s.de.queue ++ [s.offered m k a] } }, [m]) := by
    unfold admitHolding
    rw [h]
    simp only [hq, if_true, ha, joinQueue, hk]
    rfl
  unfold freedPlaces
  rw [h, List.length_singleton, hadmit]
  exact if_neg (by simpa [State.waiting] using hw)

/-- The Framer leaves HOLD and goes on with its frame. -/
theorem takeAdmitted_goesOn {m : LaneId} {a : Assembly} {k : SlotId} (ha : s.framers[m].assembler = .hold a)
    (hk : s.framers[m].slot = some k)
    (hlast : s.jt.jobs[k].record.kind = .restore → a.header.tag = s.jt.jobs[k].record.sourceTag →
      a.header.sequence.toNat < s.jt.jobs[k].record.lastChunk.toNat) :
    takeAdmitted m s = continueFrame m (withFr m { s.framers[m] with
      assembler := if s.framers[m].frame.isSome then .atHeader else .waitStart } s) := by
  have hends : s.jt.jobs[k].record.joinEnds a.header = false := by
    refine decide_eq_false fun ⟨h1, h2, h3⟩ => ?_
    have := hlast h1 h2
    omega
  unfold takeAdmitted
  rw [ha]
  dsimp only
  rw [modFramer_withFr, framerJob_withFr (k := k) (by exact hk), hends]
  rfl

/-- A frame whose payload is used up and that is not the last of its group is finished. -/
theorem runFrame_usedUp {m : LaneId} {f : Framer} {w : FrameWork} (fuel : Nat) (hf : f.frame = some w)
    (ha : f.assembler = .atHeader) (hp : f.pastLast = false) (hw : s.waiting (.framer m) = false) (hstage : w.stage = .assemble)
    (hcursor : w.cursor = w.dataEnd) (h7 : w.name.index ≠ 7) :
    runFrame m (fuel + 3) (withFr m f s) =
      withFr m { f with assembler := .atNext, frame := none, scan := w.position + 4096 } s := by
  have hstep : assemblerStep m w (withFr m f s) = withFr m { f with assembler := .atNext, frame := some w.used } s := by
    unfold assemblerStep
    rw [withFr_framer, ha]
    simp only [hcursor, if_true, setAssembler_withFr]
  let used : Framer := { f with assembler := .atNext, frame := some w.used }
  let finishing : Framer := { used with frame := some { w.used with stage := .finish false } }
  calc runFrame m (fuel + 3) (withFr m f s)
      = runFrame m (fuel + 2) (withFr m used s) := by
        rw [runFrame_assemble (goesOn_withFr f hf hw (by rw [ha]; exact fun _ h => nomatch h) hp) hstage, hstep]
    _ = runFrame m (fuel + 1) (withFr m finishing s) := by
        rw [runFrame_check (goesOn_withFr used rfl hw (fun _ h => nomatch h) hp) rfl, settleGroup_other (w := w.used) (.inl h7)]
    _ = finishFrame m { w.used with stage := .finish false } false (withFr m finishing s) :=
        runFrame_finish (goesOn_withFr finishing rfl hw (fun _ h => nomatch h) hp) rfl fuel
    _ = withFr m { f with assembler := .atNext, frame := none, scan := w.position + 4096 } s := finishFrame_kept

end Take

/-! ## EXPANSION_COMPLETE -/

section Expand
variable {s : State} {d : Decode}

/-- The Decode Engine as the expansion leaves it, with a given operation. -/
def expandedAt (s : State) (x : Expansion) (o : Option DecodeOperation) : State := { s with
  de := { s.de with buffer := x.output.toList, outputCheck := crcUpdate crcStart x.output.toList, operation := o } }

/-- The result of a decode's expansion. -/
def resultOf (d : Decode) (x : Expansion) : DecodeResult :=
  expansionResult d.entry x.fault (crcUpdate crcStart x.output.toList)

/-- The state once a decode has its result, before the marks follow. -/
def resulted (s : State) (d : Decode) (x : Expansion) : State :=
  if d.discard then expandedAt s x none
  else countDecode d.entry (resultOf d x) (expandedAt s x
    (some (.decode { d with result := some (resultOf d x), check := crcUpdate crcStart x.output.toList })))

/-- A RESTORE decode below the expected sequence ends at once. -/
def settledBelow (d : Decode) (w : State) : State :=
  if !d.discard && decide (d.entry.kind = .restore ∧ d.entry.header.sequence.toNat < w.de.slots[d.entry.slot].expected) then
    finishDecode d.entry.slot w
  else w

theorem expansionComplete_eq {x : Expansion} (ho : s.de.operation = some (.decode d)) (hr : d.result = none)
    (hx : expandSegment d.entry.header.mode d.entry.header.rawLength (s.decodeInput d) = x) :
    expansionComplete s = settledBelow d
      (if d.linked then framerSettle d.entry.lane (resulted s d x) else resulted s d x) := by
  unfold expansionComplete
  rw [ho]
  dsimp only
  rw [hr, if_neg (by simp), hx]
  unfold settledBelow resulted expandedAt resultOf segmentRead
  cases d.discard <;> cases d.linked <;> rfl

theorem countDecode_eq (e : DecodeEntry) (r : DecodeResult) : countDecode e r s = { s with
    jt := { s.jt with jobs := s.jt.jobs.set e.slot { s.jt.jobs[e.slot] with record := { s.jt.jobs[e.slot].record with
      counters := { s.jt.jobs[e.slot].record.counters with
        segments := satInc s.jt.jobs[e.slot].record.counters.segments
        faulted := if r = .good then s.jt.jobs[e.slot].record.counters.faulted
          else satInc s.jt.jobs[e.slot].record.counters.faulted } } } }
    de := { s.de with slots := if r = .good then s.de.slots else s.de.slots.set e.slot { s.de.slots[e.slot] with
      lastFault := some (r, e.header.sequence) } } } := by
  unfold countDecode
  by_cases h : r = .good
  · simp only [h, if_true]; rfl
  · simp only [h, if_false]; rfl

/-- The marks look at the Decode Engine for the pieces that it holds alone. -/
theorem recomputeConsumed_engine {v : State} {n : LaneId} {de : DecodeEngine} (h : de.piecesOf n = v.de.piecesOf n) :
    recomputeConsumed n { v with de := de } = { recomputeConsumed n v with de := de } := by
  unfold recomputeConsumed
  dsimp only
  rw [h]
  split <;> rfl

/-- A decode that has its result holds no pieces. -/
theorem piecesOf_resulted {de : DecodeEngine} {n : LaneId} {r : DecodeResult} (ho : de.operation = some (.decode d))
    (hr : d.result = some r) : ({ de with operation := none } : DecodeEngine).piecesOf n = de.piecesOf n := by
  unfold DecodeEngine.piecesOf
  rw [ho]
  dsimp only
  rw [if_neg (by rw [hr]; simp)]

theorem decodeEnded_piecesOf {v : State} {k : SlotId} {n : LaneId} {r : DecodeResult}
    (ho : v.de.operation = some (.decode d)) (hr : d.result = some r) : (decodeEnded v k).piecesOf n = v.de.piecesOf n := by
  have h := piecesOf_resulted (n := n) ho hr
  unfold decodeEnded
  dsimp only
  split
  · exact h
  · exact h

theorem decodeEnded_congr {u v : State} {k : SlotId} (hde : u.de = v.de) (hjt : u.jt = v.jt) : decodeEnded u k = decodeEnded v k := by
  unfold decodeEnded
  rw [hde, hjt]

end Expand

end Sys2Proof.Proofs.Decoding
end

section
/-! PROOFS. What the Decode Engine's two steps do (R118 to R125). -/
namespace Sys2Proof.Proofs.Decoding
open Sys2Proof Sys2Proof.Machine Sys2Proof.Safety Sys2Proof.Laws Sys2Proof.Proofs.Framers

section Hold
variable {s : State} {e : DecodeEntry} {rest : List DecodeEntry} {m : LaneId} {a : Assembly} {k : SlotId} {l : Layout}

/-- A decode is taken while one Framer holds: its segment joins the queue, and it goes on with its frame. -/
theorem decodeTake_admits (ho : s.de.operation = none) (hd : s.de.due = []) (hq : s.de.queue = e :: rest)
    (hlen : rest.length < 8) (hh : s.de.holding = [m]) (hl : s.wd.layout = some l) (ha : s.framers[m].assembler = .hold a)
    (hk : s.framers[m].slot = some k) (hw : s.waiting (.framer m) = false)
    (hlast : s.jt.jobs[k].record.kind = .restore → a.header.tag = s.jt.jobs[k].record.sourceTag →
      a.header.sequence.toNat < s.jt.jobs[k].record.lastChunk.toNat) :
    decodeTake s = continueFrame m (withFr m { s.framers[m] with
        assembler := if s.framers[m].frame.isSome then .atHeader else .waitStart }
      { tookEntry s l e rest with
        de := { (tookEntry s l e rest).de with holding := [], queue := rest ++ [s.offered m k a] } }) := by
  rw [decodeTake_takes ho hd hq hl, freedPlaces_one (s := tookEntry s l e rest) hh hlen ha hk hw]
  exact takeAdmitted_goesOn (s := { tookEntry s l e rest with
    de := { (tookEntry s l e rest).de with holding := [], queue := rest ++ [s.offered m k a] } }) ha hk hlast

end Hold

section Complete
variable {s : State} {d : Decode} {x : Expansion}

theorem resulted_kept (s : State) (d : Decode) (x : Expansion) :
    (resulted s d x).re = s.re ∧ (resulted s d x).wd = s.wd ∧ (resulted s d x).framers = s.framers := by
  unfold resulted
  rw [countDecode_eq]
  split <;> exact ⟨rfl, rfl, rfl⟩

/-- Whether a decode ends at once does not depend on the marks. -/
theorem settledBelow_congr {u v : State} (hde : u.de = v.de) (hjt : u.jt = v.jt) : settledBelow d u =
    if d.discard = false ∧ d.entry.kind = .restore ∧ d.entry.header.sequence.toNat < v.de.slots[d.entry.slot].expected then
      { u with de := decodeEnded v d.entry.slot }
    else u := by
  unfold settledBelow
  rw [finishDecode_eq, decodeEnded_congr hde hjt, hde]
  simp only [Bool.and_eq_true, Bool.not_eq_true', decide_eq_true_eq]

/-- Settling a decode at once and recomputing the marks do not meet: a decode that has its result holds no pieces. -/
theorem settledBelow_recompute {v : State} {n : LaneId}
    (hp : d.discard = false → ∃ d' r, v.de.operation = some (.decode d') ∧ d'.result = some r) :
    settledBelow d (recomputeConsumed n v) = recomputeConsumed n (settledBelow d v) := by
  rw [settledBelow_congr (v := v) recomputeConsumed_de recomputeConsumed_jt, settledBelow_congr (v := v) rfl rfl]
  split
  · next h =>
    obtain ⟨d', r, ho, hr⟩ := hp h.1
    exact (recomputeConsumed_engine (decodeEnded_piecesOf ho hr)).symm
  · rfl

theorem resulted_operation (hd : d.discard = false) : ∃ d' r, (resulted s d x).de.operation = some (.decode d')
    ∧ d'.result = some r := by
  unfold resulted
  rw [hd, if_neg Bool.false_ne_true, countDecode_eq]
  exact ⟨_, _, rfl, rfl⟩

theorem settledBelow_withFr {v : State} {n : LaneId} {f : Framer} :
    settledBelow d (withFr n f v) = withFr n f (settledBelow d v) := by
  rw [settledBelow_congr (u := withFr n f v) (v := v) rfl rfl, settledBelow_congr (v := v) rfl rfl]
  split <;> rfl

/-- What the end of an expansion does to the lane's Framer, in every case of it. -/
theorem expansion_completes {u : State} {n : LaneId} (hs : running s) (ho : s.de.operation = some (.decode d)) (hr : d.result = none)
    (hx : expandSegment d.entry.header.mode d.entry.header.rawLength (s.decodeInput d) = x) (hn : d.entry.lane = n)
    (hu : settledBelow d (resulted s d x) = u) :
    (d.linked = false ∨ s.waiting (.framer n) = true → ∃ b, exec .expansionComplete s = .next (withStale b u))
      ∧ ∀ l : Layout, d.linked = true → s.waiting (.framer n) = false → s.wd.layout = some l →
        (s.framers[n].phase = .taking → s.framers[n].pastLast = false →
          ∃ t, exec .expansionComplete s = .next t ∧ framerMoves s u t l n s.framers[n])
        ∧ (s.framers[n].phase = .stopped →
          ∃ t, exec .expansionComplete s = .next t
            ∧ framerMoves s u t l n { s.framers[n] with scan := s.wd.ringAperture[n].expected }) := by
  subst hn
  have heq := expansionComplete_eq ho hr hx
  obtain ⟨hre, hwd, hfr⟩ := resulted_kept s d x
  have hop := resulted_operation (s := s) (d := d) (x := x)
  generalize resulted s d x = v at *
  have hwait : v.waiting (.framer d.entry.lane) = s.waiting (.framer d.entry.lane) := by rw [State.waiting, hre]; rfl
  have hfn : v.framers[d.entry.lane] = s.framers[d.entry.lane] := by rw [hfr]
  have hself (f : Framer) (h : f = v.framers[d.entry.lane]) : withFr d.entry.lane f v = v := withFr_self h.symm
  have hulayout : u.wd = s.wd := by
    rw [← hu, settledBelow_congr (v := v) rfl rfl, ← hwd]
    split <;> rfl
  have moves (f : Framer) (hp : f.phase ≠ .unbound) (hc : f.consumed = s.framers[d.entry.lane].consumed) (l : Layout)
      (hl : s.wd.layout = some l) (hlinked : d.linked = true)
      (h : framerSettle d.entry.lane v = recomputeConsumed d.entry.lane (withFr d.entry.lane f v)) :
      ∃ t, exec .expansionComplete s = .next t ∧ framerMoves s u t l d.entry.lane f := by
    rw [if_pos hlinked, h, settledBelow_recompute (v := withFr d.entry.lane f v) hop, settledBelow_withFr, hu] at heq
    exact exec_moves (u := u) (g := expansionComplete) hs rfl heq (by rw [hulayout]; exact hl) hp hc
  refine ⟨fun h => ?_, fun l hlinked hw hl => ⟨fun hp hv => ?_, fun hp => ?_⟩⟩
  · have hsettle : (if d.linked then framerSettle d.entry.lane v else v) = v := by
      rcases h with h | h
      · rw [h]; rfl
      · rw [framerSettle_waiting (hwait.trans h), ite_self]
    rw [hsettle, hu] at heq
    exact runStep_next s _ expansionComplete hs heq
  · refine moves _ (by rw [hp]; decide) rfl l hl hlinked ?_
    rw [hself _ hfn.symm]
    exact framerSettle_taking (hwait.trans hw) (by rw [hfn]; exact hp) (by rw [hfn]; exact hv)
  · have hstop : s.framers[d.entry.lane].phase ≠ .unbound := by rw [hp]; decide
    refine moves { s.framers[d.entry.lane] with scan := s.wd.ringAperture[d.entry.lane].expected } hstop rfl l hl hlinked ?_
    rw [framerSettle_stopped (hwait.trans hw) (by rw [hfn]; exact hp), modFramer_withFr, hfn, hwd]

end Complete

theorem ite_or_saturated (p : Prop) [Decidable p] (w : Word) :
    (if p then w else if w = 0xFFFFFFFF then 0xFFFFFFFF else w + 1) = if p ∨ w = 0xFFFFFFFF then w else w + 1 := by
  by_cases hp : p
  · simp [hp]
  · by_cases hw : w = 0xFFFFFFFF
    · subst hw; simp
    · simp only [hp, hw, if_false, or_self]

/-- Of what an expansion leaves, the end of its decode looks at nothing. -/
theorem decodeEnded_expanded {u : State} {k : SlotId} {s : State} {o : Option DecodeOperation} {bs : List Byte} {c : Word}
    {v : Vector RestoreSlot 8} (hde : u.de = { s.de with operation := o, buffer := bs, outputCheck := c, slots := v })
    (hlive : u.jt.jobs[k].live = s.jt.jobs[k].live) (hstate : u.jt.jobs[k].record.state = s.jt.jobs[k].record.state) :
    decodeEnded u k = { decodeEnded s k with buffer := bs, outputCheck := c, slots := v } := by
  unfold decodeEnded
  rw [hde, hlive, hstate]
  dsimp only
  split <;> rfl

/-- Settles O46. -/
theorem decodeProceeds : Obligations.DecodeProceeds := by
  refine ⟨fun s e rest l hs ho hd hq hh hl => ?_, ?_, fun s hs h => runStep_next s _ decodeTake hs (decodeTake_busy h), ?_⟩
  · refine runStep_next s _ decodeTake hs ?_
    rw [decodeTake_takes ho hd hq hl]
    exact freedPlaces_none (s := tookEntry s l e rest) hh
  · intro s e rest m a k l hs ho hd hq hlen hh hl ha hk hp hw hv hlast job taken
    have htake := decodeTake_admits ho hd hq hlen hh hl ha hk hw hlast
    refine ⟨fun hf => ?_, fun w hf hstage hcursor h7 => ?_⟩
    · rw [hf] at htake
      refine exec_settles (u := taken) (g := decodeTake) hs rfl (htake.trans ?_) hl hw hp hv rfl
      unfold continueFrame
      rw [runFrame_none _ (by rw [withFr_framer]; exact hf)]
      rfl
    · rw [hf] at htake
      refine exec_settles (u := taken) (g := decodeTake) hs rfl (htake.trans ?_) hl hw hp hv rfl
      exact congrArg (framerSettle m) (runFrame_usedUp (s := taken) (f := { s.framers[m] with assembler := .atHeader }) (w := w) 597
        hf rfl hv hw hstage hcursor h7)
  · intro s d hs ho hr e n input x check result counters below de after completes
    have hx : expandSegment d.entry.header.mode d.entry.header.rawLength (s.decodeInput d) = x := rfl
    clear_value x
    have hresult : resultOf d x = result := by
      simp only [result, resultOf, expansionResult, crcStart]
      cases x.fault <;> rfl
    have hcompletes (u : DecodeEngine) (h : settledBelow d (resulted s d x) = after u) : completes (after u) :=
      expansion_completes hs ho hr hx rfl h
    have hslots : (resulted s d x).de.slots[e.slot].expected = s.de.slots[e.slot].expected := by
      unfold resulted
      rw [countDecode_eq]
      split
      · rfl
      · dsimp only
        split
        · rfl
        · exact (congrArg RestoreSlot.expected (Vector.getElem_set_self e.slot.isLt)).trans rfl
    have hkept (hd : d.discard = false) : resulted s d x =
        after { s.de with operation := some (.decode { d with result := some result, check := check }) } := by
      simp only [resulted, hd, Bool.false_eq_true, if_false, false_or, countDecode_eq, hresult, satInc_eq, after, de]
      rw [ite_or_saturated]
      rfl
    have hended {u : State} (hu : resulted s d x = u) := settledBelow_congr (d := d) (u := resulted s d x) (v := u) (by rw [hu]) (by rw [hu])
    refine ⟨fun hd => hcompletes _ ?_, fun hd hb => hcompletes _ ?_, fun hd hb => hcompletes _ ?_⟩
    · rw [hended rfl, if_neg (by simp [hd])]
      simp only [resulted, after, de, hd, true_or, if_true]
      rfl
    · rw [hended rfl, hslots, if_neg fun h => hb h.2]
      exact hkept hd
    · rw [hended rfl, hslots, if_pos ⟨hd, hb⟩, hkept hd]
      let kept := after { s.de with operation := some (.decode { d with result := some result, check := check }) }
      have hjob : kept.jt.jobs[e.slot].live = s.jt.jobs[e.slot].live
          ∧ kept.jt.jobs[e.slot].record.state = s.jt.jobs[e.slot].record.state := by
        simp only [kept, after, hd, Bool.false_eq_true, if_false, Fin.getElem_fin, Vector.getElem_set_self, and_self]
      exact congrArg (fun u => ({ kept with de := u } : State)) (decodeEnded_expanded (u := kept) (s := s) rfl hjob.1 hjob.2)

end Sys2Proof.Proofs.Decoding
end

section
/-! PROOFS. An accepted frame and what becomes of it (R107 to R116): the ways in which it ends. -/
namespace Sys2Proof.Proofs.Framers
open Sys2Proof Sys2Proof.Machine Sys2Proof.Safety Sys2Proof.Laws

/-- A frame that a FRAME_TAKE accepts: the state before, the lane, the slot of its job, the layout, the Framer once the payload
has entered the group check, the frame's name, and whether it is a slip. -/
structure TakenFrame where
  s : State
  n : LaneId
  k : SlotId
  l : Layout
  b : Framer
  y : FrameName
  slip : Bool

theorem withFramer_eq_self (a : Framer) {x : Word} (hf : a.frame = none) (hs : a.scan = x) :
    { a with frame := none, scan := x } = a := by
  subst hs
  rw [← hf]

theorem recomputeConsumed_reports {n : LaneId} {v : State} (re : RequestEngine) :
    recomputeConsumed n { v with re := re } = { recomputeConsumed n v with re := re } := by
  unfold recomputeConsumed
  dsimp only
  split <;> rfl

namespace TakenFrame
variable (c : TakenFrame)

def f : Framer := c.s.framers[c.n]
def header : List Byte := ringBytes c.s.mem c.l.rings[c.n] c.f.scan 20
def opens : Nat := fieldNat c.header 12 2
def dataEnd : Nat := 4076 - fieldNat c.header 17 2
def recorded : Word := BitVec.ofNat 32 (fieldNat c.header 8 4)
def job : JobRecord := c.s.jt.jobs[c.k].record
def raised (w : Word) : Word := if w = 0xFFFFFFFF then 0xFFFFFFFF else w + 1

/-- The frame at an offset of its payload, at a stage. -/
def work (i : Nat) (stage : FrameStage) : FrameWork :=
  { position := c.f.scan, name := c.y, firstSegment := c.opens, dataEnd := c.dataEnd, recorded := c.recorded, slip := c.slip
    cursor := i, stage := stage }

/-- The Framer once the frame is finished. -/
def after (a : Assembler) : Framer := { c.b with
  expected := some c.y.next, missCount := 0, firstMissed := none, lastAccepted := some c.y, scan := c.f.scan + 4096
  assembler := a }

/-- The Framer in the middle of the frame. -/
def amid (a : Framer) (w : FrameWork) : Framer := { a with scan := c.f.scan, frame := some w }

/-- FRAME_TAKE leaves the state given, with the Framer given and its marks recomputed. -/
def goes (u : State) (a : Framer) : Prop := ∃ t, exec (.frameTake c.n) c.s = .next t ∧ framerMoves c.s u t c.l c.n a

/-- FRAME_TAKE comes to the end of its event in a state. -/
def Reaches (x : State) : Prop := ∃ e, exec (.frameTake c.n) c.s = .next (withStale e (framerSettle c.n x))

def posts (u : State) (reports : List Report) : State := { u with re := { u.re with backlog := u.re.backlog ++ reports } }
def recording (u : State) (r : JobRecord) : State := { u with
  jt := { u.jt with jobs := u.jt.jobs.set c.k { u.jt.jobs[c.k] with record := r } } }

/-- The frame's end, with the group check at frame 7 (R109, R110). -/
def ends (u : State) (a : Framer) : Prop :=
  (c.y.index ≠ 7 ∨ (∀ g, c.b.groupInHand = some g → g.group ≠ c.y.group) → c.goes u a)
  ∧ ∀ g, c.b.groupInHand = some g → c.y.index = 7 → g.group = c.y.group →
    let settled : Framer := { a with groupInHand := none, lastSettled := some c.y.group }
    let checked : Framer := { settled with groupsChecked := raised c.b.groupsChecked }
    let job' := u.jt.jobs[c.k].record
    let failed (more : List Report) : State := posts
      (c.recording u { job' with counters := { job'.counters with
        groupCheckFailures := raised job'.counters.groupCheckFailures } })
      (.groupCheckFail c.n c.job.tag c.y.group (~~~ g.check) c.recorded c.f.scan :: more)
    (g.accumulating = false → c.goes u { settled with groupsUnchecked := raised c.b.groupsUnchecked })
    ∧ (g.accumulating = true → ~~~ g.check = c.recorded → c.goes u { checked with failures := 0 })
    ∧ (g.accumulating = true → ~~~ g.check ≠ c.recorded → c.f.failures = 0 → u.re.hasRoom = true →
      c.goes (failed []) { checked with failures := 1 })
    ∧ (g.accumulating = true → ~~~ g.check ≠ c.recorded → c.f.failures = 1 → roomFor u 2 →
      c.goes (failed [.lockLost c.n c.job.tag .checks (c.f.scan + 1) c.y.group 7]) { checked with
        assembler := .waitStart, failures := 0, sync := .search, scan := c.f.scan + 1, expected := none
        locksLost := raised c.f.locksLost })

/-- What the frame's Framer brings along. -/
structure Ok : Prop where
  runs : running c.s
  layout : c.s.wd.layout = some c.l
  noPost : c.s.waiting (.framer c.n) = false
  active : c.job.state = .active
  phase : c.b.phase = .taking
  slot : c.b.slot = some c.k
  notPast : c.b.pastLast = false
  frame : c.b.frame = none
  consumed : c.b.consumed = c.f.consumed
  failures : c.b.failures = c.f.failures
  faults : c.b.segmentFaults = c.f.segmentFaults
  locks : c.b.locksLost = c.f.locksLost

/-- A state on the way from which the frame can still be finished. -/
structure Steady (u : State) : Prop where
  layout : u.wd.layout = some c.l
  noPost : u.waiting (.framer c.n) = false
  active : u.jt.jobs[c.k].record.state = .active
  tag : u.jt.jobs[c.k].record.tag = c.job.tag

variable {c}

/-- A Framer in the middle of the frame goes on with it. -/
theorem goesOn_amid {u : State} (a : Framer) (w : FrameWork) (hu : u.waiting (.framer c.n) = false) (hh : ∀ x, a.assembler ≠ .hold x)
    (hv : a.pastLast = false) : GoesOn (withFr c.n (c.amid a w) u) c.n w :=
  goesOn_withFr (c.amid a w) rfl hu hh hv

theorem goes_of_settled {u : State} {a : Framer} (hu : c.Steady u) (h : c.Reaches (withFr c.n a u)) (hp : a.phase = .taking)
    (hv : a.pastLast = false) (hc : a.consumed = c.f.consumed) : c.goes u a :=
  next_settles h hu.layout hu.noPost hp hv hc

/-- The frame is finished with lock kept. -/
theorem goes_of_finish {u : State} {a : Framer} {m i : Nat} (hu : c.Steady u) (hp : a.phase = .taking) (hv : a.pastLast = false)
    (hc : a.consumed = c.f.consumed) (hh : ∀ x, a.assembler ≠ .hold x) (hf : a.frame = none) (hs : a.scan = c.f.scan + 4096)
    (h : c.Reaches (runFrame c.n (m + 1) (withFr c.n (c.amid a (c.work i (.finish false))) u))) : c.goes u a := by
  rw [runFrame_finish (goesOn_amid a (c.work i (.finish false)) hu.noPost hh hv) (lost := false) rfl, finishFrame_kept] at h
  have he : ({ c.amid a (c.work i (.finish false)) with frame := none, scan := c.f.scan + 4096 } : Framer) = a :=
    withFramer_eq_self a hf hs
  exact goes_of_settled hu (by rw [← he]; exact h) hp hv hc

/-- A Framer that ends the frame, but for its count of segment faults. -/
def ending (c : TakenFrame) (a : Assembler) (faults : Word) : Framer := { c.after a with segmentFaults := faults }

theorem hasRoom_of_roomFor {u : State} {m : Nat} (h : roomFor u (m + 1)) : u.re.hasRoom = true := by
  obtain ⟨hw, hb⟩ := h
  unfold RequestEngine.hasRoom RequestEngine.used
  rw [hw, decide_eq_true_eq, List.length_nil]
  split <;> omega

theorem hasRoom_of_posted {u v : State} {r : Report} {m : Nat} (h : roomFor u (m + 2))
    (hre : v.re = { u.re with backlog := u.re.backlog ++ [r] } := by rfl) : v.re.hasRoom = true := by
  obtain ⟨hw, hb⟩ := h
  refine hasRoom_of_roomFor (m := m) ⟨by rw [hre]; exact hw, ?_⟩
  rw [hre, List.length_append, List.length_singleton]
  omega

/-- A Framer that is to end the frame once its group is settled. -/
structure Finishing (c : TakenFrame) (e : Framer) : Prop where
  phase : e.phase = .taking
  slot : e.slot = some c.k
  notPast : e.pastLast = false
  consumed : e.consumed = c.f.consumed
  frame : e.frame = none
  notHeld : ∀ x, e.assembler ≠ .hold x
  scan : e.scan = c.f.scan + 4096
  hand : e.groupInHand = c.b.groupInHand
  checked : e.groupsChecked = c.b.groupsChecked
  unchecked : e.groupsUnchecked = c.b.groupsUnchecked
  failures : e.failures = c.f.failures
  locks : e.locksLost = c.f.locksLost
  miss : e.missCount = 0
  first : e.firstMissed = none
  last : e.lastAccepted = some c.y

theorem finishing_ending (ok : c.Ok) {a : Assembler} (hh : ∀ x, a ≠ .hold x) (q : Word) : Finishing c (c.ending a q) := by
  unfold ending after
  exact ⟨ok.phase, ok.slot, ok.notPast, ok.consumed, ok.frame, hh, rfl, rfl, rfl, rfl, ok.failures, ok.locks, rfl, rfl, rfl⟩

/-- The state once the group's check has failed, with its report and more. -/
def groupFailed (c : TakenFrame) (u : State) (check : Word) (more : List Report) : State :=
  let job := u.jt.jobs[c.k].record
  posts (c.recording u { job with counters := { job.counters with
    groupCheckFailures := raised job.counters.groupCheckFailures } })
    (.groupCheckFail c.n c.job.tag c.y.group (~~~ check) c.recorded c.f.scan :: more)

theorem steady_groupFailed {u : State} (hu : c.Steady u) (check : Word) (more : List Report) :
    c.Steady (c.groupFailed u check more) := by
  unfold groupFailed recording posts
  refine ⟨hu.layout, hu.noPost, ?_, ?_⟩
  · simp only [Fin.getElem_fin, Vector.getElem_set_self]; exact hu.active
  · simp only [Fin.getElem_fin, Vector.getElem_set_self]; exact hu.tag

theorem settleGroup_groupFailed {u : State} {e : Framer} {g : GroupInHand} {i : Nat} (hu : c.Steady u) (he : Finishing c e)
    (hg : e.groupInHand = some g) (h7 : c.y.index = 7) (hn : g.group = c.y.group) (ha : g.accumulating = true)
    (hc : ~~~ g.check ≠ c.recorded) (hr : u.re.hasRoom = true) :
    settleGroup c.n (c.work i .check) (withFr c.n (c.amid e (c.work i .check)) u) =
      withFr c.n (c.amid { e with
          groupInHand := none, lastSettled := some c.y.group, groupsChecked := raised e.groupsChecked
          failures := e.failures + 1 } (c.work i (.finish (decide (2 ≤ e.failures + 1)))))
        (c.groupFailed u g.check []) := by
  rw [settleGroup_fails (w := c.work i .check) (f := c.amid e (c.work i .check)) hg h7 hn ha hc he.slot hu.active hr, hu.tag]
  simp only [satInc_eq]
  rfl

/-- Lock is lost at the frame's finish. -/
theorem goes_of_lost {u : State} {e : Framer} {m i : Nat} (hu : c.Steady u) (hp : e.phase = .taking) (hv : e.pastLast = false)
    (hslot : e.slot = some c.k) (hc : e.consumed = c.f.consumed) (hh : ∀ x, e.assembler ≠ .hold x) (hl : e.lastAccepted = some c.y) (h7 : c.y.index = 7)
    (hr : u.re.hasRoom = true) (hg : e.groupInHand = none)
    (h : c.Reaches (runFrame c.n (m + 1) (withFr c.n (c.amid e (c.work i (.finish true))) u))) :
    c.goes (posts u [.lockLost c.n c.job.tag .checks (c.f.scan + 1) c.y.group 7]) { e with
      sync := .search, scan := c.f.scan + 1, missCount := 0, firstMissed := none, expected := none, frame := none
      failures := 0, assembler := .waitStart, locksLost := raised e.locksLost } := by
  rw [runFrame_finish (goesOn_amid e (c.work i (.finish true)) hu.noPost hh hv) (lost := true) rfl,
    show finishFrame c.n (c.work i (.finish true)) true _ = loseLock c.n .checks (c.f.scan + 1) _ from if_pos rfl] at h
  have hself : (withFr c.n (c.amid e (c.work i (.finish true))) u).framers[c.n] = c.amid e (c.work i (.finish true)) := withFr_framer
  obtain ⟨g, hsettle, hgroup⟩ := loseLock_settles (s := withFr c.n (c.amid e (c.work i (.finish true))) u) (n := c.n) .checks
    (c.f.scan + 1) hu.layout (by rw [hself]; exact hp) hu.noPost (by rw [hself]; exact hv) hr
  rw [hself] at hsettle hgroup
  have hlast : (c.amid e (c.work i (.finish true))).lastAccepted = some c.y := hl
  have hlost : lostLock .checks (c.f.scan + 1) (c.amid e (c.work i (.finish true))) = { e with
      sync := .search, scan := c.f.scan + 1, missCount := 0, firstMissed := none, expected := none, frame := none
      failures := 0, assembler := .waitStart, locksLost := raised e.locksLost } := by
    have hkept : keptSegment e.assembler = .waitStart := by
      cases ha : e.assembler with
      | hold x => exact absurd ha (hh x)
      | _ => rfl
    unfold lostLock unchecked amid
    simp only [hg, hkept]
    rfl
  have hindex : lostIndex (some c.y) = 7 := by
    change BitVec.ofNat 8 c.y.index.val = 7
    rw [h7]; rfl
  rw [hlast, hgroup c.y hlast, hindex, hlost, framerJob_withFr (f := c.amid e (c.work i (.finish true))) (k := c.k) hslot,
    hu.tag] at hsettle
  unfold Reaches at h
  rw [hsettle] at h
  refine next_moves (f := { e with
      sync := .search, scan := c.f.scan + 1, missCount := 0, firstMissed := none, expected := none, frame := none
      failures := 0, assembler := .waitStart, locksLost := raised e.locksLost })
    (u := posts u [.lockLost c.n c.job.tag .checks (c.f.scan + 1) c.y.group 7]) ?_ hu.layout ?_ hc
  · obtain ⟨b, hb⟩ := h
    refine ⟨b, hb.trans ?_⟩
    simp only [reduceCtorEq, if_false]
    unfold withFr posts
    simp only [Vector.set_set]
  · exact fun hu => by rw [show e.phase = .unbound from hu] at hp; cases hp

/-- Every way in which a frame whose payload is used up ends. -/
theorem ends_of {u : State} {e : Framer} {m i : Nat} (hu : c.Steady u) (he : Finishing c e)
    (h : c.Reaches (runFrame c.n (m + 2) (withFr c.n (c.amid e (c.work i .check)) u))) : c.ends u e := by
  rw [runFrame_check (goesOn_amid e (c.work i .check) hu.noPost he.notHeld he.notPast) rfl] at h
  have kept (v : State) (hv : c.Steady v) (z : Framer) (hp : z.phase = e.phase) (hl : z.pastLast = e.pastLast)
      (hc : z.consumed = e.consumed) (ha : z.assembler = e.assembler) (hf : z.frame = e.frame) (hs : z.scan = e.scan)
      (hr : c.Reaches (runFrame c.n (m + 1) (withFr c.n (c.amid z (c.work i (.finish false))) v))) : c.goes v z :=
    goes_of_finish hv (hp.trans he.phase) (hl.trans he.notPast) (hc.trans he.consumed) (by rw [ha]; exact he.notHeld)
      (hf.trans he.frame) (hs.trans he.scan) hr
  refine ⟨fun hno => ?_, fun g hg h7 hn => ?_⟩
  · rw [settleGroup_other (w := c.work i .check) (f := c.amid e (c.work i .check)) (hno.imp_right fun h g hg => h g (he.hand ▸ hg))] at h
    exact kept u hu e rfl rfl rfl rfl rfl rfl h
  rw [← he.hand] at hg
  rw [← he.checked, ← he.unchecked, ← he.failures, ← he.locks]
  intro settled checked job' failed
  refine ⟨fun ha => ?_, fun ha hc => ?_, fun ha hc hf hr => ?_, fun ha hc hf hr => ?_⟩
  · rw [settleGroup_broken (w := c.work i .check) (f := c.amid e (c.work i .check)) hg h7 hn ha] at h
    exact kept u hu { settled with groupsUnchecked := raised e.groupsUnchecked } rfl rfl rfl rfl rfl rfl h
  · rw [settleGroup_agrees (w := c.work i .check) (f := c.amid e (c.work i .check)) hg h7 hn ha hc] at h
    exact kept u hu { checked with failures := 0 } rfl rfl rfl rfl rfl rfl h
  · rw [settleGroup_groupFailed hu he hg h7 hn ha hc hr, hf] at h
    exact kept _ (steady_groupFailed hu g.check []) { checked with failures := 1 } rfl rfl rfl rfl rfl rfl h
  · rw [settleGroup_groupFailed hu he hg h7 hn ha hc (hasRoom_of_roomFor hr), hf] at h
    have hlost := goes_of_lost (e := { checked with failures := e.failures + 1 }) (steady_groupFailed hu g.check []) he.phase
      he.notPast he.slot he.consumed he.notHeld he.last h7 (hasRoom_of_posted hr) rfl (by rw [hf]; exact h)
    have hposts : posts (c.groupFailed u g.check []) [.lockLost c.n c.job.tag .checks (c.f.scan + 1) c.y.group 7] =
        failed [.lockLost c.n c.job.tag .checks (c.f.scan + 1) c.y.group 7] := by
      unfold groupFailed posts
      simp only [List.append_assoc]
      rfl
    rw [hposts] at hlost
    have hframer : ({ checked with
        sync := .search, scan := c.f.scan + 1, missCount := 0, firstMissed := none, expected := none, frame := none
        failures := 0, assembler := .waitStart, locksLost := raised e.locksLost } : Framer) = { checked with
        assembler := .waitStart, failures := 0, sync := .search, scan := c.f.scan + 1, expected := none
        locksLost := raised e.locksLost } := by
      simp only [checked, settled, he.miss, he.first, he.frame]
    exact hframer ▸ hlost

end TakenFrame

end Sys2Proof.Proofs.Framers
end

section
/-! PROOFS. The assembler's walk through an accepted frame (R112 to R116): faults, the end of the taking, segments one after
another. -/
namespace Sys2Proof.Proofs.Framers
open Sys2Proof Sys2Proof.Machine Sys2Proof.Safety Sys2Proof.Laws

/-! ## The end of the taking (R116) -/

section EndTaking
variable {s : State} {n : LaneId} {k : SlotId} {f : Framer} {l : Layout}

/-- The arrived mark stays as it is when the other marks follow. -/
theorem recomputeConsumed_expected {v : State} :
    (recomputeConsumed n v).wd.ringAperture[n].expected = v.wd.ringAperture[n].expected := by
  unfold recomputeConsumed
  dsimp only
  split
  · rfl
  · exact (congrArg Aperture.expected (Vector.getElem_set_self n.isLt)).trans rfl

/-- A Framer that is TAKING meets its job's end condition: it is STOPPED and the job ENDING. -/
theorem endTaking_settles (hl : s.wd.layout = some l) (hslot : f.slot = some k) (hp : f.phase = .taking)
    (hw : s.waiting (.framer n) = false) (hj : jobTableFree s) (hlive : s.jt.jobs[k].live = true)
    (ha : s.jt.jobs[k].record.state = .active) (hh : n ∉ s.de.holding) (m : Nat) :
    framerSettle n (runFrame n m (endTaking n (withFr n f s))) = recomputeConsumed n { s with
      framers := s.framers.set n (stoppedFramer s.wd.ringAperture[n].expected f)
      jt := { s.jt with jobs := s.jt.jobs.set k { live := true, record := { s.jt.jobs[k].record with state := .ending } } }
      de := { s.de with due := evaluationDue s.de k } } := by
  let v : State := withFr n (stoppedFramer s.wd.ringAperture[n].expected f) s
  have hholding : (s.de.holding.filter fun m => decide (m ≠ n)) = s.de.holding :=
    List.filter_eq_self.mpr fun m hm => decide_eq_true fun e => hh (e ▸ hm)
  have hstop : stopFramer n (withFr n f s) = recomputeConsumed n v := by
    rw [stopFramer_taking (by rw [withFr_framer]; exact hp), withFr_framer]
    refine congrArg (recomputeConsumed n) ?_
    unfold v withFr
    simp only [Vector.set_set, hholding]
  have hjt : (recomputeConsumed n v).jt = s.jt := recomputeConsumed_jt
  have hde : (recomputeConsumed n v).de = s.de := recomputeConsumed_de
  have hre : (recomputeConsumed n v).re = s.re := recomputeConsumed_re
  have htake := takeEndCondition (s := recomputeConsumed n v) (k := k) (by rw [hjt]; exact hlive) (by rw [hjt]; exact ha)
  rw [hjt, hde, show s.de = v.de from rfl, recomputeConsumed_due] at htake
  have hsignal := jobSignals_one (.endCondition k) (recomputeConsumed n v)
    ⟨by rw [State.waiting, hre]; exact hj.1, by rw [hjt]; exact hj.2⟩ _ htake ((congrArg JobTable.held recomputeConsumed_jt).trans hj.2)
  have hend : endTaking n (withFr n f s) = jobSignals [.endCondition k] (recomputeConsumed n v) := by
    unfold endTaking
    rw [withFr_framer, hslot]
    exact congrArg (jobSignals [.endCondition k]) hstop
  generalize hv' : ({ v with jt := _, de := _ } : State) = v' at hsignal
  have hvfr : v'.framers[n] = stoppedFramer s.wd.ringAperture[n].expected f := by rw [← hv']; exact withFr_framer
  obtain ⟨x, hx⟩ := recomputeConsumed_framer (s := v') (n := n)
  have hnone : (recomputeConsumed n v').framers[n].frame = none := by rw [hx, hvfr]; rfl
  have hwait : (recomputeConsumed n v').waiting (.framer n) = false := by
    rw [State.waiting, recomputeConsumed_re, ← hv']; exact hw
  have hphase : (recomputeConsumed n v').framers[n].phase = .stopped := by rw [hx, hvfr]; rfl
  have hexpected : (recomputeConsumed n v').wd.ringAperture[n].expected = s.wd.ringAperture[n].expected :=
    recomputeConsumed_expected.trans (by rw [← hv']; rfl)
  have hscan : (recomputeConsumed n v').modFramer n (fun f => { f with
      scan := (recomputeConsumed n v').wd.ringAperture[n].expected }) = recomputeConsumed n v' := by
    rw [hexpected, modFramer_withFr]
    refine withFr_self ?_
    rw [hx, hvfr]
    rfl
  rw [hend, hsignal, runFrame_none m hnone, framerSettle_stopped hwait hphase, hscan,
    recomputeConsumed_twice (l := l) (by rw [← hv']; exact hl) (by rw [hvfr]; exact fun h => nomatch h), ← hv']
  rfl

end EndTaking

namespace TakenFrame
variable (c : TakenFrame)

/-! ## What the statement says of each step -/

/-- The Framer in the middle of the frame, which has not been finished. -/
def stays (a : Assembler) (i : Nat) (stage : FrameStage) : Framer :=
  { c.after a with scan := c.f.scan, frame := some (c.work i stage) }

def faulted (u : State) (reason : SegmentFaultReason) (position : Word) (name : FrameName) (i : Nat) : Prop :=
  let report : Report := .segmentFault c.n c.job.tag reason position name
  let faults := raised c.f.segmentFaults
  (c.s.re.hasRoom = true → c.ends (posts u [report]) { c.after .waitStart with segmentFaults := faults })
  ∧ (c.s.re.hasRoom = false →
    c.goes { u with re := { c.s.re with waiters := c.s.re.waiters ++ [{ unit := .framer c.n, item := .post report }] } }
      { c.stays .waitStart i .check with segmentFaults := faults })

def stops (u : State) (past : Bool) : Prop := jobTableFree c.s → c.s.jt.jobs[c.k].live = true → c.n ∉ c.s.de.holding →
  c.goes { c.recording u { u.jt.jobs[c.k].record with state := .ending } with
      de := { u.de with due := evaluationDue u.de c.k } }
    { unchecked (c.after .waitStart) with
      phase := .stopped, pastLast := past, scan := c.s.wd.ringAperture[c.n].expected }

/-- A place of the payload in the return stream. -/
def place (i : Nat) : Word := c.f.scan + 20 + BitVec.ofNat 32 i

def gathers (next : State → Nat → Prop) (u : State) (a : Assembly) (i : Nat) : Prop :=
  let available := c.dataEnd - i
  let pieces := if a.wanted ∧ 0 < min a.remaining available then
    a.pieces ++ [{ position := c.place i, length := min a.remaining available }] else a.pieces
  let entry : DecodeEntry := {
    slot := c.k, tag := c.job.tag, kind := c.job.kind, lane := c.n, header := a.header, frame := a.frame, offset := a.offset
    pieces := pieces }
  let joined : State := { u with de := { u.de with queue := u.de.queue ++ [entry] } }
  let last : Prop :=
    c.job.kind = .restore ∧ a.header.tag = c.job.sourceTag ∧ c.job.lastChunk.toNat ≤ a.header.sequence.toNat
  (available < a.remaining → c.dataEnd = 4076 →
    c.ends u (c.after (.collect { a with pieces := pieces, remaining := a.remaining - available })))
  ∧ (available < a.remaining → c.dataEnd ≠ 4076 → c.faulted u .short a.position a.frame c.dataEnd)
  ∧ (a.remaining ≤ available →
    (a.wanted = false → next u (i + a.remaining))
    ∧ (a.wanted = true → u.de.queue.length < 8 → u.de.holding = [] →
      (¬ last → next joined (i + a.remaining)) ∧ (last → c.stops joined false))
    ∧ (a.wanted = true → 8 ≤ u.de.queue.length ∨ u.de.holding ≠ [] →
      c.goes { u with de := { u.de with holding := u.de.holding ++ [c.n] } }
        (c.stays (.hold { a with pieces := pieces, remaining := 0 }) (i + a.remaining) .assemble)))

def judged (next : State → Nat → Prop) (u : State) (i : Nat) : Prop :=
  let header := ringBytes c.s.mem c.l.rings[c.n] (c.place i) 16
  let fields := headerFields header
  let beyond : Prop :=
    c.job.kind = .restore ∧ fields.tag = c.job.sourceTag ∧ c.job.lastChunk.toNat < fields.sequence.toNat
  (i = c.dataEnd → c.ends u (c.after .atNext))
  ∧ (i ≠ c.dataEnd → c.dataEnd < i + 16 → c.faulted u .split (c.place i) c.y i)
  ∧ (∀ reason, i + 16 ≤ c.dataEnd → firstHolds reason (headerFaults header) → c.faulted u reason (c.place i) c.y i)
  ∧ (i + 16 ≤ c.dataEnd → noneHolds (headerFaults header) →
    (beyond → c.stops u false)
    ∧ ∀ wanted : Bool, ¬ beyond → (wanted = true ↔ wantedBy c.job fields) →
      c.gathers next u {
        wanted := wanted, header := fields, frame := c.y, offset := i, position := c.place i, pieces := []
        remaining := fields.storedLength } (i + 16))

/-! ## What each step comes to -/

/-- A state in the middle of the frame: the reports, the memory and the apertures are those before it, and of the job only the
counters have changed. -/
structure Follows (u : State) : Prop where
  re : u.re = c.s.re
  mem : u.mem = c.s.mem
  wd : u.wd = c.s.wd
  held : u.jt.held = c.s.jt.held
  live : u.jt.jobs[c.k].live = c.s.jt.jobs[c.k].live
  holding : u.de.holding = c.s.de.holding
  record : ∃ counters, u.jt.jobs[c.k].record = { c.job with counters := counters }

variable {c}

theorem steady_of_follows (ok : c.Ok) {u : State} (hu : c.Follows u) : c.Steady u := by
  obtain ⟨cs, hrec⟩ := hu.record
  refine ⟨by rw [hu.wd]; exact ok.layout, by rw [State.waiting, hu.re]; exact ok.noPost, ?_, ?_⟩
  · rw [hrec]; exact ok.active
  · rw [hrec]

/-- The state in the middle of the frame, at an offset of the payload, with the assembler given. -/
def amidst (c : TakenFrame) (u : State) (a : Assembler) (i : Nat) : State :=
  withFr c.n (c.amid (c.after a) (c.work i .assemble)) u

theorem goesOn_amidst (ok : c.Ok) {u : State} (hu : c.Follows u) {a : Assembler} (i : Nat) (hh : ∀ x, a ≠ .hold x) :
    GoesOn (c.amidst u a i) c.n (c.work i .assemble) :=
  goesOn_amid (c.after a) _ (steady_of_follows ok hu).noPost hh (by unfold after; exact ok.notPast)

/-- The payload is used up. -/
theorem ends_of_used (ok : c.Ok) {u : State} (hu : c.Follows u) {a : Assembler} {m i : Nat} (hh : ∀ x, a ≠ .hold x)
    (h : c.Reaches (runFrame c.n (m + 2) (withFr c.n (c.amid (c.after a) (c.work i .check)) u))) : c.ends u (c.after a) := by
  have he : c.ending a c.b.segmentFaults = c.after a := by unfold ending after; rfl
  exact he ▸ ends_of (steady_of_follows ok hu) (finishing_ending ok hh c.b.segmentFaults) (he.symm ▸ h)

theorem faulted_of (ok : c.Ok) {u : State} (hu : c.Follows u) {a : Assembler} {m i : Nat} {reason : SegmentFaultReason}
    {position : Word} {name : FrameName}
    (h : c.Reaches (runFrame c.n (m + 2) (segmentFault c.n (c.work i .assemble) reason position name (c.amidst u a i)))) :
    c.faulted u reason position name i := by
  have hs := steady_of_follows ok hu
  have hslot : (c.amid (c.after a) (c.work i .assemble)).slot = some c.k := by unfold amid after; exact ok.slot
  have hfaults : (c.amid (c.after a) (c.work i .assemble)).segmentFaults = c.f.segmentFaults := by
    unfold amid after; exact ok.faults
  refine ⟨fun hr => ?_, fun hr => ?_⟩
  · have hposts := segmentFault_posts (n := c.n) (w := c.work i .assemble) (u := u) reason position name hslot (by rw [hu.re]; exact hr)
    rw [hs.tag, hfaults] at hposts
    unfold amidst at h
    rw [hposts] at h
    refine ends_of (u := posts u _) (e := c.ending .waitStart (raised c.f.segmentFaults)) (m := m) (i := i)
      ⟨hs.layout, hs.noPost, hs.active, hs.tag⟩ (finishing_ending ok (a := .waitStart) (fun _ h => nomatch h) _) h
  · have hwaits := segmentFault_waits (n := c.n) (w := c.work i .assemble) (u := u) reason position name hslot (by rw [hu.re]; exact hr)
    dsimp only at hwaits
    rw [hs.tag, hfaults, hu.re] at hwaits
    unfold amidst at h
    rw [hwaits, ← recomputeConsumed_reports] at h
    generalize hre : ({ c.s.re with waiters := _ } : RequestEngine) = re at h
    have hwait (v : State) (hv : v.re = re) : v.waiting (.framer c.n) = true := by
      rw [State.waiting, hv, ← hre, List.any_append]
      simp
    unfold Reaches at h
    rw [runFrame_rests _ (frameRests_waiting (hwait _ recomputeConsumed_re)),
      framerSettle_waiting (hwait _ recomputeConsumed_re)] at h
    exact next_moves (u := { u with re := re })
      (f := { c.stays .waitStart i .check with segmentFaults := raised c.f.segmentFaults }) h hs.layout
      (by unfold stays after; rw [ok.phase]; exact fun h => nomatch h) (by unfold stays after; exact ok.consumed)

end TakenFrame

end Sys2Proof.Proofs.Framers
end

section
/-! PROOFS. The assembler's walk through an accepted frame, header after header (R112 to R116). -/
namespace Sys2Proof.Proofs.Framers
open Sys2Proof Sys2Proof.Machine Sys2Proof.Safety Sys2Proof.Laws

namespace TakenFrame
variable {c : TakenFrame}

/-- The Framer in the middle of the frame that ends the taking. -/
theorem stoppedFramer_amid (ok : c.Ok) (a : Assembler) (w : FrameWork) (past : Bool) (x : Word) :
    stoppedFramer x { c.amid (c.after a) w with pastLast := past } =
      { unchecked (c.after .waitStart) with phase := .stopped, pastLast := past, scan := x } := by
  unfold stoppedFramer
  rw [unchecked_eq, unchecked_eq]
  unfold amid after
  simp only [ok.frame]

theorem stops_of (ok : c.Ok) {u : State} (hu : c.Follows u) {a : Assembler} {w : FrameWork} {past : Bool} {m : Nat}
    (h : c.Reaches (runFrame c.n m (endTaking c.n (withFr c.n { c.amid (c.after a) w with pastLast := past } u)))) :
    c.stops u past := by
  intro hj hlive hh
  have hs := steady_of_follows ok hu
  have hlive' : u.jt.jobs[c.k].live = true := hu.live.trans hlive
  have hsettles := endTaking_settles (s := u) (n := c.n) (k := c.k) (f := { c.amid (c.after a) w with pastLast := past }) (l := c.l)
    hs.layout (by unfold amid after; exact ok.slot) (by unfold amid after; exact ok.phase) hs.noPost
    ⟨by rw [State.waiting, hu.re]; exact hj.1, hu.held.trans hj.2⟩ hlive' hs.active (by rw [hu.holding]; exact hh) m
  rw [stoppedFramer_amid ok, show u.wd.ringAperture[c.n].expected = c.s.wd.ringAperture[c.n].expected by rw [hu.wd]] at hsettles
  unfold Reaches at h
  rw [hsettles] at h
  refine next_moves (u := { c.recording u { u.jt.jobs[c.k].record with state := .ending } with
    de := { u.de with due := evaluationDue u.de c.k } }) ?_ hs.layout (fun h => nomatch h) ?_
  · obtain ⟨e, he⟩ := h
    have hrecording (r : JobRecord) : c.recording u r =
        { u with jt := { u.jt with jobs := u.jt.jobs.set c.k { live := true, record := r } } } :=
      congrArg (fun b => ({ u with jt := { u.jt with jobs := u.jt.jobs.set c.k { live := b, record := r } } } : State)) hlive'
    refine ⟨e, he.trans ?_⟩
    rw [hrecording]
  · exact (unchecked_consumed (c.after .waitStart)).trans (by unfold after; exact ok.consumed)

theorem amid_notPast (ok : c.Ok) (a : Assembler) (w : FrameWork) :
    { c.amid (c.after a) w with pastLast := false } = c.amid (c.after a) w := by
  unfold amid after
  simp only [ok.notPast]

/-! ## Steps in the middle of the frame -/

theorem amidst_framer {u : State} {a : Assembler} {i : Nat} :
    (c.amidst u a i).framers[c.n] = c.amid (c.after a) (c.work i .assemble) := withFr_framer

theorem setAssembler_amidst {u : State} {a b : Assembler} {i j : Nat} :
    setAssembler c.n (c.work j .assemble) b (c.amidst u a i) = c.amidst u b j := by
  unfold amidst
  rw [setAssembler_withFr]
  unfold amid after
  rfl

theorem setAssembler_used {u : State} {a b : Assembler} {i j : Nat} :
    setAssembler c.n (c.work j .assemble).used b (c.amidst u a i) = withFr c.n (c.amid (c.after b) (c.work j .check)) u := by
  unfold amidst
  rw [setAssembler_withFr]
  unfold amid after
  rfl

theorem runFrame_amidst (ok : c.Ok) {u : State} (hu : c.Follows u) {a : Assembler} {m i : Nat} (hh : ∀ x, a ≠ .hold x) :
    runFrame c.n (m + 1) (c.amidst u a i) = runFrame c.n m (assemblerStep c.n (c.work i .assemble) (c.amidst u a i)) :=
  runFrame_assemble (goesOn_amidst ok hu i hh) rfl m

/-- Fuel enough to walk the payload from an offset on and to finish the frame. -/
def Fuel (c : TakenFrame) (i m : Nat) : Prop := 51 + 2 * (c.dataEnd - i) ≤ 17 * m

/-- The fuel lasts for the frame's check and its finish. -/
theorem fuel_ends {i m : Nat} (h : c.Fuel i m) : ∃ p, m = p + 1 + 2 := ⟨m - 3, by unfold Fuel at h; omega⟩

/-- What is to be shown of every header from which the walk goes on. -/
def Continues (c : TakenFrame) (next : State → Nat → Prop) : Prop :=
  ∀ u i m, c.Follows u → c.Fuel i m → c.Reaches (runFrame c.n m (c.amidst u .atHeader i)) → next u i

/-- The segment that an assembler has once the bytes of this frame are gathered. -/
def gathered (c : TakenFrame) (a : Assembly) (i : Nat) : Assembly := { a with
  pieces := if a.wanted ∧ 0 < min a.remaining (c.dataEnd - i) then
    a.pieces ++ [{ position := c.place i, length := min a.remaining (c.dataEnd - i) }] else a.pieces
  remaining := a.remaining - min a.remaining (c.dataEnd - i) }

theorem gather_eq {u : State} {a : Assembly} {i : Nat} : gather c.n (c.work i .assemble) a (c.amidst u (.collect a) i) =
    if (c.gathered a i).remaining = 0 then
      completeSegment c.n (c.work (i + min a.remaining (c.dataEnd - i)) .assemble) (c.gathered a i) (c.amidst u (.collect a) i)
    else if c.dataEnd = 4076 then
      setAssembler c.n (c.work (i + min a.remaining (c.dataEnd - i)) .assemble).used (.collect (c.gathered a i))
        (c.amidst u (.collect a) i)
    else segmentFault c.n (c.work (i + min a.remaining (c.dataEnd - i)) .assemble) .short a.position a.frame
      (c.amidst u (.collect a) i) := rfl

theorem segmentFault_cursor {u : State} {a : Assembler} {i j : Nat} (reason : SegmentFaultReason) (position : Word) (x : FrameName) :
    segmentFault c.n (c.work j .assemble) reason position x (c.amidst u a i) =
      segmentFault c.n (c.work j .assemble) reason position x (c.amidst u a j) := by
  unfold segmentFault amidst
  simp only [withFr_modFramer, setAssembler_withFr]
  rfl

/-- The entry that a gathered segment offers to the decode queue. -/
def entryOf (c : TakenFrame) (a : Assembly) : DecodeEntry :=
  { slot := c.k, tag := c.job.tag, kind := c.job.kind, lane := c.n, header := a.header, frame := a.frame, offset := a.offset
    pieces := a.pieces }

/-- The state once a segment has joined the decode queue. -/
def joinedBy (u : State) (e : DecodeEntry) : State := { u with de := { u.de with queue := u.de.queue ++ [e] } }

theorem joinQueue_amidst (ok : c.Ok) {u : State} (hu : c.Follows u) {a : Assembler} {i : Nat} (x : Assembly) :
    joinQueue c.n x (c.amidst u a i) = c.amidst (joinedBy u (c.entryOf x)) a i := by
  have hslot : (c.amid (c.after a) (c.work i .assemble)).slot = some c.k := by unfold amid after; exact ok.slot
  obtain ⟨cs, hrec⟩ := hu.record
  have hoffer : (c.amidst u a i).offered c.n c.k x = c.entryOf x := by
    unfold State.offered entryOf
    rw [show (c.amidst u a i).jt.jobs[c.k].record = { c.job with counters := cs } from hrec]
  unfold joinQueue
  rw [amidst_framer, hslot]
  dsimp only
  rw [hoffer]
  rfl

theorem follows_joined {u : State} (hu : c.Follows u) (e : DecodeEntry) : c.Follows (joinedBy u e) :=
  ⟨hu.re, hu.mem, hu.wd, hu.held, hu.live, hu.holding, hu.record⟩

theorem framerJob_amidst (ok : c.Ok) {u : State} (hu : c.Follows u) {a : Assembler} {i : Nat} :
    ∃ cs, (c.amidst u a i).framerJob c.n = { c.job with counters := cs } := by
  obtain ⟨cs, hrec⟩ := hu.record
  exact ⟨cs, (framerJob_withFr (f := c.amid (c.after a) (c.work i .assemble)) (k := c.k) (by unfold amid after; exact ok.slot)).trans hrec⟩

/-- A segment gathered whole. -/
theorem completed_of (ok : c.Ok) {u : State} (hu : c.Follows u) {next : State → Nat → Prop} (hnext : c.Continues next) {a x : Assembly}
    {i j m : Nat} (hm : c.Fuel j m)
    (h : c.Reaches (runFrame c.n m (completeSegment c.n (c.work j .assemble) x (c.amidst u (.collect a) i)))) :
    (x.wanted = false → next u j)
    ∧ (x.wanted = true → u.de.queue.length < 8 → u.de.holding = [] →
      (¬ (c.job.kind = .restore ∧ x.header.tag = c.job.sourceTag ∧ c.job.lastChunk.toNat ≤ x.header.sequence.toNat) →
        next (joinedBy u (c.entryOf x)) j)
      ∧ (c.job.kind = .restore ∧ x.header.tag = c.job.sourceTag ∧ c.job.lastChunk.toNat ≤ x.header.sequence.toNat →
        c.stops (joinedBy u (c.entryOf x)) false))
    ∧ (x.wanted = true → 8 ≤ u.de.queue.length ∨ u.de.holding ≠ [] →
      c.goes { u with de := { u.de with holding := u.de.holding ++ [c.n] } } (c.stays (.hold x) j .assemble)) := by
  unfold completeSegment at h
  have hde : (c.amidst u (.collect a) i).de = u.de := rfl
  refine ⟨fun hw => ?_, fun hw hq hh => ?_, fun hw hfull => ?_⟩
  · rw [hw, if_pos (show (!false) = true from rfl), setAssembler_amidst] at h
    exact hnext u j m hu hm h
  · rw [hw, if_neg (show ¬ (!true) = true by decide), hde, if_pos ⟨hq, hh⟩, joinQueue_amidst ok hu, setAssembler_amidst] at h
    have hjoined := follows_joined hu (c.entryOf x)
    obtain ⟨cs, hjob⟩ := framerJob_amidst ok hjoined (a := .atHeader) (i := j)
    have hends : ((c.amidst (joinedBy u (c.entryOf x)) .atHeader j).framerJob c.n).joinEnds x.header
        = decide (c.job.kind = .restore ∧ x.header.tag = c.job.sourceTag ∧ c.job.lastChunk.toNat ≤ x.header.sequence.toNat) := by
      rw [hjob]
      rfl
    dsimp only at h
    rw [hends] at h
    refine ⟨fun hlast => ?_, fun hlast => ?_⟩
    · rw [decide_eq_false hlast, if_neg Bool.false_ne_true] at h
      exact hnext _ j m hjoined hm h
    · rw [decide_eq_true hlast, if_pos rfl] at h
      refine stops_of ok hjoined (a := .atHeader) (w := c.work j .assemble) (m := m) ?_
      rw [amid_notPast ok]
      exact h
  · have hfull' : ¬ (u.de.queue.length < 8 ∧ u.de.holding = []) := fun ⟨h1, h2⟩ => by
      rcases hfull with h' | h'
      · omega
      · exact h' h2
    rw [hw, if_neg (show ¬ (!true) = true by decide), hde, if_neg hfull', setAssembler_amidst] at h
    have hs := steady_of_follows ok hu
    let held : State := { u with de := { u.de with holding := u.de.holding ++ [c.n] } }
    have hrests : (c.amidst held (.hold x) j).frameRests c.n = true :=
      frameRests_hold (a := x) (congrArg Framer.assembler amidst_framer)
    change c.Reaches (runFrame c.n m (c.amidst held (.hold x) j)) at h
    unfold Reaches at h
    rw [runFrame_rests _ hrests] at h
    exact next_settles (u := { u with de := { u.de with holding := u.de.holding ++ [c.n] } }) (f := c.stays (.hold x) j .assemble)
      h hs.layout hs.noPost (by unfold stays after; exact ok.phase) (by unfold stays after; exact ok.notPast)
      (by unfold stays after; exact ok.consumed)

/-- A segment gathered from its place on. -/
theorem gathers_of (ok : c.Ok) {u : State} (hu : c.Follows u) {next : State → Nat → Prop} (hnext : c.Continues next) {a : Assembly}
    {i m : Nat} (hi : i ≤ c.dataEnd) (hm : c.Fuel (i + a.remaining) m)
    (h : c.Reaches (runFrame c.n (m + 1) (c.amidst u (.collect a) i))) : c.gathers next u a i := by
  have hstep : assemblerStep c.n (c.work i .assemble) (c.amidst u (.collect a) i) =
      gather c.n (c.work i .assemble) a (c.amidst u (.collect a) i) := by
    unfold assemblerStep
    rw [amidst_framer, show (c.amid (c.after (.collect a)) (c.work i .assemble)).assembler = .collect a from rfl]
  rw [runFrame_amidst ok hu (a := .collect a) (fun _ h => nomatch h), hstep, gather_eq] at h
  obtain ⟨p, hp⟩ := fuel_ends hm
  unfold gathers
  intro available pieces entry joined last
  have hrem : (c.gathered a i).remaining = a.remaining - min a.remaining available := rfl
  refine ⟨fun hlt hend => ?_, fun hlt hend => ?_, fun hle => ?_⟩
  · have hmin : min a.remaining available = available := Nat.min_eq_right hlt.le
    rw [if_neg (by rw [hrem, hmin]; omega), if_pos hend, setAssembler_used, hp] at h
    have hends := ends_of_used ok hu (a := .collect (c.gathered a i)) (fun _ h => nomatch h) h
    have hg : c.gathered a i = { a with pieces := pieces, remaining := a.remaining - available } := by
      change ({ a with pieces := pieces, remaining := a.remaining - min a.remaining available } : Assembly) = _
      rw [hmin]
    rwa [hg] at hends
  · have hmin : min a.remaining available = available := Nat.min_eq_right hlt.le
    have hcursor : i + min a.remaining available = c.dataEnd := by rw [hmin]; omega
    rw [if_neg (by rw [hrem, hmin]; omega), if_neg hend, show c.dataEnd - i = available from rfl, hcursor, segmentFault_cursor, hp] at h
    exact faulted_of ok hu h
  · have hmin : min a.remaining available = a.remaining := Nat.min_eq_left hle
    rw [if_pos (by rw [hrem, hmin]; omega), show c.dataEnd - i = available from rfl, hmin] at h
    have hg : c.gathered a i = { a with pieces := pieces, remaining := 0 } := by
      change ({ a with pieces := pieces, remaining := a.remaining - min a.remaining available } : Assembly) = _
      rw [hmin, Nat.sub_self]
    rw [hg] at h
    exact completed_of ok hu hnext hm h

theorem wants_iff (r : JobRecord) (h : SegmentHeader) : r.wants h = true ↔ wantedBy r h := by
  unfold JobRecord.wants wantedBy
  cases hk : r.kind <;> simp

/-- A header at its place. -/
theorem judged_of (ok : c.Ok) {u : State} (hu : c.Follows u) {next : State → Nat → Prop} (hnext : c.Continues next)
    {i m : Nat} (hm : c.Fuel i m) (h : c.Reaches (runFrame c.n m (c.amidst u .atHeader i))) : c.judged next u i := by
  obtain ⟨p, hp⟩ := fuel_ends hm
  have hs := steady_of_follows ok hu
  have hstep : assemblerStep c.n (c.work i .assemble) (c.amidst u .atHeader i) =
      if i = c.dataEnd then setAssembler c.n (c.work i .assemble).used .atNext (c.amidst u .atHeader i)
      else if i + 16 ≤ c.dataEnd then readHeader c.n (c.work i .assemble) (c.amidst u .atHeader i)
      else segmentFault c.n (c.work i .assemble) .split (c.place i) c.y (c.amidst u .atHeader i) := by
    unfold assemblerStep
    rw [amidst_framer, show (c.amid (c.after .atHeader) (c.work i .assemble)).assembler = .atHeader from rfl]
    rfl
  rw [hp, show p + 1 + 2 = p + 2 + 1 from rfl, runFrame_amidst ok hu (a := .atHeader) (fun _ h => nomatch h), hstep] at h
  have hbytes : (c.amidst u .atHeader i).returned c.n (c.place i) 16 = ringBytes c.s.mem c.l.rings[c.n] (c.place i) 16 := by
    rw [returned_eq (s := c.amidst u .atHeader i) (l := c.l) hs.layout, show (c.amidst u .atHeader i).mem = u.mem from rfl, hu.mem]
  obtain ⟨cs, hjob⟩ := framerJob_amidst ok hu (a := .atHeader) (i := i)
  unfold judged
  intro header fields beyond
  refine ⟨fun he => ?_, fun hne hlt => ?_, fun reason hle hfirst => ?_, fun hle hnone => ?_⟩
  · rw [if_pos he, setAssembler_used] at h
    exact ends_of_used ok hu (a := .atNext) (fun _ h => nomatch h) h
  · rw [if_neg hne, if_neg (by omega)] at h
    exact faulted_of ok hu h
  · have hread : readHeader c.n (c.work i .assemble) (c.amidst u .atHeader i) =
        segmentFault c.n (c.work i .assemble) reason (c.place i) c.y (c.amidst u .atHeader i) := by
      unfold readHeader
      dsimp only
      rw [show (c.work i .assemble).position + 20 + BitVec.ofNat 32 (c.work i .assemble).cursor = c.place i from rfl, hbytes,
        ReturnPath.readSegmentHeader_of_firstHolds hfirst]
      rfl
    rw [if_neg (by omega), if_pos hle, hread] at h
    exact faulted_of ok hu h
  · have hends : ((c.amidst u .atHeader i).framerJob c.n).headerEnds fields = decide beyond := by rw [hjob]; rfl
    have hread : readHeader c.n (c.work i .assemble) (c.amidst u .atHeader i) =
        if decide beyond then endTaking c.n (c.amidst u .atHeader i)
        else c.amidst u (.collect {
          wanted := ((c.amidst u .atHeader i).framerJob c.n).wants fields, header := fields, frame := c.y, offset := i
          position := c.place i, pieces := [], remaining := fields.storedLength }) (i + 16) := by
      unfold readHeader
      dsimp only
      rw [show (c.work i .assemble).position + 20 + BitVec.ofNat 32 (c.work i .assemble).cursor = c.place i from rfl, hbytes,
        ReturnPath.readSegmentHeader_of_noneHolds hnone, ← hends]
      dsimp only
      split
      · rfl
      · exact setAssembler_amidst (j := i + 16)
    rw [if_neg (by omega), if_pos hle, hread] at h
    refine ⟨fun hb => ?_, fun wanted hb hw => ?_⟩
    · rw [decide_eq_true hb, if_pos rfl] at h
      refine stops_of ok hu (a := .atHeader) (w := c.work i .assemble) (past := false) (m := p + 2) ?_
      rw [amid_notPast ok]
      exact h
    · have hwants : ((c.amidst u .atHeader i).framerJob c.n).wants fields = wanted := by
        rw [hjob]
        exact Bool.eq_iff_iff.mpr ((wants_iff _ _).trans hw.symm)
      rw [decide_eq_false hb, if_neg Bool.false_ne_true, hwants] at h
      have hstored : 1 ≤ fields.storedLength := by
        obtain ⟨-, -, -, hstored, -⟩ := hnone
        exact Nat.le_of_not_lt fun h => hstored (.inl h)
      refine gathers_of ok hu hnext hle ?_ h
      unfold Fuel at hm ⊢
      dsimp only
      omega

end TakenFrame

end Sys2Proof.Proofs.Framers
end

section
/-! PROOFS. FRAME_TAKE (R107 to R116): misses, repeats, slips and expected frames. -/
namespace Sys2Proof.Proofs.Framers
open Sys2Proof Sys2Proof.Machine Sys2Proof.Safety Sys2Proof.Laws

namespace TakenFrame
variable {c : TakenFrame}

/-- The walk goes on from every header, however many there are. -/
theorem unrolled_of (ok : c.Ok) : ∀ depth, c.Continues (unrolled c.judged depth)
  | 0 => fun _ _ _ _ _ _ => trivial
  | depth + 1 => fun _ _ _ hu hm h => judged_of ok hu (unrolled_of ok depth) hm h

theorem dataEnd_le (c : TakenFrame) : c.dataEnd ≤ 4076 := Nat.sub_le _ _

/-- A segment that begins in the frame is awaited. -/
theorem waitStart_of (ok : c.Ok) {u : State} (hu : c.Follows u) {m : Nat} (hm : 599 ≤ m)
    (h : c.Reaches (runFrame c.n m (c.amidst u .waitStart 0))) :
    (c.opens = 0xFFFF → c.ends u (c.after .waitStart))
      ∧ ∀ depth, c.opens ≠ 0xFFFF → unrolled c.judged depth u c.opens := by
  obtain ⟨p, rfl⟩ : ∃ p, m = p + 2 + 1 := ⟨m - 3, by omega⟩
  have hstep : assemblerStep c.n (c.work 0 .assemble) (c.amidst u .waitStart 0) =
      if c.opens = 0xFFFF then setAssembler c.n (c.work 0 .assemble).used .waitStart (c.amidst u .waitStart 0)
      else setAssembler c.n (c.work c.opens .assemble) .atHeader (c.amidst u .waitStart 0) := by
    unfold assemblerStep
    rw [amidst_framer, show (c.amid (c.after .waitStart) (c.work 0 .assemble)).assembler = .waitStart from rfl]
    rfl
  rw [runFrame_amidst ok hu (a := .waitStart) (fun _ h => nomatch h), hstep] at h
  refine ⟨fun ho => ?_, fun depth ho => ?_⟩
  · rw [if_pos ho, setAssembler_used] at h
    exact ends_of_used ok hu (a := .waitStart) (fun _ h => nomatch h) h
  · rw [if_neg ho, setAssembler_amidst] at h
    refine unrolled_of ok depth u _ _ hu ?_ h
    have := c.dataEnd_le
    unfold Fuel
    omega

/-- What the assembler does with the frame, from the state it is in. -/
theorem walk_of (ok : c.Ok) {base : State} (hu : c.Follows base) {start : Assembler}
    (h : c.Reaches (runFrame c.n frameFuel (c.amidst base start 0))) :
    (start = .waitStart ∨ (start = .atNext ∧ c.dataEnd ≠ 0) → c.opens = 0xFFFF → c.ends base (c.after .waitStart))
      ∧ (start = .atNext → c.dataEnd = 0 → c.ends base (c.after .atNext))
      ∧ (∀ depth, c.opens ≠ 0xFFFF → start = .waitStart ∨ (start = .atNext ∧ c.dataEnd ≠ 0) →
        unrolled c.judged depth base c.opens)
      ∧ ∀ (a : Assembly) (depth : Nat), start = .collect a → c.gathers (unrolled c.judged depth) base a 0 := by
  have hend := c.dataEnd_le
  have hnext (hs : start = .atNext) : c.Reaches (runFrame c.n 599
      (if c.dataEnd = 0 then setAssembler c.n (c.work 0 .assemble).used .atNext (c.amidst base .atNext 0)
      else if c.opens = 0 then c.amidst base .atHeader 0
      else c.amidst base .waitStart 0)) := by
    subst hs
    have hstep : assemblerStep c.n (c.work 0 .assemble) (c.amidst base .atNext 0) =
        if c.dataEnd = 0 then setAssembler c.n (c.work 0 .assemble).used .atNext (c.amidst base .atNext 0)
        else if c.opens = 0 then setAssembler c.n (c.work 0 .assemble) .atHeader (c.amidst base .atNext 0)
        else setAssembler c.n (c.work 0 .assemble) .waitStart (c.amidst base .atNext 0) := by
      unfold assemblerStep
      rw [amidst_framer, show (c.amid (c.after .atNext) (c.work 0 .assemble)).assembler = .atNext from rfl]
      rfl
    rw [show frameFuel = 599 + 1 from rfl, runFrame_amidst ok hu (a := .atNext) (fun _ h => nomatch h), hstep,
      setAssembler_amidst, setAssembler_amidst] at h
    exact h
  have hwait (hs : start = .waitStart ∨ (start = .atNext ∧ c.dataEnd ≠ 0)) (ho : c.opens ≠ 0 ∨ start = .waitStart) :
      ∃ m, 599 ≤ m ∧ c.Reaches (runFrame c.n m (c.amidst base .waitStart 0)) := by
    rcases hs with rfl | ⟨hs, hd⟩
    · exact ⟨600, by omega, h⟩
    · rcases ho with ho | ho
      · have h' := hnext hs
        rw [if_neg hd, if_neg ho] at h'
        exact ⟨599, Nat.le_refl _, h'⟩
      · rw [hs] at ho; cases ho
  refine ⟨fun hs ho => ?_, fun hs hd => ?_, fun depth ho hs => ?_, fun a depth hs => ?_⟩
  · obtain ⟨m, hm, hr⟩ := hwait hs (.inl (by rw [ho]; decide))
    exact (waitStart_of ok hu hm hr).1 ho
  · have h' := hnext hs
    rw [if_pos hd, setAssembler_used] at h'
    exact ends_of_used ok hu (a := .atNext) (m := 597) (fun _ h => nomatch h) h'
  · by_cases hzero : c.opens ≠ 0 ∨ start = .waitStart
    · obtain ⟨m, hm, hr⟩ := hwait hs hzero
      exact (waitStart_of ok hu hm hr).2 depth ho
    · obtain ⟨h0, hw⟩ := not_or.mp hzero
      obtain ⟨hs, hd⟩ := hs.resolve_left hw
      have h' := hnext hs
      rw [if_neg hd, if_pos (not_not.mp h0)] at h'
      rw [not_not.mp h0]
      exact unrolled_of ok depth base 0 599 hu (by unfold Fuel; omega) h'
  · subst hs
    exact gathers_of ok hu (m := 599) (unrolled_of ok depth) (Nat.zero_le _) (by unfold Fuel; omega) h

/-- A VERIFY job's frame beyond its last group ends the taking. -/
theorem past_of (ok : c.Ok) {base : State} (hu : c.Follows base) {start : Assembler} (hk : c.job.kind = .verify)
    (hs : start = .waitStart ∨ start = .atNext)
    (h : c.Reaches (runFrame c.n frameFuel (withFr c.n { c.amid (c.after start) (c.work 0 .assemble) with pastLast := true } base))) :
    c.stops base true := by
  have hst := steady_of_follows ok hu
  let f : Framer := { c.amid (c.after start) (c.work 0 .assemble) with pastLast := true }
  have hslot : f.slot = some c.k := by unfold f amid after; exact ok.slot
  have hphase : f.phase = .taking := by unfold f amid after; exact ok.phase
  have hasm : f.assembler = start := rfl
  have hframe : (withFr c.n f base).framers[c.n] = f := withFr_framer
  have hrests : (withFr c.n f base).frameRests c.n = false :=
    frameRests_free hst.noPost (by rw [hframe, hasm]; rcases hs with rfl | rfl <;> exact fun _ h => nomatch h)
  have hended : (withFr c.n f base).verifyEnded c.n = true := by
    obtain ⟨cs, hrec⟩ := hu.record
    have hjob : (withFr c.n f base).framerJob c.n = { c.job with counters := cs } := (framerJob_withFr hslot).trans hrec
    have hholds : f.holds = false := by
      unfold Framer.holds
      rw [hasm]
      rcases hs with rfl | rfl <;> rfl
    have hpast : f.pastLast = true := rfl
    unfold State.verifyEnded
    rw [hjob, hframe, hphase, hholds, hpast, show ({ c.job with counters := cs } : JobRecord).kind = c.job.kind from rfl, hk]
    rfl
  have hrun : runFrame c.n frameFuel (withFr c.n f base) = endTaking c.n (withFr c.n f base) := by
    rw [show frameFuel = 599 + 1 from rfl]
    unfold runFrame
    rw [hframe, show f.frame = some (c.work 0 .assemble) from rfl, hrests, hended]
    rfl
  rw [hrun] at h
  exact stops_of ok hu (m := 0) (a := start) (w := c.work 0 .assemble) h

end TakenFrame

end Sys2Proof.Proofs.Framers
end

section
/-! PROOFS. FRAME_TAKE, whole (R107 to R116). -/
namespace Sys2Proof.Proofs.Framers
open Sys2Proof Sys2Proof.Machine Sys2Proof.Safety Sys2Proof.Laws
open Sys2Proof.Proofs.Restore (satAdd_eq)

/-- The group check looks at and changes the group in hand, the last settled group and the count of unchecked groups. -/
theorem grouped_eq {f g : Framer} (x : FrameName) (slip : Bool) (payload : List Byte) (h1 : g.lastSettled = f.lastSettled)
    (h2 : g.groupInHand = f.groupInHand) (h3 : g.groupsUnchecked = f.groupsUnchecked) :
    grouped g x slip payload = { g with
      groupInHand := (grouped f x slip payload).groupInHand, lastSettled := (grouped f x slip payload).lastSettled
      groupsUnchecked := (grouped f x slip payload).groupsUnchecked } := by
  unfold grouped
  rw [h1, h2, h3]
  cases f.lastSettled.any fun z => decide ((x.group - z).toInt ≤ 0) with
  | true => simp only [← h1, ← h2, ← h3]
  | false =>
    cases f.groupInHand with
    | none => simp only [← h1, ← h3]
    | some g => by_cases hg : g.group = x.group <;> simp only [hg, if_true, if_false, ← h1, ← h3]

namespace TakenFrame
variable {c : TakenFrame}

/-- Everything that is said of an accepted frame. -/
theorem run_of (ok : c.Ok) {base : State} (hu : c.Follows base) {start : Assembler} {past : Bool}
    (hpast : past = (decide (c.job.kind = .verify) && groupLater c.y.group c.job.lastGroup))
    (h : c.Reaches (runFrame c.n frameFuel (withFr c.n { c.amid (c.after start) (c.work 0 .assemble) with pastLast := past } base))) :
    ((c.job.kind = .verify → (c.y.group - c.job.lastGroup).toInt ≤ 0) →
      (start = .waitStart ∨ (start = .atNext ∧ c.dataEnd ≠ 0) → c.opens = 0xFFFF → c.ends base (c.after .waitStart))
      ∧ (start = .atNext → c.dataEnd = 0 → c.ends base (c.after .atNext))
      ∧ (∀ depth, c.opens ≠ 0xFFFF → start = .waitStart ∨ (start = .atNext ∧ c.dataEnd ≠ 0) →
        unrolled c.judged depth base c.opens)
      ∧ ∀ (a : Assembly) (depth : Nat), start = .collect a → c.gathers (unrolled c.judged depth) base a 0)
    ∧ (c.job.kind = .verify → 0 < (c.y.group - c.job.lastGroup).toInt → start = .waitStart ∨ start = .atNext →
      c.stops base true) := by
  have hflag : past = true ↔ c.job.kind = .verify ∧ 0 < (c.y.group - c.job.lastGroup).toInt := by
    rw [hpast, Bool.and_eq_true, decide_eq_true_eq, groupLater, decide_eq_true_eq]
  refine ⟨fun hw => walk_of ok hu ?_, fun hk hlate hs => past_of ok hu hk hs ?_⟩
  · have hfalse : past = false := Bool.eq_false_iff.mpr fun hp => by
      obtain ⟨hk, hlate⟩ := hflag.mp hp
      have := hw hk
      omega
    rw [hfalse, amid_notPast ok] at h
    exact h
  · rw [hflag.mpr ⟨hk, hlate⟩] at h
    exact h

/-- The Framer in the middle of an accepted frame, its payload in the group check. -/
theorem groupFrame_accepted {u : State} {g : Framer} {payload : List Byte} {start : Assembler} {past : Bool}
    (hb : c.b = grouped g c.y c.slip payload) (hs : g.scan = c.f.scan) :
    groupFrame c.n c.y c.slip payload (withFr c.n { g with
        expected := some c.y.next, missCount := 0, firstMissed := none, lastAccepted := some c.y, pastLast := past
        frame := some (c.work 0 .assemble), assembler := start } u) =
      withFr c.n { c.amid (c.after start) (c.work 0 .assemble) with pastLast := past } u := by
  rw [groupFrame_eq, withFr_modFramer]
  refine congrArg (fun f => withFr c.n f u) (Eq.trans (grouped_eq (f := g) _ _ _ (by rfl) (by rfl) (by rfl)) ?_)
  unfold amid after
  rw [hb, grouped_eq (f := g) (g := g) _ _ _ rfl rfl rfl, ← hs]

end TakenFrame

section Frames
variable {s : State} {n : LaneId} {k : SlotId} {x : FrameName} {l : Layout}

/-- What FRAME_TAKE finds in the stream. -/
theorem frameTake_eq (hf : FramerFree s n) (hl : s.wd.layout = some l) (hsync : s.framers[n].sync = .locked)
    (hx : s.framers[n].expected = some x) (hh : ∀ y, s.framers[n].assembler ≠ .hold y)
    (ha : 4096 ≤ (s.wd.ringAperture[n].expected - s.framers[n].scan).toNat) :
    frameTake n s =
      let h := ringBytes s.mem l.rings[n] s.framers[n].scan 20
      if !headerGood h then missFrame n s
      else if headerName h = x then acceptFrame n h none s
      else if x.later (headerName h) then acceptFrame n h (some (x.distance (headerName h)).toNat) s
      else repeatFrame n s := by
  unfold frameTake
  rw [synchronizing_free hf, hsync, frameRests_free hf.noPost hh, (arrived_iff 4096).mpr ha, hx, returned_eq hl]
  rfl

theorem framerCount_bound (g : Counters → Counters) (hslot : s.framers[n].slot = some k)
    (hactive : s.jt.jobs[k].record.state = .active) : framerCount n g s = s.modCounters k g := by
  unfold framerCount
  rw [hslot]
  exact if_pos hactive

/-- A miss: the Framer, before the scan mark moves or lock is lost. -/
def missedFramer (f : Framer) : Framer := { f.breakGroup with
  assembler := .waitStart
  expected := f.expected.map fun x => x.next
  firstMissed := some (if f.missCount = 0 then f.scan else f.firstMissed.getD f.scan)
  missCount := f.missCount + 1 }

theorem missFrame_eq (hslot : s.framers[n].slot = some k) (hactive : s.jt.jobs[k].record.state = .active) :
    missFrame n s =
      let u := s.modCounters k fun c => { c with framesMissed := satInc c.framesMissed }
      if s.re.laneSettings[n].lossThreshold ≤ s.framers[n].missCount + 1 then
        framerSettle n (loseLock n .misses ((missedFramer s.framers[n]).firstMissed.getD s.framers[n].scan + 1)
          (withFr n (missedFramer s.framers[n]) u))
      else framerSettle n (withFr n { missedFramer s.framers[n] with scan := s.framers[n].scan + 4096 } u) := by
  unfold missFrame
  dsimp only
  rw [framerCount_bound (k := k) _ hslot hactive]
  have hmissed : (s.modCounters k fun c => { c with framesMissed := satInc c.framesMissed }).modFramer n (fun f => { f.breakGroup with
      assembler := .waitStart, expected := f.expected.map fun x => x.next,
      firstMissed := some (if f.missCount = 0 then f.scan else f.firstMissed.getD f.scan), missCount := f.missCount + 1 }) =
        withFr n (missedFramer s.framers[n]) (s.modCounters k fun c => { c with framesMissed := satInc c.framesMissed }) := rfl
  rw [hmissed]
  simp only [withFr_framer, withFr_modFramer]
  rfl

/-- The state once a slip of some distance, or none, has been counted and has broken the group in hand. -/
def slipped (n : LaneId) (slip : Option Nat) (s : State) : State :=
  match slip with
  | none => s
  | some d => (framerCount n (fun c => { c with slips := satAdd c.slips d }) s).modFramer n fun f =>
    { f.breakGroup with assembler := .waitStart }

/-- An accepted frame from there on. -/
def acceptIn (n : LaneId) (h : List Byte) (slip : Bool) (payload : List Byte) (q : Word) (s : State) : State :=
  let name := headerName h
  let past := decide ((s.framerJob n).kind = .verify) && groupLater name.group (s.framerJob n).lastGroup
  continueFrame n (groupFrame n name slip payload (s.modFramer n fun f => { f with
    expected := some name.next, missCount := 0, firstMissed := none, lastAccepted := some name
    pastLast := f.pastLast || past
    frame := some {
      position := q, name := name, firstSegment := fieldNat h 12 2, dataEnd := 4076 - fieldNat h 17 2
      recorded := leWord ((h.drop 8).take 4), slip := slip, cursor := 0, stage := .assemble } }))

theorem acceptFrame_eq (h : List Byte) (slip : Option Nat) : acceptFrame n h slip s =
    acceptIn n h slip.isSome (s.returned n (s.framers[n].scan + 20) 4076) s.framers[n].scan (slipped n slip s) := by
  cases slip <;> rfl

section Takes
variable (hf : FramerFree s n) (hl : s.wd.layout = some l) (hsync : s.framers[n].sync = .locked)
  (hx : s.framers[n].expected = some x) (hh : ∀ y, s.framers[n].assembler ≠ .hold y)
  (ha : 4096 ≤ (s.wd.ringAperture[n].expected - s.framers[n].scan).toNat)
include hf hl hsync hx hh ha

theorem frameTake_misses (hbad : headerGood (ringBytes s.mem l.rings[n] s.framers[n].scan 20) = false) :
    frameTake n s = missFrame n s :=
  (frameTake_eq hf hl hsync hx hh ha).trans (if_pos (by rw [hbad]; rfl))

variable (hgood : headerGood (ringBytes s.mem l.rings[n] s.framers[n].scan 20) = true)
include hgood

theorem frameTake_good : frameTake n s =
    let h := ringBytes s.mem l.rings[n] s.framers[n].scan 20
    if headerName h = x then acceptFrame n h none s
    else if x.later (headerName h) then acceptFrame n h (some (x.distance (headerName h)).toNat) s
    else repeatFrame n s :=
  (frameTake_eq hf hl hsync hx hh ha).trans (if_neg (by rw [hgood]; decide))

theorem frameTake_expects (hname : headerName (ringBytes s.mem l.rings[n] s.framers[n].scan 20) = x) :
    frameTake n s = acceptIn n (ringBytes s.mem l.rings[n] s.framers[n].scan 20) false
      (ringBytes s.mem l.rings[n] (s.framers[n].scan + 20) 4076) s.framers[n].scan s := by
  rw [frameTake_good hf hl hsync hx hh ha hgood]
  refine (if_pos hname).trans ((acceptFrame_eq _ none).trans ?_)
  rw [returned_eq hl]
  rfl

variable (hne : headerName (ringBytes s.mem l.rings[n] s.framers[n].scan 20) ≠ x)
include hne

theorem frameTake_slips (hlater : x.later (headerName (ringBytes s.mem l.rings[n] s.framers[n].scan 20)) = true) :
    frameTake n s = acceptIn n (ringBytes s.mem l.rings[n] s.framers[n].scan 20) true
      (ringBytes s.mem l.rings[n] (s.framers[n].scan + 20) 4076) s.framers[n].scan
      (slipped n (some (x.distance (headerName (ringBytes s.mem l.rings[n] s.framers[n].scan 20))).toNat) s) := by
  rw [frameTake_good hf hl hsync hx hh ha hgood]
  refine (if_neg hne).trans ((if_pos hlater).trans ((acceptFrame_eq _ _).trans ?_))
  rw [returned_eq hl]
  rfl

theorem frameTake_repeats (hlater : x.later (headerName (ringBytes s.mem l.rings[n] s.framers[n].scan 20)) = false) :
    frameTake n s = repeatFrame n s := by
  rw [frameTake_good hf hl hsync hx hh ha hgood]
  exact (if_neg hne).trans (if_neg (by rw [hlater]; decide))

end Takes

end Frames

namespace TakenFrame
variable {c : TakenFrame}

/-- An accepted frame begins its walk. -/
theorem acceptIn_eq {u : State} {g : Framer} {payload : List Byte} {start : Assembler} (hg : g.slot = some c.k)
    (hname : headerName c.header = c.y) (hp : g.pastLast = false) (hb : c.b = grouped g c.y c.slip payload)
    (hs : g.scan = c.f.scan) (hrec : ∃ cs, u.jt.jobs[c.k].record = { c.job with counters := cs }) :
    acceptIn c.n c.header c.slip payload c.f.scan (withFr c.n { g with assembler := start } u) =
      continueFrame c.n (withFr c.n { c.amid (c.after start) (c.work 0 .assemble) with
        pastLast := decide (c.job.kind = .verify) && groupLater c.y.group c.job.lastGroup } u) := by
  obtain ⟨cs, hrec⟩ := hrec
  have hjob : (withFr c.n { g with assembler := start } u).framerJob c.n = { c.job with counters := cs } :=
    (framerJob_withFr (f := { g with assembler := start }) hg).trans hrec
  unfold acceptIn
  dsimp only
  rw [hjob, hname, withFr_modFramer]
  have hgroup := groupFrame_accepted (u := u) (start := start) (past := decide (c.job.kind = .verify)
    && groupLater c.y.group c.job.lastGroup) hb hs
  rw [← hgroup]
  have hpast : (g.pastLast || (decide (c.job.kind = .verify) && groupLater c.y.group c.job.lastGroup)) =
      (decide (c.job.kind = .verify) && groupLater c.y.group c.job.lastGroup) := by rw [hp, Bool.false_or]
  refine congrArg (fun p => continueFrame c.n (groupFrame c.n c.y c.slip payload (withFr c.n { g with
    expected := some c.y.next, missCount := 0, firstMissed := none, lastAccepted := some c.y, pastLast := p
    frame := some (c.work 0 .assemble), assembler := start } u))) hpast

end TakenFrame

theorem grouped_kept (g : Framer) (x : FrameName) (slip : Bool) (payload : List Byte) :
    (grouped g x slip payload).phase = g.phase ∧ (grouped g x slip payload).slot = g.slot
      ∧ (grouped g x slip payload).pastLast = g.pastLast ∧ (grouped g x slip payload).frame = g.frame
      ∧ (grouped g x slip payload).consumed = g.consumed ∧ (grouped g x slip payload).failures = g.failures
      ∧ (grouped g x slip payload).segmentFaults = g.segmentFaults ∧ (grouped g x slip payload).locksLost = g.locksLost := by
  rw [grouped_eq (f := g) x slip payload rfl rfl rfl]
  exact ⟨rfl, rfl, rfl, rfl, rfl, rfl, rfl, rfl⟩

/-- A missed frame that keeps the lock. -/
theorem missedFramer_kept {f : Framer} {x : FrameName} (hx : f.expected = some x) :
    ({ missedFramer f with scan := f.scan + 4096 } : Framer) = { f with
      assembler := .waitStart, expected := some x.next, missCount := f.missCount + 1
      firstMissed := some (if f.missCount = 0 then f.scan else f.firstMissed.getD f.scan)
      groupInHand := f.groupInHand.map fun g => { g with accumulating := false }, scan := f.scan + 4096 } := by
  unfold missedFramer Framer.breakGroup
  rw [hx]
  rfl

/-- The Framer that has lost lock for its misses. -/
theorem lostLock_missed {f : Framer} (hf : f.frame = none) (q : Word) : lostLock .misses q (missedFramer f) = { f with
    sync := .search, scan := q, missCount := 0, firstMissed := none, expected := none, assembler := .waitStart
    groupInHand := none
    lastSettled := (f.groupInHand.map fun g => g.group).or f.lastSettled
    groupsUnchecked := if f.groupInHand = none ∨ f.groupsUnchecked = 0xFFFFFFFF then f.groupsUnchecked
      else f.groupsUnchecked + 1
    locksLost := if f.locksLost = 0xFFFFFFFF then 0xFFFFFFFF else f.locksLost + 1 } := by
  unfold lostLock
  rw [unchecked_eq]
  unfold missedFramer Framer.breakGroup
  simp only [Option.map_map, Option.map_eq_none_iff, hf, if_true]
  rfl

/-- The state once the job of slot `k` has counted a slip of distance `d`. -/
def slipCounted (s : State) (k : SlotId) (d : Nat) : State := s.modCounters k fun c => { c with
  slips := if c.slips.toNat + d < 4294967295 then c.slips + BitVec.ofNat 32 d else 0xFFFFFFFF }

theorem slipCounted_record (s : State) (k : SlotId) (d : Nat) : (slipCounted s k d).jt.jobs[k] = { s.jt.jobs[k] with
    record := { s.jt.jobs[k].record with counters := { s.jt.jobs[k].record.counters with
      slips := if s.jt.jobs[k].record.counters.slips.toNat + d < 4294967295
        then s.jt.jobs[k].record.counters.slips + BitVec.ofNat 32 d else 0xFFFFFFFF } } } :=
  Vector.getElem_set_self k.isLt

theorem slipCounted_follows (c : TakenFrame) (d : Nat) : c.Follows (slipCounted c.s c.k d) :=
  ⟨rfl, rfl, rfl, rfl, (congrArg JobSlot.live (slipCounted_record c.s c.k d)).trans rfl, rfl,
    { c.s.jt.jobs[c.k].record.counters with
      slips := if c.s.jt.jobs[c.k].record.counters.slips.toNat + d < 4294967295
        then c.s.jt.jobs[c.k].record.counters.slips + BitVec.ofNat 32 d else 0xFFFFFFFF },
    (congrArg JobSlot.record (slipCounted_record c.s c.k d)).trans rfl⟩

/-- A slip breaks the group in hand and gives up a partial segment. -/
theorem slipped_some (hslot : s.framers[n].slot = some k) (hactive : s.jt.jobs[k].record.state = .active) (d : Nat) :
    slipped n (some d) s = withFr n { s.framers[n].breakGroup with assembler := .waitStart } (slipCounted s k d) := by
  have hcount : framerCount n (fun c => { c with slips := satAdd c.slips d }) s = slipCounted s k d := by
    rw [framerCount_bound _ hslot hactive]
    simp only [satAdd_eq]
    rfl
  unfold slipped
  dsimp only
  rw [hcount]
  rfl

/-- Settles O45. -/
theorem frameTaken : Obligations.FrameTaken := by
  intro s n k x l hs hf hl hsync hx hslot hactive hhold harrived f h payload opens dataEnd job tag counters raised within accepted
    counting first missed goes at' run
  have hmiss := missFrame_eq (s := s) (n := n) hslot hactive
  dsimp only at hmiss
  have hmissed : (s.modCounters k fun c => { c with framesMissed := satInc c.framesMissed }) = missed := by
    simp only [satInc_eq]; rfl
  rw [hmissed] at hmiss
  have hgetD : (missedFramer f).firstMissed.getD f.scan = first := rfl
  -- what an accepted frame needs, for its Framer before the group check
  have hok (g : Framer) (y : FrameName) (slip : Bool) (h1 : g.phase = f.phase) (h2 : g.slot = f.slot) (h3 : g.pastLast = f.pastLast)
      (h4 : g.frame = f.frame) (h5 : g.consumed = f.consumed) (h6 : g.failures = f.failures)
      (h7 : g.segmentFaults = f.segmentFaults) (h8 : g.locksLost = f.locksLost) :
      TakenFrame.Ok { s := s, n := n, k := k, l := l, b := grouped g y slip payload, y := y, slip := slip } := by
    obtain ⟨g1, g2, g3, g4, g5, g6, g7, g8⟩ := grouped_kept g y slip payload
    exact ⟨hs, hl, hf.noPost, hactive, g1.trans (h1.trans hf.taking), g2.trans (h2.trans hslot), g3.trans (h3.trans hf.notPast),
      g4.trans (h4.trans hf.noFrame), g5.trans h5, g6.trans h6, g7.trans h7, g8.trans h8⟩
  refine ⟨fun hbad hlow => ?_, fun y hbad hhigh hroom hlast => ?_, fun hgood hne hle => ?_, ?_, fun hgood hname => ?_⟩
  · have hF := missedFramer_kept (f := f) hx
    refine exec_settles (u := missed) (g := frameTake n) hs rfl ?_ hl hf.noPost hf.taking hf.notPast rfl
    rw [frameTake_misses hf hl hsync hx hhold harrived hbad, hmiss, if_neg (by
      have : s.framers[n].missCount + 1 < s.re.laneSettings[n].lossThreshold := hlow
      omega), show ({ missedFramer s.framers[n] with scan := s.framers[n].scan + 4096 } : Framer) = _ from hF]
    rfl
  · let v := withFr n (missedFramer f) missed
    have hself : v.framers[n] = missedFramer f := withFr_framer
    have hpast : (missedFramer f).pastLast = false := hf.notPast
    obtain ⟨g, hsettle, hgroup⟩ := loseLock_settles (s := v) (n := n) .misses (first + 1) hl
      (by rw [hself]; exact hf.taking) hf.noPost (by rw [hself]; exact hpast) hroom
    rw [hself] at hsettle hgroup
    have hlast' : (missedFramer f).lastAccepted = some y := hlast
    have htag : (v.framerJob n).tag = tag := by
      rw [framerJob_withFr (f := missedFramer f) (u := missed) hslot]
      simp only [missed, counting, Fin.getElem_fin, Vector.getElem_set_self]
      rfl
    have hF := lostLock_missed (f := f) hf.noFrame (first + 1)
    rw [hlast', hgroup y hlast', hF, htag] at hsettle
    refine exec_moves (u := { missed with re := { s.re with backlog := s.re.backlog ++
        [.lockLost n tag .misses (first + 1) y.group (BitVec.ofNat 8 y.index.val)] } }) (g := frameTake n) hs rfl ?_ hl
      (fun h => nomatch (hf.taking.symm.trans h : Phase.taking = .unbound)) rfl
    rw [frameTake_misses hf hl hsync hx hhold harrived hbad, hmiss, if_pos hhigh]
    refine hsettle.trans ?_
    simp only [reduceCtorEq, if_false]
    unfold v withFr
    simp only [Vector.set_set]
    rfl
  · refine exec_settles (u := s) (g := frameTake n)
      (f := { f with missCount := 0, firstMissed := none, scan := f.scan + 4096 }) hs rfl ?_ hl hf.noPost hf.taking hf.notPast rfl
    have hlater : x.later (headerName h) = false := decide_eq_false (by omega)
    exact frameTake_repeats hf hl hsync hx hhold harrived hgood hne hlater
  · intro y hgood hname hpos d broken
    let c : TakenFrame := { s := s, n := n, k := k, l := l, b := grouped broken y true payload, y := y, slip := true }
    have ok : c.Ok := hok broken y true rfl rfl rfl rfl rfl rfl rfl rfl
    have hne : headerName h ≠ x := fun e => by
      rw [← hname, e] at hpos
      simp [FrameName.distance] at hpos
    have hlater : x.later (headerName h) = true := decide_eq_true (by rw [hname]; exact hpos)
    have hslip : slipped n (some d) s = withFr n { broken with assembler := .waitStart } (slipCounted s k d) :=
      slipped_some hslot hactive d
    have hu : c.Follows (slipCounted s k d) := slipCounted_follows c d
    have hbase : counting { counters with
        slips := if counters.slips.toNat + d < 4294967295 then counters.slips + BitVec.ofNat 32 d else 0xFFFFFFFF } =
        slipCounted s k d := rfl
    rw [hbase]
    generalize slipCounted s k d = base at hslip hu ⊢
    have henter := TakenFrame.acceptIn_eq (c := c) (u := base) (g := broken) (payload := payload) (start := .waitStart) hslot hname
      hf.notPast rfl rfl hu.record
    have hrun : frameTake n s = continueFrame n (withFr n { c.amid (c.after .waitStart) (c.work 0 .assemble) with
        pastLast := decide (c.job.kind = .verify) && groupLater c.y.group c.job.lastGroup } base) := by
      have hd : (x.distance (headerName (ringBytes s.mem l.rings[n] s.framers[n].scan 20))).toNat = d := by
        simp only [d]
        rw [← hname]
      rw [frameTake_slips hf hl hsync hx hhold harrived hgood hne hlater, hd, hslip]
      exact henter
    exact TakenFrame.run_of ok hu rfl (runStep_next s _ (frameTake n) hs hrun)
  · let c : TakenFrame := { s := s, n := n, k := k, l := l, b := grouped f x false payload, y := x, slip := false }
    have ok : c.Ok := hok f x false rfl rfl rfl rfl rfl rfl rfl rfl
    have hu : c.Follows s := ⟨rfl, rfl, rfl, rfl, rfl, rfl, _, rfl⟩
    have henter := TakenFrame.acceptIn_eq (c := c) (u := s) (g := f) (payload := payload) (start := f.assembler) hslot hname hf.notPast rfl rfl hu.record
    have hrun : frameTake n s = continueFrame n (withFr n { c.amid (c.after f.assembler) (c.work 0 .assemble) with
        pastLast := decide (c.job.kind = .verify) && groupLater c.y.group c.job.lastGroup } s) := by
      rw [frameTake_expects hf hl hsync hx hhold harrived hgood hname]
      exact (congrArg (acceptIn n h false payload f.scan) (withFr_self rfl).symm).trans henter
    exact TakenFrame.run_of ok hu rfl (runStep_next s _ (frameTake n) hs hrun)

end Sys2Proof.Proofs.Framers
end

section
/-! PROOFS. The Lane Unit (05): closes of the open group that the age limit and a starving tape make. -/
namespace Sys2Proof.Proofs.Lanes
open Sys2Proof Sys2Proof.Machine Sys2Proof.Safety Sys2Proof.Laws Sys2Proof.Proofs.Requests

/-- A command that leads to a known state, with a fact of that state that the image's stale mark does not enter. -/
theorem next_with {s u : State} {f : State → State} {P : State → Prop} (hs : s.resetAsserted = false) (e : f s = u)
    (h : ∀ b, P (withStale b u)) : ∃ t, runStep s f = .next t ∧ P t := by
  obtain ⟨b, hb⟩ := runStep_next s u f hs e
  exact ⟨_, hb, h b⟩

/-! ## STARVE and AGE closes (R81) -/

section Closes
variable {s : State} {n : LaneId} {p : Position} (reason : CloseReason)

theorem closeOrPend_pends (hp : s.lanes[n].position = some p) (hk : s.lanes[n].packing ≠ none) :
    closeOrPend n reason s = { s with lanes := s.lanes.set n { s.lanes[n] with
      closePending := some (s.lanes[n].closePending.getD (reason, p.slot)) } } := by
  unfold closeOrPend
  split
  next h => rw [hp] at h; cases h
  next q h =>
    cases hp.symm.trans h
    exact if_pos (Option.isSome_iff_ne_none.mpr hk)

theorem closeOrPend_closes (hp : s.lanes[n].position = some p) (hk : s.lanes[n].packing = none) :
    closeOrPend n reason s = padClose n reason s := by
  unfold closeOrPend
  simp only [hp]
  rw [hk]
  exact if_neg nofun

end Closes

/-! ## The age limit (R79) -/

section Age
variable {s : State} {n : LaneId} {opened : Nat} (ho : s.lanes[n].openedAt = some opened)
include ho

theorem ageClose_before (h : s.re.laneSettings[n].ageLimit = 0 ∨ s.timebase - opened < s.re.laneSettings[n].ageLimit * 1000) :
    ageClose n s = s := by
  have : s.ageExpired n = false := by
    unfold State.ageExpired
    rw [ho]
    exact decide_eq_false fun hc => by rcases h with h | h <;> omega
  unfold ageClose
  rw [this]
  rfl

theorem ageClose_after (h0 : s.re.laneSettings[n].ageLimit ≠ 0)
    (h : s.re.laneSettings[n].ageLimit * 1000 ≤ s.timebase - opened) (hw : s.waiting (.laneUnit n) = false) :
    ageClose n s = closeOrPend n .age s := by
  have : s.ageExpired n = true := by
    unfold State.ageExpired
    rw [ho]
    exact decide_eq_true ⟨h0, h⟩
  unfold ageClose
  rw [this, hw]
  rfl

end Age

/-- Settles O41: before its limit nothing, then a close at once or one that is pending. -/
theorem ageCloses : Obligations.AgeCloses := by
  intro s n now opened p g l hs ho hp hg hl hf hoff hw lane limit slotAt pad
  refine ⟨fun h => ?_, fun h0 h hk => ?_, fun h0 h hk hr => ?_⟩
  · exact runStep_next s _ (ageExpiry n now) hs (ageClose_before (s := s.observeTime now) ho h)
  · refine runStep_next s _ (ageExpiry n now) hs ((ageClose_after (s := s.observeTime now) ho h0 h hw).trans
      ((closeOrPend_pends .age (s := s.observeTime now) hp hk).trans ?_))
    have hpend : some (lane.closePending.getD (.age, p.slot))
        = if lane.closePending = none then some (.age, p.slot) else lane.closePending := by
      cases lane.closePending <;> rfl
    rw [← hpend]
    rfl
  · obtain ⟨m, ⟨hframes, hrest⟩, he⟩ := padClose_spec n .age (s.observeTime now) hl hp hg hoff hf hr
    exact next_with (f := ageExpiry n now) hs ((ageClose_after (s := s.observeTime now) ho h0 h hw).trans
      ((closeOrPend_closes .age (s := s.observeTime now) hp hk).trans he)) fun b => ⟨rfl, hframes, hrest⟩

end Sys2Proof.Proofs.Lanes
end

section
/-! PROOFS. How WRITE jobs end and their lanes become IDLE (R40, R46, R68). -/
namespace Sys2Proof.Proofs.WriteEnds
open Sys2Proof Sys2Proof.Machine Sys2Proof.Safety Sys2Proof.Laws
open Sys2Proof.Proofs.JobEnds Sys2Proof.Proofs.Requests

/-! ## The IDLE test (R68) -/

theorem mem_writeJobsOnLane {s : State} {n : LaneId} {k : SlotId} : k ∈ s.writeJobsOnLane n ↔ writeJob s n k := by
  simp [writeJobsOnLane_eq, writeJob, and_assoc]

theorem writeJobsOnLane_nodup (s : State) (n : LaneId) : (s.writeJobsOnLane n).Nodup := by
  rw [writeJobsOnLane_eq]
  exact (List.nodup_finRange 8).filter _

theorem mem_readyGroups {l : Lane} {g : Word} : g ∈ l.readyGroups ↔ SlotState.ready g ∈ l.slots := by
  simp only [Lane.readyGroups, List.mem_filterMap]
  refine ⟨fun ⟨x, hx, he⟩ => ?_, fun h => ⟨_, h, rfl⟩⟩
  cases x <;> cases he
  exact hx

theorem readyGroups_eq_nil {l : Lane} : l.readyGroups = [] ↔ ∀ g, SlotState.ready g ∉ l.slots := by
  rw [List.eq_nil_iff_forall_not_mem]
  exact forall_congr' fun g => not_congr mem_readyGroups

theorem openCount_eq_zero {l : Lane} (h : ∀ g, SlotState.opened g ∉ l.slots) : l.openCount = 0 := by
  refine List.countP_eq_zero.mpr fun x hx => ?_
  cases x with
  | opened g => exact absurd hx (h g)
  | _ => exact nofun

section Idle
variable {s : State} {n : LaneId}

/-- A lane that a WRITE job is live on is not IDLE. -/
theorem idleTest_busy (h : ∃ j, writeJob s n j) : idleTest n s = s := by
  obtain ⟨j, hj⟩ := h
  refine if_neg fun hc => ?_
  obtain ⟨-, hnil, -⟩ := hc
  have := mem_writeJobsOnLane.mpr hj
  rw [hnil] at this
  cases this

/-- A lane that is on the wait list with no claim leaves nothing. -/
theorem leaveCatalog_out (hc : n ∉ s.sc.claims) (hw : n ∉ s.sc.waitList) : leaveCatalog n s = s := by
  have hfilter : s.sc.waitList.filter (fun m => decide (m ≠ n)) = s.sc.waitList :=
    List.filter_eq_self.mpr fun m hm => decide_eq_true fun e => hw (e ▸ hm)
  unfold leaveCatalog
  rw [hfilter]
  exact if_neg (by simpa using hc)

theorem laneIdle_out (hc : n ∉ s.sc.claims) (hw : n ∉ s.sc.waitList) :
    laneIdle n s = { s with lanes := s.lanes.set n (idleLane s.lanes[n]) } :=
  leaveCatalog_out (s := s.modLane n idleLane) hc hw

/-- A WRITE lane with no WRITE job and every slot released becomes IDLE. -/
theorem idleTest_idle (hr : s.lanes[n].role = .write) (hj : ∀ j, ¬ writeJob s n j)
    (hs : ∀ g, SlotState.ready g ∉ s.lanes[n].slots ∧ SlotState.opened g ∉ s.lanes[n].slots)
    (hc : n ∉ s.sc.claims) (hw : n ∉ s.sc.waitList) :
    idleTest n s = { s with lanes := s.lanes.set n (idleLane s.lanes[n]) } := by
  have hnil : s.writeJobsOnLane n = [] := List.eq_nil_iff_forall_not_mem.mpr fun j h => hj j (mem_writeJobsOnLane.mp h)
  rw [← laneIdle_out hc hw]
  exact if_pos ⟨hr, hnil, openCount_eq_zero fun g => (hs g).2, readyGroups_eq_nil.mpr fun g => (hs g).1⟩

end Idle

/-! ## A WRITE job ends (R46) -/

/-- The WRITE job of slot `k` has ended: its JOB_DONE is posted, its slot free and its stream FREE. -/
def writeEnded (s : State) (k : SlotId) (outcome : JobOutcome) : State := streamFreed s { s with
  re := { s.re with backlog := s.re.backlog ++ [.jobDone k s.jt.jobs[k].record outcome] }
  jt := { s.jt with jobs := s.jt.jobs.set k { live := false, record := { s.jt.jobs[k].record with state := .free } } } }
  s.jt.jobs[k].record.stream

section Ended
variable {s : State} {n : LaneId} {k : SlotId} {outcome : JobOutcome}

theorem freeSlot_write (hk : s.jt.jobs[k].record.kind = .write) :
    freeSlot k s = laneSignal s.jt.jobs[k].record.lane .idleTest (freeStream s.jt.jobs[k].record.stream { s with
      jt.jobs := s.jt.jobs.set k { live := false, record := { s.jt.jobs[k].record with state := .free } } }) := by
  unfold freeSlot
  dsimp only
  cases hkind : s.jt.jobs[k].record.kind with
  | write => rfl
  | verify => exact absurd (hkind.symm.trans hk) nofun
  | restore => exact absurd (hkind.symm.trans hk) nofun

theorem takeEnding_write (hj : writeJob s n k) (hw : s.waiting (.laneUnit n) = false) (hr : s.re.hasRoom = true) :
    takeJobSignal (.ending k outcome) s = (idleTest n (writeEnded s k outcome), []) := by
  obtain ⟨hl, rfl, hk⟩ := hj
  rw [takeEnding outcome hl, endJob_joins k outcome hr, freeSlot_write (by exact hk), freeStream_eq]
  exact congrArg (·, []) (if_neg (Bool.not_eq_true _ ▸ hw))

theorem writeEnded_other {j : SlotId} (hne : j ≠ k) : (writeEnded s k outcome).jt.jobs[j] = s.jt.jobs[j] :=
  Vector.getElem_set_ne k.isLt j.isLt fun e => hne (Fin.ext e.symm)

theorem writeEnded_live : (writeEnded s k outcome).jt.jobs[k].live = false :=
  congrArg JobSlot.live (Vector.getElem_set_self k.isLt)

/-- The other WRITE jobs of a lane stay when one ends. -/
theorem writeJob_writeEnded {j : SlotId} (hj : writeJob s n j) (hne : j ≠ k) : writeJob (writeEnded s k outcome) n j := by
  unfold writeJob
  rwa [writeEnded_other hne]

theorem writeJob_of_writeEnded {j : SlotId} (hj : writeJob (writeEnded s k outcome) n j) : writeJob s n j ∧ j ≠ k := by
  have hne : j ≠ k := by
    rintro rfl
    cases writeEnded_live.symm.trans hj.1
  unfold writeJob at hj
  rw [writeEnded_other hne] at hj
  exact ⟨hj, hne⟩

/-- A WRITE job ends beside others on its lane. -/
theorem takeEnding_beside (hj : writeJob s n k) (ho : ∃ i, writeJob s n i ∧ i ≠ k) (hw : s.waiting (.laneUnit n) = false)
    (hr : s.re.hasRoom = true) : takeJobSignal (.ending k outcome) s = (writeEnded s k outcome, []) := by
  obtain ⟨i, hi, hne⟩ := ho
  rw [takeEnding_write hj hw hr, idleTest_busy ⟨i, writeJob_writeEnded hi hne⟩]

/-- The last WRITE job of a lane whose slots are all released ends, and the lane is IDLE. -/
theorem takeEnding_last (hj : writeJob s n k) (ho : ∀ i, writeJob s n i → i = k) (hw : s.waiting (.laneUnit n) = false)
    (hr : s.re.hasRoom = true) (hrole : s.lanes[n].role = .write)
    (hs : ∀ g, SlotState.ready g ∉ s.lanes[n].slots ∧ SlotState.opened g ∉ s.lanes[n].slots)
    (hc : n ∉ s.sc.claims) (hl : n ∉ s.sc.waitList) :
    takeJobSignal (.ending k outcome) s
      = ({ writeEnded s k outcome with lanes := s.lanes.set n (idleLane s.lanes[n]) }, []) := by
  rw [takeEnding_write hj hw hr, idleTest_idle (s := writeEnded s k outcome) hrole
    (fun i hi => (writeJob_of_writeEnded hi).2 (ho i (writeJob_of_writeEnded hi).1)) hs hc hl]
  rfl

end Ended

/-! ## The jobs that a release ends (R40) -/

theorem filterMap_eq_singleton {α β : Type} {f : α → Option β} {xs : List α} {a : α} {y : β} (hn : xs.Nodup) (ha : a ∈ xs)
    (hf : f a = some y) (ho : ∀ b ∈ xs, b ≠ a → f b = none) : xs.filterMap f = [y] := by
  obtain ⟨l, r, rfl⟩ := List.append_of_mem ha
  obtain ⟨-, hr, hd⟩ := List.nodup_append.mp hn
  have hl : l.filterMap f = [] := List.filterMap_eq_nil_iff.mpr fun b hb =>
    ho b (List.mem_append_left _ hb) (hd b hb a List.mem_cons_self)
  have hr' : r.filterMap f = [] := List.filterMap_eq_nil_iff.mpr fun b hb =>
    ho b (List.mem_append_right _ (List.mem_cons_of_mem _ hb)) fun e => (List.nodup_cons.mp hr).1 (e ▸ hb)
  rw [List.filterMap_append, List.filterMap_cons_some hf, hl, hr']
  rfl

section Drained
variable {s : State} {n : LaneId} {g : Word}

theorem drainedBy_none (h : ∀ j, writeJob s n j → s.jt.jobs[j].record.state ≠ .draining) : s.drainedBy n g = [] := by
  unfold State.drainedBy
  refine List.filterMap_eq_nil_iff.mpr fun j hj => ?_
  have := h j (mem_writeJobsOnLane.mp hj)
  dsimp only
  split
  next hst _ => exact absurd hst this
  next => rfl

theorem drainedBy_one {j : SlotId} {e : Word} (hj : writeJob s n j) (hst : s.jt.jobs[j].record.state = .draining)
    (he : s.jt.jobs[j].record.lastEnd = some e) (hle : e.toNat ≤ g.toNat)
    (ho : ∀ i, writeJob s n i → i ≠ j → s.jt.jobs[i].record.state ≠ .draining) :
    s.drainedBy n g = [.ending j s.jt.jobs[j].record.pendingOutcome] := by
  unfold State.drainedBy
  refine filterMap_eq_singleton (writeJobsOnLane_nodup s n) (mem_writeJobsOnLane.mpr hj) ?_ fun i hi hne => ?_
  · dsimp only
    rw [hst, he]
    exact if_pos hle
  · have := ho i (mem_writeJobsOnLane.mp hi) hne
    dsimp only
    split
    next hst _ => exact absurd hst this
    next => rfl

end Drained

end Sys2Proof.Proofs.WriteEnds
end

section
/-! PROOFS. Releases of groups (R78, R83 to R85, R95, R141). -/
namespace Sys2Proof.Proofs.Releases
open Sys2Proof Sys2Proof.Machine Sys2Proof.Safety Sys2Proof.Laws
open Sys2Proof.Proofs.JobEnds Sys2Proof.Proofs.Requests Sys2Proof.Proofs.Retain Sys2Proof.Proofs.Catalog
open Sys2Proof.Proofs.WriteEnds Sys2Proof.Proofs.Lanes Sys2Proof.Proofs.Windows

/-! ## Final-byte signals that release nothing -/

theorem controllerRead_signals {s : State} {addr : Word} {length now k : Nat} {n : LaneId}
    (h : s.finalByteOf (addr.toNat + length - 1) = some (n, k)) (hw : s.waiting (.laneUnit n) = false) :
    controllerRead addr length now s
      = takeFinalByte n k { s.observeTime now with readData := memBytes s.mem addr.toNat length } := by
  have hread : controllerRead addr length now s
      = finalByteSignal n k { s.observeTime now with readData := memBytes s.mem addr.toNat length } := by
    unfold controllerRead
    dsimp only
    split
    next e => cases h.symm.trans e
    next m j e => cases h.symm.trans e; rfl
  rw [hread]
  exact if_neg (Bool.not_eq_true _ ▸ hw)

section Signals
variable {s : State} {n : LaneId} {k : Nat}

/-- The lane has counted a misordered read. -/
def misorderedRead (n : LaneId) (s : State) : State :=
  s.modLane n fun l => { l with counters := { l.counters with misordered := satInc l.counters.misordered } }

theorem takeFinalByte_opened {g : Word} (h : s.lanes[n].slots[k]? = some (.opened g)) :
    takeFinalByte n k s = misorderedRead n s := by
  unfold takeFinalByte
  rw [h]
  rfl

theorem takeFinalByte_later {g g' : Word} (h : s.lanes[n].slots[k]? = some (.ready g))
    (hg : SlotState.ready g' ∈ s.lanes[n].slots) (hlt : g'.toNat < g.toNat) : takeFinalByte n k s = misorderedRead n s := by
  unfold takeFinalByte
  rw [h]
  refine if_neg fun hc => ?_
  have := (lowestGroup_spec hc.2).2 g' (mem_readyGroups.mpr hg)
  omega

theorem takeFinalByte_released (h : s.lanes[n].slots[k]? = some .free ∨ ∃ g, s.lanes[n].slots[k]? = some (.drained g)) :
    takeFinalByte n k s = s := by
  unfold takeFinalByte
  rcases h with h | ⟨g, h⟩ <;> rw [h]

theorem takeFinalByte_oldest {g : Word} (h : s.lanes[n].slots[k]? = some (.ready g)) (hr : s.lanes[n].role = .write)
    (hmin : ∀ g', SlotState.ready g' ∈ s.lanes[n].slots → g.toNat ≤ g'.toNat) :
    takeFinalByte n k s = releaseGroup n k g s := by
  unfold takeFinalByte
  rw [h]
  exact if_pos ⟨hr, lowestGroup_eq_some (mem_readyGroups.mpr (List.mem_of_getElem? h))
    fun x hx => hmin x (mem_readyGroups.mp hx)⟩

end Signals

/-! ## The slots after a release (R83, R84) -/

/-- The DRAINED slots of a lane may be enforced down to `keep`: they are distinct, or few enough. -/
def keepsDrained (keep : Nat) (slots : List SlotState) : Prop := slots.countP isDrained ≤ keep ∨ drainedDistinct slots

theorem enforceRetain_retains {n : LaneId} {s : State}
    (h : keepsDrained (min s.re.laneSettings[n].retainDepth (s.lanes[n].slots.length - 1)) s.lanes[n].slots) :
    enforceRetain n s = { s with lanes := s.lanes.set n { s.lanes[n] with
      slots := retained (min s.re.laneSettings[n].retainDepth (s.lanes[n].slots.length - 1)) s.lanes[n].slots } } := by
  rcases h with h | h
  · rw [enforceRetain_of_few h, retained_of_few h]
    exact (congrArg (fun v => { s with lanes := v }) (Vector.set_getElem_self n.isLt)).symm
  · exact enforceRetain_eq h

theorem keepsDrained_set {keep k : Nat} {slots : List SlotState} {g : Word}
    (h : slots.countP isDrained < keep ∨ drainedDistinct (slots.set k (.drained g))) :
    keepsDrained keep (slots.set k (.drained g)) := by
  refine h.imp (fun h => ?_) id
  by_cases hk : k < slots.length
  · rw [List.countP_set hk]
    split <;> split <;> omega
  · rw [List.set_eq_of_length_le (by omega)]
    omega

theorem retained_opened {keep j : Nat} {slots : List SlotState} {g : Word} (h : slots[j]? = some (.opened g)) :
    (retained keep slots)[j]? = some (.opened g) := by
  rw [retained_eq, List.getElem?_map, h]
  rfl

theorem mem_retained_ready {keep : Nat} {slots : List SlotState} {g : Word} (h : SlotState.ready g ∈ slots) :
    SlotState.ready g ∈ retained keep slots := List.mem_map.mpr ⟨_, h, rfl⟩

theorem mem_retained_opened {keep : Nat} {slots : List SlotState} {g : Word} (h : SlotState.opened g ∈ slots) :
    SlotState.opened g ∈ retained keep slots := List.mem_map.mpr ⟨_, h, rfl⟩

/-! ## Drain timing and the STARVE test (R78, R85) -/

/-- The drain interval after a release. -/
def drainInterval (time : Nat) (l : Lane) : Option Nat :=
  match l.lastRelease with
  | none => l.interval
  | some before => match l.interval with
    | none => some (if 10000000 < time - before then 10000000 else time - before)
    | some y => some ((3 * y + if 10000000 < time - before then 10000000 else time - before) / 4)

theorem drainTiming_eq (time : Nat) (l : Lane) :
    l.drainTiming time = { l with lastRelease := some time, interval := drainInterval time l } := by
  unfold Lane.drainTiming drainInterval
  cases l.lastRelease with
  | none => rfl
  | some t => dsimp only; rw [min_eq_ite]; cases l.interval <;> rfl

/-- The lane starves: no slot is READY, one is open, and the drain interval is within the streaming limit. -/
def Starving (l : Lane) (limit : Nat) : Prop :=
  limit ≠ 0 ∧ (∀ g, SlotState.ready g ∉ l.slots) ∧ l.position ≠ none ∧ ∃ i, l.interval = some i ∧ i ≤ limit * 1000

section Starve
variable {s : State} {n : LaneId}

theorem starveTest_closes (h : Starving s.lanes[n] s.re.laneSettings[n].streamingLimit) :
    starveTest n s = closeOrPend n .starve s := by
  obtain ⟨hl, hr, hp, i, hi, hle⟩ := h
  unfold starveTest
  dsimp only
  rw [hi]
  exact if_pos ⟨readyGroups_eq_nil.mpr hr, Option.isSome_iff_ne_none.mpr hp, hl, hle⟩

theorem starveTest_keeps (h : ¬ Starving s.lanes[n] s.re.laneSettings[n].streamingLimit) : starveTest n s = s := by
  unfold starveTest
  dsimp only
  split
  next => rfl
  next i hi =>
    refine if_neg fun hc => h ?_
    obtain ⟨hr, hp, hl, hle⟩ := hc
    exact ⟨hl, readyGroups_eq_nil.mp hr, Option.isSome_iff_ne_none.mp hp, i, hi, hle⟩

end Starve

/-! ## The catalog and the cartridge (R95, R141) -/

theorem recEndGroup_eq_iff (y : List Byte) (g : Word) :
    recEndGroup y = g ↔ (fieldNat y 16 4 + fieldNat y 21 1) % 4294967296 = (g.toNat + 1) % 4294967296 := by
  have h16 : (recStartGroup y).toNat = fieldNat y 16 4 :=
    Nat.mod_eq_of_lt (ReturnPath.fieldNat_lt y 16 4)
  have h21 : recSpanned y < 256 := ReturnPath.fieldNat_lt y 21 1
  change _ ↔ (fieldNat y 16 4 + recSpanned y) % _ = _
  unfold recEndGroup
  rw [← h16]
  generalize recStartGroup y = a
  generalize recSpanned y = b at h21
  have hg := g.isLt
  have ha := a.isLt
  have hone : (1 : Word).toNat = 1 := rfl
  rw [← BitVec.toNat_inj]
  simp only [BitVec.toNat_sub, BitVec.toNat_add, BitVec.toNat_ofNat]
  omega

/-- The state bytes that a release of group `g` sets (R95). -/
def releasedRecord (n : LaneId) (g : Word) (y : List Byte) : Option Nat :=
  if fieldNat y 9 1 = n.val ∧ fieldNat y 11 1 = 1
    ∧ (fieldNat y 16 4 + fieldNat y 21 1) % 4294967296 = (g.toNat + 1) % 4294967296 then some 2 else none

theorem settleLane_spec {s : State} {l : Layout} (n : LaneId) (g : Word) (hl : s.wd.layout = some l)
    (hb : catalogBounded s l) : ∃ m, recordsSet s l (releasedRecord n g) m ∧ settleLane n g s = { s with mem := m } := by
  obtain ⟨m, hm, hset⟩ := catalogSweep_spec (fun y =>
    if recLane y = n.val ∧ recState y = 1 ∧ recEndGroup y = g then some .onTape else none) hl hb
  refine ⟨m, recordsSet_congr (fun q _ => ?_) hset, congrArg Prod.fst hm⟩
  simp only [recEndGroup_eq_iff]
  unfold releasedRecord
  split
  next h => exact (if_pos h).symm
  next h => exact (if_neg h).symm

/-- The cartridge's record after a release. -/
def writtenOnce (x : CartRecord) : CartRecord := { x with
  written := x.written + 1, condition := if x.written = 0 ∧ x.condition = .blank then .written else x.condition }

theorem raiseWritten_eq {s : State} {n : LaneId} {c : CartId} {x : CartRecord}
    (hc : s.cd.places[drivePlace n].state = .occupied c) (hx : s.cd.records[c] = some x) :
    raiseWritten n s = { s with cd := { s.cd with records := s.cd.records.set c (some (writtenOnce x)) } } := by
  have hd : s.driveCart n = some c := by unfold State.driveCart; rw [hc]
  unfold raiseWritten
  rw [hd]
  dsimp only
  unfold State.modCart
  rw [hx]
  rfl

/-! ## A release -/

/-- The state once a group of the lane has been released, its records settled in memory `m`, and before its jobs are ended. -/
def groupDrained (s : State) (n : LaneId) (k : Nat) (g : Word) (c : CartId) (x : CartRecord) (m : List Host.Cell) : State :=
  { s with
    mem := m
    cd := { s.cd with records := s.cd.records.set c (some (writtenOnce x)) }
    lanes := s.lanes.set n { s.lanes[n] with slots := s.lanes[n].slots.set k (.drained g) } }

/-- What a release does once the Job Table has its signal: the retain depth, the drain timing and the tests. -/
def afterRelease (n : LaneId) (s : State) : State :=
  let s := enforceRetain n s
  if s.lanes[n].role = .write then idleTest n (starveTest n (s.modLane n fun l => l.drainTiming s.timebase)) else s

theorem releaseGroup_eq {s : State} {n : LaneId} {c : CartId} {x : CartRecord} {l : Layout} (k : Nat) (g : Word)
    (hc : s.cd.places[drivePlace n].state = .occupied c) (hx : s.cd.records[c] = some x) (hl : s.wd.layout = some l)
    (hb : catalogBounded s l) : ∃ m, recordsSet s l (releasedRecord n g) m
      ∧ releaseGroup n k g s = afterRelease n (jobSignals [.released n g] (groupDrained s n k g c x m)) := by
  obtain ⟨m, hm, he⟩ := settleLane_spec (s := { s with
    cd := { s.cd with records := s.cd.records.set c (some (writtenOnce x)) }
    lanes := s.lanes.set n { s.lanes[n] with slots := s.lanes[n].slots.set k (.drained g) } }) n g hl hb
  refine ⟨m, hm, ?_⟩
  have hraise := raiseWritten_eq (s := s.modLane n fun l => l.setSlot k (.drained g)) hc hx
  unfold releaseGroup
  dsimp only
  rw [hraise]
  exact congrArg (fun u => afterRelease n (jobSignals [.released n g] u)) he

/-- A lane whose DRAINED slots are enforced down to `keep` and whose drain interval is updated. -/
def timedLane (keep time : Nat) (l : Lane) : Lane :=
  { l with slots := retained keep l.slots, lastRelease := some time, interval := drainInterval time l }

section After
variable {s : State} {n : LaneId} {keep : Nat}
  (hkeep : min s.re.laneSettings[n].retainDepth (s.lanes[n].slots.length - 1) = keep)
  (hd : keepsDrained keep s.lanes[n].slots)
include hkeep hd

theorem afterRelease_write (hr : s.lanes[n].role = .write) : afterRelease n s = idleTest n (starveTest n { s with
    lanes := s.lanes.set n (timedLane keep s.timebase s.lanes[n]) }) := by
  subst hkeep
  unfold afterRelease
  rw [enforceRetain_retains hd]
  simp only [Fin.getElem_fin, Vector.getElem_set_self, State.modLane, Vector.set_set, drainTiming_eq]
  exact if_pos hr

end After

theorem afterRelease_idle {s : State} {n : LaneId} {keep : Nat} {y : Lane} (hy : s.lanes[n] = y)
    (hkeep : min s.re.laneSettings[n].retainDepth (y.slots.length - 1) = keep) (hd : keepsDrained keep y.slots)
    (hr : y.role = .idle) :
    afterRelease n s = { s with lanes := s.lanes.set n { y with slots := retained keep y.slots } } := by
  subst hy hkeep
  unfold afterRelease
  rw [enforceRetain_retains hd]
  simp only [Fin.getElem_fin, Vector.getElem_set_self]
  refine if_neg fun h => ?_
  cases hr.symm.trans h

end Sys2Proof.Proofs.Releases
end

section
/-! PROOFS. What a release of a group does next (R40, R78, R83): nothing, a STARVE close, or the end of a job. -/
namespace Sys2Proof.Proofs.Releases
open Sys2Proof Sys2Proof.Machine Sys2Proof.Safety Sys2Proof.Laws
open Sys2Proof.Proofs.JobEnds Sys2Proof.Proofs.Requests Sys2Proof.Proofs.Retain Sys2Proof.Proofs.Catalog
open Sys2Proof.Proofs.WriteEnds Sys2Proof.Proofs.Lanes Sys2Proof.Proofs.Windows Sys2Proof.Proofs.Framers.TakenFrame

section After
variable {s : State} {n : LaneId} {keep : Nat}
  (hkeep : min s.re.laneSettings[n].retainDepth (s.lanes[n].slots.length - 1) = keep)
  (hd : keepsDrained keep s.lanes[n].slots) (hr : s.lanes[n].role = .write) (hj : ∃ j, writeJob s n j)
include hkeep hd hr hj

theorem afterRelease_quiet
    (h : ¬ Starving (timedLane keep s.timebase s.lanes[n]) s.re.laneSettings[n].streamingLimit) :
    afterRelease n s = { s with lanes := s.lanes.set n (timedLane keep s.timebase s.lanes[n]) } := by
  rw [afterRelease_write hkeep hd hr, starveTest_keeps (by simpa using h), idleTest_busy (by exact hj)]

section Starves
variable (h : Starving (timedLane keep s.timebase s.lanes[n]) s.re.laneSettings[n].streamingLimit) {p : Position}
  (hp : s.lanes[n].position = some p)
include h hp

theorem afterRelease_pends (hk : s.lanes[n].packing ≠ none) :
    afterRelease n s = { s with lanes := s.lanes.set n { timedLane keep s.timebase s.lanes[n] with
      closePending := some (s.lanes[n].closePending.getD (.starve, p.slot)) } } := by
  have hself : (s.lanes.set n (timedLane keep s.timebase s.lanes[n]))[n] = timedLane keep s.timebase s.lanes[n] :=
    Vector.getElem_set_self n.isLt
  rw [afterRelease_write hkeep hd hr, starveTest_closes (by rw [hself]; exact h),
    closeOrPend_pends .starve (p := p) (by rw [hself]; exact hp) (by rw [hself]; exact hk), idleTest_busy (by exact hj)]
  simp only [hself, Vector.set_set]
  rfl

theorem afterRelease_closes {g : Word} {l : Layout} (hl : s.wd.layout = some l) (hk : s.lanes[n].packing = none)
    (hg : s.lanes[n].slots[p.slot]? = some (.opened g)) (hf : p.frame ≤ 7) (ho : p.offset ≤ 4076)
    (hroom : s.re.hasRoom = true) :
    ∃ m, padClosed s.mem m (l.pools[n].base + 32768 * p.slot) g p ∧ afterRelease n s = { s with
      mem := m
      lanes := s.lanes.set n (closedLane (timedLane keep s.timebase s.lanes[n]) p g .starve)
      re := { s.re with backlog := s.re.backlog ++
        [.groupReady n .starve (BitVec.ofNat 32 (l.pools[n].base + 32768 * p.slot)) g p.slot p.starts] } } := by
  have hself : (s.lanes.set n (timedLane keep s.timebase s.lanes[n]))[n] = timedLane keep s.timebase s.lanes[n] :=
    Vector.getElem_set_self n.isLt
  obtain ⟨m, hm, he⟩ := padClose_spec n .starve { s with lanes := s.lanes.set n (timedLane keep s.timebase s.lanes[n]) }
    (p := p) (g := g) hl (by rw [hself]; exact hp) (by rw [hself]; exact retained_opened hg) ho hf hroom
  refine ⟨m, hm, ?_⟩
  rw [afterRelease_write hkeep hd hr, starveTest_closes (by rw [hself]; exact h),
    closeOrPend_closes .starve (p := p) (by rw [hself]; exact hp) (by rw [hself]; exact hk), he,
    idleTest_busy (by exact hj)]
  simp only [hself, Vector.set_set]

end Starves

end After

/-! ## A job that a release ends (R40) -/

section Ends
variable {u : State} {n : LaneId} {j : SlotId} {e g : Word} {keep : Nat} (hj : writeJob u n j)
  (hst : u.jt.jobs[j].record.state = .draining) (he : u.jt.jobs[j].record.lastEnd = some e) (hle : e.toNat ≤ g.toNat)
  (hothers : ∀ i, writeJob u n i → i ≠ j → u.jt.jobs[i].record.state ≠ .draining) (hjt : jobTableFree u)
  (hw : u.waiting (.laneUnit n) = false) (hroom : u.re.hasRoom = true) (hr : u.lanes[n].role = .write)
  (hkeep : min u.re.laneSettings[n].retainDepth (u.lanes[n].slots.length - 1) = keep) (hd : keepsDrained keep u.lanes[n].slots)
include hj hst he hle hothers hjt hw hroom hr hkeep hd

/-- The release ends a job beside others of its lane, and closes nothing. -/
theorem afterRelease_endsBeside (hbeside : ∃ i, writeJob u n i ∧ i ≠ j)
    (h : ¬ Starving (timedLane keep u.timebase u.lanes[n]) u.re.laneSettings[n].streamingLimit) :
    afterRelease n (jobSignals [.released n g] u) = { writeEnded u j u.jt.jobs[j].record.pendingOutcome with
      lanes := u.lanes.set n (timedLane keep u.timebase u.lanes[n]) } := by
  have hfirst : takeJobSignal (.released n g) u = (u, [.ending j u.jt.jobs[j].record.pendingOutcome]) :=
    congrArg (u, ·) (drainedBy_one hj hst he hle hothers)
  rw [jobSignals_two _ _ hjt hfirst hjt (takeEnding_beside hj hbeside hw hroom) hjt.2]
  obtain ⟨i, hi, hne⟩ := hbeside
  exact afterRelease_quiet (s := writeEnded u j u.jt.jobs[j].record.pendingOutcome) hkeep hd hr ⟨i, writeJob_writeEnded hi hne⟩ h

/-- The release ends the last job of its lane, whose slots are all released: the lane is IDLE. -/
theorem afterRelease_endsLast (hsole : ∀ i, writeJob u n i → i = j)
    (hslots : ∀ x, SlotState.ready x ∉ u.lanes[n].slots ∧ SlotState.opened x ∉ u.lanes[n].slots)
    (hc : n ∉ u.sc.claims) (hl : n ∉ u.sc.waitList) :
    afterRelease n (jobSignals [.released n g] u) = { writeEnded u j u.jt.jobs[j].record.pendingOutcome with
      lanes := u.lanes.set n { idleLane u.lanes[n] with slots := retained keep u.lanes[n].slots } } := by
  have hfirst : takeJobSignal (.released n g) u = (u, [.ending j u.jt.jobs[j].record.pendingOutcome]) :=
    congrArg (u, ·) (drainedBy_one hj hst he hle hothers)
  rw [jobSignals_two _ _ hjt hfirst hjt (takeEnding_last hj hsole hw hroom hr hslots hc hl) hjt.2]
  let v : State := { writeEnded u j u.jt.jobs[j].record.pendingOutcome with lanes := u.lanes.set n (idleLane u.lanes[n]) }
  have hidle : afterRelease n v = { v with lanes := v.lanes.set n { idleLane u.lanes[n] with
      slots := retained keep u.lanes[n].slots } } :=
    afterRelease_idle (s := v) (y := idleLane u.lanes[n]) (Vector.getElem_set_self n.isLt) hkeep hd rfl
  exact hidle.trans (congrArg (fun y => ({ v with lanes := y } : State)) (Vector.set_set _ n.isLt))

end Ends

/-! ## A release, once the catalog and the cartridge have it -/

/-- The release of a group of lane `n` in slot `k`: what it reads, when, and the cartridge and the memory that it leaves. -/
structure Release where
  s : State
  n : LaneId
  k : Nat
  time : Nat
  read : List Byte
  g : Word
  c : CartId
  x : CartRecord
  m : List Host.Cell

namespace Release

/-- The state that a release leaves, with the lane as given. -/
def after (r : Release) (y : Lane) : State := { r.s with
  mem := r.m
  readData := r.read
  timebase := r.time
  cd := { r.s.cd with records := r.s.cd.records.set r.c (some (writtenOnce r.x)) }
  lanes := r.s.lanes.set r.n y }

/-- The lane with the group's slot DRAINED. -/
def lane (r : Release) : Lane := { r.s.lanes[r.n] with slots := r.s.lanes[r.n].slots.set r.k (.drained r.g) }

/-- The DRAINED slots that stay. -/
def keep (r : Release) : Nat := min r.s.re.laneSettings[r.n].retainDepth (r.s.lanes[r.n].slots.length - 1)

/-- The lane once its oldest DRAINED slots have been freed and the release has been timed. -/
def timed (r : Release) : Lane := timedLane r.keep r.time r.lane

/-- What the Job Table's signal and the lane's tests make of a release. -/
def settledLast (r : Release) : State := afterRelease r.n (jobSignals [.released r.n r.g] (r.after r.lane))

/-- What is known of a lane and the Job Table at a release. -/
structure Ok (r : Release) : Prop where
  role : r.s.lanes[r.n].role = .write
  drained : keepsDrained r.keep r.lane.slots
  free : jobTableFree r.s

variable {r : Release}

theorem after_lane (y : Lane) : (r.after y).lanes[r.n] = y := Vector.getElem_set_self r.n.isLt

theorem after_set (y z : Lane) : { r.after y with lanes := (r.after y).lanes.set r.n z } = r.after z :=
  congrArg (fun v => ({ r.after y with lanes := v } : State)) (Vector.set_set _ r.n.isLt)

theorem keep_lane : min (r.after r.lane).re.laneSettings[r.n].retainDepth ((r.after r.lane).lanes[r.n].slots.length - 1) = r.keep := by
  rw [after_lane, show r.lane.slots.length = r.s.lanes[r.n].slots.length from List.length_set]
  rfl

theorem timed_lane : timedLane r.keep (r.after r.lane).timebase (r.after r.lane).lanes[r.n] = r.timed := by
  rw [after_lane]
  rfl

section Keeps
variable (ok : r.Ok) (hnone : ∀ j, writeJob r.s r.n j → r.s.jt.jobs[j].record.state ≠ .draining)
include ok hnone

theorem settledLast_goesOn : r.settledLast = afterRelease r.n (r.after r.lane) := by
  unfold settledLast
  rw [jobSignals_one (.released r.n r.g) (r.after r.lane) ok.free (r.after r.lane)
    (congrArg (r.after r.lane, ·) (drainedBy_none (s := r.after r.lane) hnone)) ok.free.2]

variable (hj : ∃ j, writeJob r.s r.n j)
include hj

theorem settledLast_quiet (h : ¬ Starving r.timed r.s.re.laneSettings[r.n].streamingLimit) : r.settledLast = r.after r.timed := by
  rw [settledLast_goesOn ok hnone, afterRelease_quiet keep_lane (by rw [after_lane]; exact ok.drained)
    (by rw [after_lane]; exact ok.role) hj (by rw [timed_lane]; exact h), timed_lane, after_set]

variable (h : Starving r.timed r.s.re.laneSettings[r.n].streamingLimit) {p : Position} (hp : r.s.lanes[r.n].position = some p)
include h hp

theorem settledLast_pends (hk : r.s.lanes[r.n].packing ≠ none) : r.settledLast = r.after { r.timed with
    closePending := some (r.s.lanes[r.n].closePending.getD (.starve, p.slot)) } := by
  rw [settledLast_goesOn ok hnone, afterRelease_pends keep_lane (by rw [after_lane]; exact ok.drained)
    (by rw [after_lane]; exact ok.role) hj (by rw [timed_lane]; exact h) (by rw [after_lane]; exact hp) (by rw [after_lane]; exact hk),
    timed_lane, after_set, after_lane]
  rfl

theorem settledLast_closes {g : Word} {l : Layout} (hl : r.s.wd.layout = some l) (hk : r.s.lanes[r.n].packing = none)
    (hg : r.s.lanes[r.n].slots[p.slot]? = some (.opened g)) (hready : r.s.lanes[r.n].slots[r.k]? = some (.ready r.g))
    (hf : p.frame ≤ 7) (ho : p.offset ≤ 4076) (hroom : r.s.re.hasRoom = true) :
    ∃ m, padClosed r.m m (l.pools[r.n].base + 32768 * p.slot) g p ∧ r.settledLast = { r.after (closedLane r.timed p g .starve) with
      mem := m
      re := { r.s.re with backlog := r.s.re.backlog ++
        [.groupReady r.n .starve (BitVec.ofNat 32 (l.pools[r.n].base + 32768 * p.slot)) g p.slot p.starts] } } := by
  have hne : r.k ≠ p.slot := by
    intro e
    rw [← e] at hg
    cases hready.symm.trans hg
  have hslot : (r.after r.lane).lanes[r.n].slots[p.slot]? = some (.opened g) := by
    rw [after_lane]
    exact (List.getElem?_set_ne hne).trans hg
  obtain ⟨m, hm, he⟩ := afterRelease_closes keep_lane (by rw [after_lane]; exact ok.drained) (by rw [after_lane]; exact ok.role) hj
    (by rw [timed_lane]; exact h) (by rw [after_lane]; exact hp) hl (by rw [after_lane]; exact hk) hslot hf ho hroom
  refine ⟨m, hm, ?_⟩
  rw [settledLast_goesOn ok hnone, he, timed_lane]
  exact congrArg (fun v => ({ r.after r.lane with
    mem := m
    lanes := v
    re := { r.s.re with backlog := r.s.re.backlog ++
      [.groupReady r.n .starve (BitVec.ofNat 32 (l.pools[r.n].base + 32768 * p.slot)) g p.slot p.starts] } } : State))
    (Vector.set_set _ r.n.isLt)

end Keeps

section Ends
variable (ok : r.Ok) {j : SlotId} {e : Word} (hj : writeJob r.s r.n j) (hst : r.s.jt.jobs[j].record.state = .draining)
  (he : r.s.jt.jobs[j].record.lastEnd = some e) (hle : e.toNat ≤ r.g.toNat)
  (hothers : ∀ i, writeJob r.s r.n i → i ≠ j → r.s.jt.jobs[i].record.state ≠ .draining)
  (hw : r.s.waiting (.laneUnit r.n) = false) (hroom : r.s.re.hasRoom = true)
include ok hj hst he hle hothers hw hroom

theorem settledLast_beside (hbeside : ∃ i, writeJob r.s r.n i ∧ i ≠ j)
    (h : ¬ Starving r.timed r.s.re.laneSettings[r.n].streamingLimit) :
    r.settledLast = writeEnded (r.after r.timed) j r.s.jt.jobs[j].record.pendingOutcome := by
  unfold settledLast
  rw [afterRelease_endsBeside (u := r.after r.lane) hj hst he hle hothers ok.free hw hroom (by rw [after_lane]; exact ok.role) keep_lane
    (by rw [after_lane]; exact ok.drained) hbeside (by rw [timed_lane]; exact h), timed_lane]
  exact congrArg (fun v => ({ writeEnded (r.after r.lane) j r.s.jt.jobs[j].record.pendingOutcome with lanes := v } : State))
    (Vector.set_set _ r.n.isLt)

theorem settledLast_sole (hsole : ∀ i, writeJob r.s r.n i → i = j)
    (hslots : ∀ x, SlotState.ready x ∉ retained r.keep r.lane.slots ∧ SlotState.opened x ∉ retained r.keep r.lane.slots)
    (hc : r.n ∉ r.s.sc.claims) (hl : r.n ∉ r.s.sc.waitList) :
    r.settledLast = writeEnded (r.after { idleLane r.lane with slots := retained r.keep r.lane.slots }) j
      r.s.jt.jobs[j].record.pendingOutcome := by
  have hgone (x : Word) : SlotState.ready x ∉ (r.after r.lane).lanes[r.n].slots
      ∧ SlotState.opened x ∉ (r.after r.lane).lanes[r.n].slots := by
    rw [after_lane]
    obtain ⟨h1, h2⟩ := hslots x
    exact ⟨fun h => h1 (mem_retained_ready h), fun h => h2 (mem_retained_opened h)⟩
  unfold settledLast
  rw [afterRelease_endsLast (u := r.after r.lane) hj hst he hle hothers ok.free hw hroom (by rw [after_lane]; exact ok.role) keep_lane
    (by rw [after_lane]; exact ok.drained) hsole hgone hc hl, after_lane]
  exact congrArg (fun v => ({ writeEnded (r.after r.lane) j r.s.jt.jobs[j].record.pendingOutcome with lanes := v } : State))
    (Vector.set_set _ r.n.isLt)

end Ends

end Release

/-- Settles O42: a release by its cases, and the final-byte reads that release nothing. -/
theorem groupReleased : Obligations.GroupReleased := by
  intro s addr length now n k l hs hok hl hf hw hr lane time read keep limit
  have hread := controllerRead_signals (now := now) hf hw
  have hnext {u : State} (e : takeFinalByte n k { s.observeTime now with readData := read } = u) :
      ∃ b, exec (.finalByteRead addr length now) s = .next (withStale b u) := by
    rw [exec_finalByteRead hok]
    exact runStep_next s u _ hs (hread.trans e)
  refine ⟨?_, fun h => ?_, fun h => hnext (takeFinalByte_released (s := { s.observeTime now with readData := read }) h)⟩
  swap
  · have hcount : misorderedRead n { s.observeTime now with readData := read } = { s with
        readData := read
        timebase := time
        lanes := s.lanes.set n { lane with counters := { lane.counters with
          misordered := if lane.counters.misordered = 0xFFFFFFFF then 0xFFFFFFFF else lane.counters.misordered + 1 } } } := by
      rw [← satInc_eq]
      rfl
    rcases h with ⟨g, hk⟩ | ⟨g, g', hk, hg, hlt⟩
    · exact hnext ((takeFinalByte_opened (s := { s.observeTime now with readData := read }) hk).trans hcount)
    · exact hnext ((takeFinalByte_later (s := { s.observeTime now with readData := read }) hk hg hlt).trans hcount)
  · intro g c x hk hmin hc hx hb hjt hdr drained interval timed settled released starves
    obtain ⟨m, hm, he⟩ := releaseGroup_eq (s := { s.observeTime now with readData := read }) k g hc hx hl hb
    let r : Release := { s := s, n := n, k := k, time := time, read := read, g := g, c := c, x := x, m := m }
    have ok : r.Ok := ⟨hr, keepsDrained_set hdr, hjt⟩
    have hstep : takeFinalByte n k { s.observeTime now with readData := read } = r.settledLast :=
      (takeFinalByte_oldest (s := { s.observeTime now with readData := read }) hk hr hmin).trans he
    refine ⟨fun hj hnone => ⟨fun hns => ?_, fun p hstarve hp => ⟨fun hpk => ?_, fun h hpk hg hfr hoff hroom => ?_⟩⟩,
      fun j e hj hst he hle hroom hothers => ?_⟩
    · obtain ⟨b, hb⟩ := hnext (hstep.trans (Release.settledLast_quiet ok hnone hj hns))
      exact ⟨_, hb, hm, rfl⟩
    · obtain ⟨b, hb⟩ := hnext (hstep.trans (Release.settledLast_pends ok hnone hj hstarve hp hpk))
      exact ⟨_, hb, hm, rfl⟩
    · obtain ⟨m', hm', hclose⟩ := Release.settledLast_closes ok hnone hj hstarve hp hl hpk hg hk hfr hoff hroom
      obtain ⟨b, hb⟩ := hnext (hstep.trans hclose)
      exact ⟨_, m, hb, hm, hm', rfl⟩
    · intro job ended
      have hroom := hasRoom_of_roomFor hroom
      refine ⟨fun hbeside hns => ?_, fun hsole hc hwl hfree => ?_⟩
      · obtain ⟨b, hb⟩ := hnext (hstep.trans (Release.settledLast_beside ok hj hst he hle hothers hw hroom hbeside hns))
        exact ⟨_, hb, hm, rfl⟩
      · obtain ⟨b, hb⟩ := hnext (hstep.trans (Release.settledLast_sole ok hj hst he hle hothers hw hroom hsole hfree hc hwl))
        exact ⟨_, hb, hm, rfl⟩

end Sys2Proof.Proofs.Releases
end

section
/-! PROOFS. Chunks that are given up (R41, R48, R49), and the cut-off of a lane's WRITE job at a full cartridge (R48, R76). -/
namespace Sys2Proof.Proofs.CutOffs
open Sys2Proof Sys2Proof.Machine Sys2Proof.Safety Sys2Proof.Laws
open Sys2Proof.Proofs.JobEnds Sys2Proof.Proofs.Requests Sys2Proof.Proofs.Retain Sys2Proof.Proofs.Streams
open Sys2Proof.Proofs.StreamWrites Sys2Proof.Proofs.WriteEnds

/-! ## A stream that gives up its chunks -/

theorem vector_two {α : Type} (v : Vector α 2) : v = #v[v[0], v[1]] := by
  ext j hj
  match j, hj with
  | 0, _ => rfl
  | 1, _ => rfl

/-- A buffer whose chunk is given up; a COMPRESSING one is left to the Compressor, a PACKING one, unless stopped, to the
packer. -/
def leftBuffer (stopPacking : Bool) (b : Buffer) : Buffer :=
  if b.state ∈ [.filling, .closed, .ready] ∨ (stopPacking = true ∧ b.state = .packing) then {} else b

/-- The Compressor once the chunk of a buffer in state `x` has been given up. -/
def gaveUp (i : StreamId) (b : Fin 2) (x : BufferState) (ce : Compressor) : Compressor := { ce with
  queue := ce.queue.filter fun e => !(ChunkEntry.names e i b && decide (x = .closed))
  inFlight := ce.inFlight.map fun c =>
    if ChunkEntry.names c.entry i b && decide (x = .compressing) then { c with discard := true } else c }

theorem gaveUp_other {i : StreamId} {b : Fin 2} {x : BufferState} (ce : Compressor) (hc : x ≠ .closed)
    (hp : x ≠ .compressing) : gaveUp i b x ce = ce := by
  have hmap : (fun c : Compression => if ChunkEntry.names c.entry i b && decide (x = .compressing) then
      { c with discard := true } else c) = id := by
    funext c
    simp [hp]
  unfold gaveUp
  rw [hmap, Option.map_id_fun]
  simp [hc]

theorem gaveUp_closed (i : StreamId) (b : Fin 2) (ce : Compressor) :
    gaveUp i b .closed ce = { ce with queue := ce.queue.filter fun e => !e.names i b } := by
  simp [gaveUp]

theorem gaveUp_compressing (i : StreamId) (b : Fin 2) (ce : Compressor) : gaveUp i b .compressing ce =
    { ce with inFlight := ce.inFlight.map fun c => if c.entry.names i b then { c with discard := true } else c } := by
  simp [gaveUp]

section Left
variable {stop : Bool} {b : Buffer}

theorem leftBuffer_gone (h : b.state = .filling ∨ b.state = .closed ∨ b.state = .ready) : leftBuffer stop b = {} :=
  if_pos (.inl (by simpa using h))

theorem leftBuffer_kept (h : b.state = .free ∨ b.state = .compressing) : leftBuffer stop b = b :=
  if_neg (by rcases h with h | h <;> simp [h])

theorem leftBuffer_packing (h : b.state = .packing) : leftBuffer stop b = if stop then {} else b := by
  unfold leftBuffer
  cases stop <;> simp [h]

theorem leftBuffer_free (hp : b.state ≠ .packing) (hc : b.state ≠ .compressing) : (leftBuffer stop b).state = .free := by
  cases h : b.state with
  | free => rw [leftBuffer_kept (.inl h), h]
  | filling => rw [leftBuffer_gone (.inl h)]
  | closed => rw [leftBuffer_gone (.inr (.inl h))]
  | ready => rw [leftBuffer_gone (.inr (.inr h))]
  | compressing => exact absurd h hc
  | packing => exact absurd h hp

end Left

/-- A buffer gives up what it holds. -/
theorem giveUpBuffer_eq (i : StreamId) (stop : Bool) (s : State) (b : Fin 2) : giveUpBuffer i stop s b =
    { s.modBuffer i b (leftBuffer stop) with ce := gaveUp i b s.streams[i].buffers[b].state s.ce } := by
  have hmod {y : Buffer} (h : leftBuffer stop s.streams[i].buffers[b] = y) :
      s.modBuffer i b (leftBuffer stop) = s.modBuffer i b fun _ => y :=
    congrArg (fun z => s.modBuffer i b fun _ => z) h
  have hself : s.modBuffer i b (fun _ => s.streams[i].buffers[b]) = s := modBuffer_id s i b
  unfold giveUpBuffer
  split
  next h => rw [hmod (leftBuffer_kept (.inl h)), hself, h, gaveUp_other (x := .free) _ nofun nofun]
  next h => rw [hmod (leftBuffer_gone (.inl h)), h, gaveUp_other (x := .filling) _ nofun nofun]; rfl
  next h => rw [hmod (leftBuffer_gone (.inr (.inr h))), h, gaveUp_other (x := .ready) _ nofun nofun]; rfl
  next h => rw [hmod (leftBuffer_gone (.inr (.inl h))), h, gaveUp_closed]; rfl
  next h => rw [hmod (leftBuffer_kept (.inr h)), hself, h, gaveUp_compressing]
  next h =>
    rw [hmod (leftBuffer_packing h), h, gaveUp_other (x := .packing) _ nofun nofun]
    cases stop with
    | true => rfl
    | false => exact hself.symm

/-- A stream gives up its chunks. -/
theorem giveUpStream_eq (i : StreamId) (stop : Bool) (s : State) : giveUpStream i stop s = { s with
    streams := s.streams.set i { s.streams[i] with buffers := s.streams[i].buffers.map (leftBuffer stop) }
    ce := gaveUp i 1 s.streams[i].buffers[1].state (gaveUp i 0 s.streams[i].buffers[0].state s.ce) } := by
  obtain ⟨x, y, hb⟩ : ∃ x y, s.streams[i].buffers = #v[x, y] := ⟨_, _, vector_two _⟩
  have hb' : s.streams[i.val].buffers = #v[x, y] := hb
  unfold giveUpStream
  rw [List.foldl_cons, List.foldl_cons, List.foldl_nil, giveUpBuffer_eq, giveUpBuffer_eq]
  simp [State.modBuffer, State.modStream, hb']

theorem gaveUp_both (s : State) (i : StreamId) :
    gaveUp i 1 s.streams[i].buffers[1].state (gaveUp i 0 s.streams[i].buffers[0].state s.ce)
      = compressorLeft s fun j => decide (j = i) := by
  rw [compressorLeft_eq]
  unfold gaveUp
  dsimp only
  rw [List.filter_filter, Option.map_map]
  congr 1
  · refine List.filter_congr fun e _ => ?_
    rw [Bool.not_or, Bool.and_comm]
  · refine congrArg (fun f => s.ce.inFlight.map f) (funext fun c => ?_)
    dsimp only [Function.comp_apply]
    by_cases h0 : (c.entry.names i 0 && decide (s.streams[i].buffers[0].state = .compressing)) = true
    · simp only [h0, if_true, Bool.true_or, ite_self]
    · simp only [h0, Bool.false_eq_true, if_false, Bool.false_or]

/-- The stream of state `s` CLOSING, its chunks given up but for one that is being packed (R41, R48). -/
def leftClosing (s : State) (i : StreamId) : State := { s with
  streams := s.streams.set i { s.streams[i] with phase := .closing, buffers := buffersLeft s.streams[i] }
  ce := compressorLeft s fun j => decide (j = i)
  wd := { s.wd with streamAperture := s.wd.streamAperture.set i { s.wd.streamAperture[i] with
    limit := s.wd.streamAperture[i].expected } } }

theorem buffersLeft_eq (st : Stream) : buffersLeft st = st.buffers.map (leftBuffer false) := by
  unfold buffersLeft leftBuffer
  refine congrArg (fun f => st.buffers.map f) (funext fun b => ?_)
  simp only [Bool.false_eq_true, false_and, or_false]

theorem streamClosing_eq (i : StreamId) (s : State) : streamClosing i s = { s with
    streams := s.streams.set i { s.streams[i] with phase := .closing }
    wd := { s.wd with streamAperture := s.wd.streamAperture.set i { s.wd.streamAperture[i] with
      limit := s.wd.streamAperture[i].expected } } } := by
  have hlimit : (s.modStream i fun st => { st with phase := .closing }).streamLimit i = s.wd.streamAperture[i].expected := by
    unfold State.streamLimit
    simp [State.modStream]
  unfold streamClosing recomputeLimit
  rw [hlimit]
  rfl

theorem streamClosing_giveUp (i : StreamId) (s : State) : streamClosing i (giveUpStream i false s) = leftClosing s i := by
  rw [giveUpStream_eq, gaveUp_both, ← buffersLeft_eq, streamClosing_eq]
  simp only [Fin.getElem_fin, Vector.getElem_set_self, Vector.set_set]
  rfl

/-! ## The chunks that keep a FLUSHING job (R40) -/

theorem discarding_eq_false {s : State} {i : StreamId} {b : Fin 2} : s.discarding i b = false ↔
    ∀ c, s.ce.inFlight = some c → c.entry.stream = i → c.entry.buffer = b → c.discard = false := by
  unfold State.discarding
  cases h : s.ce.inFlight with
  | none => simp
  | some c => cases hd : c.discard <;> simp [ChunkEntry.names, hd]

theorem bufferBusy_iff {s : State} {i : StreamId} {b : Fin 2} : s.bufferBusy i b = true ↔ keepsFlushing s i b := by
  unfold State.bufferBusy keepsFlushing chunkLost
  rw [← discarding_eq_false]
  cases h : s.streams[i].buffers[b].state <;> simp

/-- The sequences of the chunks that the FULL flag gives up. -/
theorem mem_givenUp {s : State} {i : StreamId} {q : Word} : q ∈ s.givenUp i ↔
    ∃ b e, chunkLost s i b ∧ s.streams[i].buffers[b].entry = some e ∧ e.sequence = q := by
  unfold State.givenUp chunkLost
  simp only [List.mem_filterMap, ← discarding_eq_false]
  refine exists_congr fun b => ?_
  have hb : b = 0 ∨ b = 1 := by omega
  cases h : s.streams[i].buffers[b].state <;> cases he : s.streams[i].buffers[b].entry <;> simp [hb]

section LeftClosing
variable {s : State} {i : StreamId}

theorem leftClosing_stream : (leftClosing s i).streams[i] =
    { s.streams[i] with phase := .closing, buffers := buffersLeft s.streams[i] } := Vector.getElem_set_self i.isLt

theorem leftClosing_buffer (b : Fin 2) :
    (leftClosing s i).streams[i].buffers[b] = leftBuffer false s.streams[i].buffers[b] := by
  rw [leftClosing_stream, buffersLeft_eq]
  exact Vector.getElem_map _ b.isLt

theorem leftClosing_inFlight : (leftClosing s i).ce.inFlight = s.ce.inFlight.map fun c =>
    if c.entry.stream = i ∧ s.streams[i].buffers[c.entry.buffer].state = .compressing then { c with discard := true } else c := by
  refine congrArg (fun f => s.ce.inFlight.map f) (funext fun c => ?_)
  by_cases h : c.entry.stream = i
  · subst h; simp
  · simp [h]

theorem leftClosing_queue (e : ChunkEntry) : e ∈ (leftClosing s i).ce.queue ↔
    e ∈ s.ce.queue ∧ ¬ (e.stream = i ∧ s.streams[i].buffers[e.buffer].state = .closed) := by
  refine List.mem_filter.trans (and_congr_right fun _ => ?_)
  by_cases h : e.stream = i
  · subst h; simp
  · simp [h]

/-- A buffer that is not being packed, and whose chunk has been given up, keeps no job in FLUSHING. -/
theorem leftClosing_idle {b : Fin 2} (hp : s.streams[i].buffers[b].state ≠ .packing)
    (hc : s.streams[i].buffers[b].state = .compressing →
      ∃ c, s.ce.inFlight = some c ∧ c.entry.stream = i ∧ c.entry.buffer = b) :
    (leftClosing s i).bufferBusy i b = false := by
  refine Bool.not_eq_true _ ▸ mt bufferBusy_iff.mp ?_
  unfold keepsFlushing chunkLost
  rw [leftClosing_buffer, leftClosing_inFlight]
  by_cases hst : s.streams[i].buffers[b].state = .compressing
  · obtain ⟨c, hf, hi, hb⟩ := hc hst
    subst hi hb
    rw [leftBuffer_kept (.inr hst), hst, hf]
    simp only [Option.map_some, true_and, hst, if_true, Option.some.injEq, forall_eq', Bool.true_eq_false, imp_false,
      not_true_eq_false, reduceCtorEq, or_self, not_false_eq_true]
  · rw [leftBuffer_free hp hst]
    simp only [reduceCtorEq, false_and, or_self, not_false_eq_true]

theorem leftClosing_packing {b : Fin 2} (hp : s.streams[i].buffers[b].state = .packing) :
    (leftClosing s i).bufferBusy i b = true := by
  refine bufferBusy_iff.mpr (.inl ?_)
  rw [leftClosing_buffer, leftBuffer_packing hp]
  exact hp

end LeftClosing

/-! ## The cut-off (R48) -/

theorem lowestWord_eq (ws : List Word) : lowestWord ws = lowestGroup ws := by cases ws <;> rfl

/-- The record of a job that its lane's FULL flag cuts off. -/
def cutRecord (s : State) (k : SlotId) (state : JobState) : JobRecord :=
  let r := s.jt.jobs[k].record
  { r with
    nextSeq := (lowestWord (s.givenUp r.stream)).getD r.nextSeq
    closedFinal := r.closedFinal && !(s.givenUp r.stream).contains 0xFFFFFFFF
    pendingOutcome := .cartridgeFull
    state := state }

/-- The state once the FULL flag has cut off a job, which is then in the state given. -/
def cutOffTo (s : State) (k : SlotId) (state : JobState) : State :=
  { leftClosing s s.jt.jobs[k].record.stream with
    jt := { s.jt with jobs := s.jt.jobs.set k { s.jt.jobs[k] with record := cutRecord s k state } } }

theorem cutOffJob_eq (s : State) (k : SlotId) : cutOffJob s k = cutOffTo s k .flushing := by
  unfold cutOffJob
  dsimp only
  rw [streamClosing_giveUp]
  rfl

/-- What the cut-off of a job is, where Job Table, streams, windows and Compressor are as it leaves them. -/
theorem cutOff_cutOffTo {s t : State} {k : SlotId} {state : JobState} (hjt : t.jt = (cutOffTo s k state).jt)
    (hst : t.streams = (cutOffTo s k state).streams) (hwd : t.wd = (cutOffTo s k state).wd)
    (hce : t.ce = (cutOffTo s k state).ce) : cutOff s t k state := by
  unfold cutOff
  intro job i lost
  have hlost (q : Word) : q ∈ s.givenUp i ↔ lost q := mem_givenUp
  have hstream : t.streams[i] = { s.streams[i] with phase := .closing, buffers := buffersLeft s.streams[i] } := by
    rw [hst]; exact leftClosing_stream
  refine ⟨⟨(lowestWord (s.givenUp i)).getD job.nextSeq, job.closedFinal && !(s.givenUp i).contains 0xFFFFFFFF, ?_, ?_, ?_, ?_⟩,
    ?_, ?_, fun b => ?_, ?_, fun e => ?_, ?_, fun j hj => ?_, ?_, fun j hj => ⟨?_, ?_⟩, ?_, ?_⟩
  · rw [hjt]; exact Vector.getElem_set_self k.isLt
  · intro hnone
    rw [List.eq_nil_iff_forall_not_mem.mpr fun q hq => hnone q ((hlost q).mp hq)]
    rfl
  · rintro ⟨q, hq⟩
    cases hw : lowestWord (s.givenUp i) with
    | none =>
      rw [lowestWord_eq] at hw
      have := (hlost q).mpr hq
      rw [lowestGroup_eq_none hw] at this
      cases this
    | some w =>
      rw [lowestWord_eq] at hw
      obtain ⟨hm, hl⟩ := lowestGroup_spec hw
      exact ⟨(hlost w).mp hm, fun q hq => hl q ((hlost q).mpr hq)⟩
  · rw [← hlost, Bool.and_eq_true, Bool.not_eq_true', List.contains_eq_mem, decide_eq_false_iff_not]
  · rw [hstream]
  · rw [hstream]
  · rw [hst]
    refine (leftClosing_buffer b).trans ?_
    unfold leftBuffer
    simp only [Bool.false_eq_true, false_and, or_false]
    rfl
  · rw [hwd]; exact Vector.getElem_set_self i.isLt
  · rw [hce]
    exact leftClosing_queue e
  · rw [hce]; exact leftClosing_inFlight
  · rw [hjt]; exact Vector.getElem_set_ne k.isLt j.isLt fun e => hj (Fin.ext e.symm)
  · rw [hjt]; rfl
  · rw [hst]; exact Vector.getElem_set_ne i.isLt j.isLt fun e => hj (Fin.ext e.symm)
  · rw [hwd]; exact Vector.getElem_set_ne i.isLt j.isLt fun e => hj (Fin.ext e.symm)
  · rw [hwd]; rfl
  · rw [hce]; rfl

end Sys2Proof.Proofs.CutOffs
end

section
/-! PROOFS. The FULL flag of a lane (R48, R76) and the FLUSH test (R80). -/
namespace Sys2Proof.Proofs.CutOffs
open Sys2Proof Sys2Proof.Machine Sys2Proof.Safety Sys2Proof.Laws
open Sys2Proof.Proofs.JobEnds Sys2Proof.Proofs.Streams Sys2Proof.Proofs.WriteEnds

/-! ## The FLUSH test (R80) -/

section Flush
variable {s : State} {n : LaneId}

/-- With no slot open there is nothing to pad-close. -/
theorem padClose_none (reason : CloseReason) (h : s.lanes[n].position = none) : padClose n reason s = s := by
  unfold padClose
  split
  next => rfl
  next p hp => cases h.symm.trans hp

theorem flushTest_closed (h : s.lanes[n].position = none) : flushTest n s = s := by
  unfold flushTest
  rw [padClose_none .flush h, ite_self]

/-- A WRITE job that still packs keeps the lane's group open. -/
theorem flushTest_others (h : ∃ i, writeJob s n i ∧ s.jt.jobs[i].record.state ≠ .draining) : flushTest n s = s := by
  obtain ⟨i, hi, hst⟩ := h
  refine if_neg fun hc => hst ?_
  obtain ⟨hall, -⟩ := Bool.and_eq_true_iff.mp hc
  exact of_decide_eq_true (List.all_eq_true.mp hall i (mem_writeJobsOnLane.mpr hi))

theorem flushTest_closes (h : ∀ i, writeJob s n i → s.jt.jobs[i].record.state = .draining) (hp : s.lanes[n].packing = none) :
    flushTest n s = padClose n .flush s := by
  refine if_pos (Bool.and_eq_true_iff.mpr ⟨List.all_eq_true.mpr fun i hi => ?_, ?_⟩)
  · exact decide_eq_true (h i (mem_writeJobsOnLane.mp hi))
  · rw [hp]; rfl

theorem laneSignal_flush (hw : s.waiting (.laneUnit n) = false) : laneSignal n .flushTest s = flushTest n s :=
  if_neg (Bool.not_eq_true _ ▸ hw)

end Flush

/-! ## FLUSHING gives way to DRAINING (R40) -/

/-- The state with one job DRAINING. -/
def drainingJob (s : State) (k : SlotId) : State := { s with
  jt := { s.jt with jobs := s.jt.jobs.set k { s.jt.jobs[k] with record := { s.jt.jobs[k].record with state := .draining } } } }

section DrainingJob
variable {s : State} {n : LaneId} {j k : SlotId}

theorem drainingJob_self : (drainingJob s k).jt.jobs[k] =
    { s.jt.jobs[k] with record := { s.jt.jobs[k].record with state := .draining } } := Vector.getElem_set_self k.isLt

theorem drainingJob_other (h : j ≠ k) : (drainingJob s k).jt.jobs[j] = s.jt.jobs[j] :=
  Vector.getElem_set_ne k.isLt j.isLt fun e => h (Fin.ext e.symm)

theorem writeJob_drainingJob : writeJob (drainingJob s k) n j ↔ writeJob s n j := by
  unfold writeJob
  by_cases h : j = k
  · subst h; rw [drainingJob_self]
  · rw [drainingJob_other h]

end DrainingJob

/-- A FLUSHING WRITE job with nothing left to pack is DRAINING, and its last end group is still to be released. -/
theorem takeFlushTest_drains {s v : State} {n : LaneId} {k : SlotId} {r : JobRecord} {e : Word} {x : CartRecord}
    (hr : s.jt.jobs[k].record = r) (hj : writeJob s n k) (hst : r.state = .flushing)
    (hidle : ∀ b, s.bufferBusy r.stream b = false) (hw : s.waiting (.laneUnit n) = false)
    (hv : flushTest n (drainingJob s k) = v) (he : r.lastEnd = some e) (hx : v.cd.records[r.cart] = some x)
    (hle : x.written.toNat ≤ e.toNat) : takeFlushTest k s = (v, []) := by
  obtain ⟨hl, rfl, hk⟩ := hj
  subst hr
  have hsignal : laneSignal s.jt.jobs[k].record.lane .flushTest (drainingJob s k) = v :=
    (laneSignal_flush (s := drainingJob s k) hw).trans hv
  have hreleased : v.groupReleased s.jt.jobs[k].record e = false := by
    unfold State.groupReleased
    rw [hx]
    exact decide_eq_false (by omega)
  unfold takeFlushTest
  dsimp only
  rw [if_pos ⟨hl, hk, hst, by rw [hidle]; rfl, by rw [hidle]; rfl⟩]
  refine Prod.ext hsignal ?_
  rw [he]
  refine if_neg fun h => ?_
  have h : (laneSignal s.jt.jobs[k].record.lane .flushTest (drainingJob s k)).groupReleased s.jt.jobs[k].record e = true := h
  rw [hsignal, hreleased] at h
  cases h

/-! ## The FULL flag (R48, R76) -/

section Full
variable {s : State} {n : LaneId} {k : SlotId}

theorem writeJobsOnLane_sole (h : soleWriteJob s n k) : s.writeJobsOnLane n = [k] := by
  obtain ⟨hj, ho⟩ := h
  exact (List.filterMap_some).symm.trans (filterMap_eq_singleton (writeJobsOnLane_nodup s n) (mem_writeJobsOnLane.mpr hj) rfl
    fun i hi hne => absurd (ho i (mem_writeJobsOnLane.mp hi)) hne)

theorem takeFullSet (h : soleWriteJob s n k) (hc : stillPacks s.jt.jobs[k].record) :
    takeJobSignal (.fullSet n) s = (cutOffTo s k .flushing, [.flushTest k]) := by
  have hcut : s.jt.jobs[k].record.cutOff = true := by
    unfold JobRecord.cutOff
    rcases hc with h | ⟨h1, h2⟩
    · rw [h]; rfl
    · rw [h1, h2]; rfl
  have hjobs : s.cutOffJobs n = [k] := by
    unfold State.cutOffJobs
    rw [writeJobsOnLane_sole h]
    exact List.filter_cons_of_pos hcut
  have htake : takeJobSignal (.fullSet n) s = ((s.cutOffJobs n).foldl cutOffJob s, (s.cutOffJobs n).map .flushTest) := rfl
  rw [htake, hjobs]
  exact congrArg (·, [JobSignal.flushTest k]) (cutOffJob_eq s k)

/-- The lane with its FULL flag set. -/
def flagged (n : LaneId) (s : State) : State := { s with lanes := s.lanes.set n { s.lanes[n] with full := true } }

theorem setFull_signals (hc : n ∉ s.sc.claims) (hw : n ∉ s.sc.waitList) : setFull n s = jobSignals [.fullSet n] (flagged n s) :=
  congrArg (jobSignals [.fullSet n]) (leaveCatalog_out (s := flagged n s) hc hw)

theorem cutOffTo_record (state : JobState) : (cutOffTo s k state).jt.jobs[k].record = cutRecord s k state :=
  congrArg JobSlot.record (Vector.getElem_set_self k.isLt)

section Cut
variable (hjt : jobTableFree s) (hsole : soleWriteJob s n k) (hstill : stillPacks s.jt.jobs[k].record)
include hjt hsole hstill

theorem jobSignals_full {v : State} (hv : takeFlushTest k (cutOffTo s k .flushing) = (v, [])) (hheld : v.jt.held = []) :
    jobSignals [.fullSet n] s = v :=
  jobSignals_two (.fullSet n) (.flushTest k) hjt (takeFullSet hsole hstill) hjt hv hheld

/-- A job whose chunk is being packed is cut off and stays in FLUSHING. -/
theorem jobSignals_full_flushing {b : Fin 2}
    (hb : s.streams[s.jt.jobs[k].record.stream].buffers[b].state = .packing) :
    jobSignals [.fullSet n] s = cutOffTo s k .flushing := by
  refine jobSignals_full hjt hsole hstill (takeFlushTest_keeps fun _ => ?_) hjt.2
  have hstream : (cutOffTo s k .flushing).jt.jobs[k].record.stream = s.jt.jobs[k].record.stream :=
    (congrArg JobRecord.stream (cutOffTo_record (s := s) (k := k) .flushing)).trans rfl
  have hbusy : (cutOffTo s k .flushing).bufferBusy s.jt.jobs[k].record.stream b = true := leftClosing_packing hb
  rw [hstream]
  have : b = 0 ∨ b = 1 := by omega
  rcases this with rfl | rfl
  · exact .inl hbusy
  · exact .inr hbusy

/-- A job with nothing left to pack is cut off and DRAINING; no slot of the lane is open. -/
theorem jobSignals_full_draining {e : Word} {x : CartRecord} (hn : nothingPacked s s.jt.jobs[k].record.stream)
    (he : s.jt.jobs[k].record.lastEnd = some e) (hx : s.cd.records[s.jt.jobs[k].record.cart] = some x)
    (hle : x.written.toNat ≤ e.toNat) (hw : s.waiting (.laneUnit n) = false) (hp : s.lanes[n].position = none) :
    jobSignals [.fullSet n] s = cutOffTo s k .draining := by
  have hslot : (cutOffTo s k .flushing).jt.jobs[k] = { s.jt.jobs[k] with record := cutRecord s k .flushing } :=
    Vector.getElem_set_self k.isLt
  have hjob : writeJob (cutOffTo s k .flushing) n k := by
    unfold writeJob
    rw [hslot]
    exact hsole.1
  have hdrain : drainingJob (cutOffTo s k .flushing) k = cutOffTo s k .draining := by
    unfold drainingJob
    rw [hslot]
    refine congrArg (fun v => ({ cutOffTo s k .draining with jt := { s.jt with jobs := v } } : State)) ?_
    exact Vector.set_set ..
  refine jobSignals_full hjt hsole hstill (takeFlushTest_drains (cutOffTo_record .flushing) hjob rfl (fun b => ?_) hw
    ((congrArg (flushTest n) hdrain).trans (flushTest_closed hp)) he hx hle) hjt.2
  obtain ⟨h1, h2⟩ := hn b
  exact leftClosing_idle h1 h2

end Cut

end Full

end Sys2Proof.Proofs.CutOffs
end

section
/-! PROOFS. Copying a segment into frames (R70, R75, R76): FRAME_COMPLETE and what follows a full frame 7. -/
namespace Sys2Proof.Proofs.Copying
open Sys2Proof Sys2Proof.Machine Sys2Proof.Safety Sys2Proof.Laws

/-! ## Going on in a new group (R75) -/

section Continue
variable {s : State} {n : LaneId} {k : Packing} (h : s.copying n = some k)
include h

theorem continueSegment_ends (hr : k.rest = []) : continueSegment n s = s := by
  unfold continueSegment
  rw [h]
  exact if_neg (by simp [hr])

theorem continueSegment_waits (hf : s.lanes[n].slots[s.lanes[n].nextSlot]? ≠ some .free) : continueSegment n s = s := by
  unfold continueSegment
  have hfree : s.lanes[n].nextFree = false := decide_eq_false hf
  rw [h]
  exact if_neg (by rw [hfree, Bool.and_false]; exact nofun)

end Continue

/-- The lane with its next slot opened. -/
def openedLane (time : Nat) (l : Lane) : Lane := { l with
  slots := l.slots.set l.nextSlot (.opened l.nextGroup)
  nextGroup := l.nextGroup + 1
  nextSlot := (l.nextSlot + 1) % l.slots.length
  openedAt := some time
  position := some { slot := l.nextSlot } }

theorem openSlot_eq (n : LaneId) (s : State) :
    openSlot n s = { s with lanes := s.lanes.set n (openedLane s.timebase s.lanes[n]) } := rfl

theorem continueSegment_goesOn {s : State} {n : LaneId} {k : Packing} (h : s.copying n = some k) (hr : k.rest ≠ [])
    (hp : s.lanes[n].position = none) (hf : s.lanes[n].slots[s.lanes[n].nextSlot]? = some .free) :
    continueSegment n s = { s with lanes := s.lanes.set n (openedLane s.timebase s.lanes[n]) } :=
  (continueSegment_opens n s h hr hp (decide_eq_true hf)).trans (openSlot_eq n s)

/-! ## A full frame -/

/-- Memory once a frame at address `a` has its last bytes and its header. -/
def frameMem (m : List Host.Cell) (a : Nat) (g : Word) (p : Position) (filled : List Byte) : List Host.Cell :=
  memWrite (memWrite m (a + 20 + p.offset) filled) a
    (frameHeader g (if p.frame = 7 then ~~~ crcUpdate p.check filled else 0) p.firstSegment p.frame false 0)

/-- The position once a frame is full. -/
def nextPosition (p : Position) (filled : List Byte) : Position :=
  if p.frame < 7 then { p with frame := p.frame + 1, offset := 0, firstSegment := none, check := crcUpdate p.check filled }
  else { p with offset := p.offset + filled.length, check := crcUpdate p.check filled }

/-- The lane once the packer has filled a frame. -/
def framedLane (k : Packing) (p : Position) (l : Lane) : Lane := { l with
  packing := some { k with rest := k.rest.drop (4076 - p.offset) }
  position := some (nextPosition p (k.rest.take (4076 - p.offset))) }

/-- The lane once the group's frame 7 is full and the group is closed FULL. -/
def fullLane (k : Packing) (p : Position) (g : Word) (l : Lane) : Lane := { l with
  packing := some { k with rest := k.rest.drop (4076 - p.offset) }
  slots := l.slots.set p.slot (.ready g)
  position := none
  openedAt := none
  closePending := none
  counters := { l.counters with
    closedFull := if l.counters.closedFull = 0xFFFFFFFF then 0xFFFFFFFF else l.counters.closedFull + 1 } }

section Frame
variable {s : State} {n : LaneId} {k : Packing} {p : Position} {g : Word} {l : Layout}
  (hp : s.lanes[n].position = some p) (hg : s.lanes[n].slots[p.slot]? = some (.opened g)) (hl : s.wd.layout = some l)

/-- The state once the packer has filled a frame. -/
def framedState (s : State) (n : LaneId) (k : Packing) (p : Position) (g : Word) (l : Layout) : State := { s with
  mem := frameMem s.mem (l.pools[n].base + 32768 * p.slot + 4096 * p.frame) g p (k.rest.take (4076 - p.offset))
  lanes := s.lanes.set n (framedLane k p s.lanes[n]) }

theorem framedState_lane : (framedState s n k p g l).lanes[n] = framedLane k p s.lanes[n] := Vector.getElem_set_self n.isLt

/-- The state once the group's frame 7 is full and the group is closed FULL. -/
def closedState (s : State) (n : LaneId) (k : Packing) (p : Position) (g : Word) (l : Layout) : State := { s with
  mem := frameMem s.mem (l.pools[n].base + 32768 * p.slot + 4096 * p.frame) g p (k.rest.take (4076 - p.offset))
  lanes := s.lanes.set n (fullLane k p g s.lanes[n])
  re := { s.re with backlog := s.re.backlog ++
    [.groupReady n .full (BitVec.ofNat 32 (l.pools[n].base + 32768 * p.slot)) g p.slot p.starts] } }

theorem closedState_lane : (closedState s n k p g l).lanes[n] = fullLane k p g s.lanes[n] := Vector.getElem_set_self n.isLt

theorem closedState_copying (hst : k.starting = false) (hw : s.waiting (.laneUnit n) = false) :
    (closedState s n k p g l).copying n = some { k with rest := k.rest.drop (4076 - p.offset) } :=
  copying_eq (by rw [closedState_lane]; rfl) hst hw

include hp hg hl

theorem completeFrame_framed : completeFrame n false 0 ((writePayload n (k.rest.take (4076 - p.offset)) s).modLane n fun y =>
      { y with packing := some { k with rest := k.rest.drop (4076 - p.offset) } }) = framedState s n k p g l := by
  generalize hfilled : k.rest.take (4076 - p.offset) = filled
  rw [writePayload_spec n filled s hp]
  refine (completeFrame_spec n false 0 _ (g := g)
    (p := { p with offset := p.offset + filled.length, check := crcUpdate p.check filled }) (by simp [State.modLane])
    (by simpa [State.modLane] using hg)).trans ?_
  rw [slotAddress_eq hl, slotAddress_eq (l := l) (by exact hl)]
  unfold framedState framedLane frameMem nextPosition
  rw [hfilled]
  by_cases hf : p.frame < 7 <;> simp [hf, State.modLane]

theorem frameComplete_eq {now : Nat} (hk : s.copying n = some k) (hr : k.rest ≠ []) (hroom : 4076 - p.offset ≤ k.rest.length) :
    frameComplete n now s = if p.frame = 7 then continueSegment n (fullClose n (framedState (s.observeTime now) n k p g l))
      else framedState (s.observeTime now) n k p g l := by
  have hframe := completeFrame_framed (s := s.observeTime now) (k := k) hp hg hl
  unfold frameComplete
  rw [hk, hp]
  dsimp only
  rw [if_pos ⟨hr, hroom⟩, hframe]

omit hp in
/-- The group closes FULL. -/
theorem closeGroup_framed (hf : p.frame = 7) (hroom : s.re.hasRoom = true) :
    closeGroup n .full (framedState s n k p g l) = closedState s n k p g l := by
  have hpos : nextPosition p (k.rest.take (4076 - p.offset))
      = { p with offset := p.offset + (k.rest.take (4076 - p.offset)).length, check := crcUpdate p.check (k.rest.take (4076 - p.offset)) } :=
    if_neg (by omega)
  rw [closeGroup_spec n .full (framedState s n k p g l) (p := nextPosition p (k.rest.take (4076 - p.offset))) (g := g)
    (by rw [framedState_lane]; rfl) (by rw [framedState_lane, hpos]; exact hg) hroom, framedState_lane, hpos,
    slotAddress_eq (l := l) (by exact hl)]
  unfold framedState closedState fullLane
  simp only [Vector.set_set, LaneCounters.close, satInc_eq]
  rfl

omit hp in
theorem fullClose_framed {c : CartId} {x : CartRecord} (hf : p.frame = 7) (hroom : s.re.hasRoom = true)
    (hc : s.cd.places[drivePlace n].state = .occupied c) (hx : s.cd.records[c] = some x) :
    fullClose n (framedState s n k p g l) = if s.lanes[n].nextGroup = x.limit then setFull n (closedState s n k p g l)
      else closedState s n k p g l := by
  have hslot : (nextPosition p (k.rest.take (4076 - p.offset))).slot = p.slot := by unfold nextPosition; split <;> rfl
  have hgroup : (framedState s n k p g l).lanes[n].nextGroup = s.lanes[n].nextGroup := by rw [framedState_lane]; rfl
  rw [fullClose_spec n (framedState s n k p g l) (p := nextPosition p (k.rest.take (4076 - p.offset))) (g := g)
    (by rw [framedState_lane]; rfl) (by rw [framedState_lane, hslot]; exact hg) hroom hc hx, closeGroup_framed hg hl hf hroom,
    hgroup]

end Frame

end Sys2Proof.Proofs.Copying
end

section
/-! PROOFS. The end of a segment (R40, R45, R75, R81): SEGMENT_PACKED. -/
namespace Sys2Proof.Proofs.Copying
open Sys2Proof Sys2Proof.Machine Sys2Proof.Safety Sys2Proof.Laws
open Sys2Proof.Proofs.Streams Sys2Proof.Proofs.WriteEnds Sys2Proof.Proofs.CutOffs Sys2Proof.Proofs.StreamWrites

/-! ## The last bytes -/

/-- The last bytes of a segment are in memory. -/
def lastWritten (s : State) (n : LaneId) (rest : List Byte) (l : Layout) (m : List Host.Cell) : Prop :=
  (rest = [] ∧ ∀ a, memRead m a = memRead s.mem a)
    ∨ ∃ p, s.lanes[n].position = some p ∧ rest ≠ []
      ∧ written s.mem m (l.pools[n].base + 32768 * p.slot + 4096 * p.frame + 20 + p.offset) rest

/-- The packer's position after the last bytes of a segment. -/
def lastPosition (s : State) (n : LaneId) (rest : List Byte) (q : Option Position) : Prop :=
  (rest = [] ∧ q = s.lanes[n].position)
    ∨ ∃ p, s.lanes[n].position = some p ∧ rest ≠ [] ∧ p.offset + rest.length < 4076
      ∧ q = some { p with offset := p.offset + rest.length, check := crcUpdate p.check rest }

section LastBytes
variable {s : State} {n : LaneId} {rest : List Byte} {q : Option Position}

theorem lastBytes_fit (h : lastPosition s n rest q) : s.lastBytes n rest = true := by
  unfold State.lastBytes
  rcases h with ⟨rfl, -⟩ | ⟨p, hp, -, hfit, -⟩
  · rfl
  · have : rest.length < 4076 - p.offset := by omega
    rw [hp, Bool.or_eq_true]
    exact .inr (decide_eq_true this)

/-- No bytes leave every byte and the position as they are. -/
theorem writePayload_nil (n : LaneId) (s : State) :
    ∃ m, (∀ a, memRead m a = memRead s.mem a) ∧ writePayload n [] s = { s with mem := m } := by
  cases hp : s.lanes[n].position with
  | none =>
    refine ⟨s.mem, fun _ => rfl, ?_⟩
    unfold writePayload
    rw [hp]
  | some p =>
    have hset : s.lanes.set n { s.lanes[n] with position := some p } = s.lanes := by
      rw [← hp]
      exact Vector.set_getElem_self n.isLt
    refine ⟨memWrite s.mem (s.slotAddress n p.slot + 4096 * p.frame + 20 + p.offset) [],
      fun a => memRead_memWrite_nil _ _ a, (writePayload_spec n [] s hp).trans ?_⟩
    exact congrArg (fun v => ({ s with
      mem := memWrite s.mem (s.slotAddress n p.slot + 4096 * p.frame + 20 + p.offset) [], lanes := v } : State)) hset

theorem writePayload_last {l : Layout} (hl : s.wd.layout = some l) (h : lastPosition s n rest q) : ∃ m, lastWritten s n rest l m
    ∧ (writePayload n rest s).modLane n (fun y => { y with packing := none }) = { s with
      mem := m, lanes := s.lanes.set n { s.lanes[n] with packing := none, position := q } } := by
  rcases h with ⟨rfl, rfl⟩ | ⟨p, hp, hr, -, rfl⟩
  · obtain ⟨m, hm, hw⟩ := writePayload_nil n s
    exact ⟨m, .inl ⟨rfl, hm⟩, by rw [hw]; rfl⟩
  · refine ⟨_, .inr ⟨p, hp, hr, memWrite_written ..⟩, ?_⟩
    rw [writePayload_spec n rest s hp, slotAddress_eq hl]
    simp [State.modLane]

end LastBytes

/-! ## The packed state -/

/-- A buffer that is FREE, or whose compression is marked for discard, keeps no job in FLUSHING. -/
theorem bufferBusy_of_discarded {s : State} {i : StreamId} {b : Fin 2} (h : s.streams[i].buffers[b].state = .free
      ∨ (s.streams[i].buffers[b].state = .compressing ∧ ∃ c, s.ce.inFlight = some c ∧ c.discard = true ∧ c.entry.stream = i
        ∧ c.entry.buffer = b)) : s.bufferBusy i b = false := by
  unfold State.bufferBusy State.discarding
  rcases h with h | ⟨h, c, hc, hd, hi, hb⟩
  · rw [h]
  · rw [h, hc]
    simp [ChunkEntry.names, hd, hi, hb]

/-- The state once a segment is packed: its buffer is FREE and the stream's accept limit raised; the lane is as given. -/
def packedState (s : State) (n : LaneId) (k : Packing) (m : List Host.Cell) (y : Lane) (r : RequestEngine) : State := { s with
  mem := m
  lanes := s.lanes.set n y
  re := r
  streams := s.streams.set k.stream { s.streams[k.stream] with
    buffers := s.streams[k.stream].buffers.set k.buffer {} }
  wd := { s.wd with streamAperture := s.wd.streamAperture.set k.stream {
    s.wd.streamAperture[k.stream] with limit := limitRaised s k.stream } } }

section Packed
variable {s : State} {n : LaneId} {k : Packing} {m : List Host.Cell} {y : Lane} {r : RequestEngine}

theorem packedState_stream : (packedState s n k m y r).streams[k.stream] = { s.streams[k.stream] with
    buffers := s.streams[k.stream].buffers.set k.buffer {} } := Vector.getElem_set_self k.stream.isLt

theorem packedState_waiting (hw : r.waiters = s.re.waiters) (u : Poster) :
    (packedState s n k m y r).waiting u = s.waiting u := by
  unfold State.waiting
  rw [show (packedState s n k m y r).re.waiters = s.re.waiters from hw]

/-- The buffer that has been packed keeps no job in FLUSHING; the other one keeps it as before. -/
theorem packedState_packed : (packedState s n k m y r).bufferBusy k.stream k.buffer = false := by
  unfold State.bufferBusy
  rw [packedState_stream]
  simp only [Fin.getElem_fin, Vector.getElem_set_self]

theorem packedState_other :
    (packedState s n k m y r).bufferBusy k.stream (1 - k.buffer) = s.bufferBusy k.stream (1 - k.buffer) :=
  bufferBusy_freeBuffer s k.stream k.buffer

variable (hl : limitCurrent s k.stream) (hb : s.streams[k.stream].buffers[k.buffer].state = .packing)
include hl hb

theorem packedState_limit (hw : r.waiters = s.re.waiters) : limitCurrent (packedState s n k m y r) k.stream := by
  have hspace : s.streams[k.stream].buffers[k.buffer].space = 0 := by unfold Buffer.space; rw [hb]
  have hself : (packedState s n k m y r).wd.streamAperture[k.stream]
      = { s.wd.streamAperture[k.stream] with limit := limitRaised s k.stream } := Vector.getElem_set_self k.stream.isLt
  have hwait := packedState_waiting (n := n) (k := k) (m := m) (y := y) hw (.stream k.stream)
  have hsame : (packedState s n k m y r).streamLimit k.stream = (freeBuffer k.stream k.buffer s).streamLimit k.stream :=
    streamLimit_congr rfl hwait (by rw [hself]; rfl) rfl
  unfold limitCurrent
  rw [hself, hsame, freeBuffer_limit hl hspace]

theorem recomputeLimit_packed (m : List Host.Cell) (y : Lane) :
    recomputeLimit k.stream (freeBuffer k.stream k.buffer { s with mem := m, lanes := s.lanes.set n y })
      = packedState s n k m y s.re := by
  have hspace : s.streams[k.stream].buffers[k.buffer].space = 0 := by unfold Buffer.space; rw [hb]
  unfold recomputeLimit
  rw [freeBuffer_limit (s := { s with mem := m, lanes := s.lanes.set n y }) hl hspace]
  rfl

/-- A job kept in FLUSHING by its other buffer, or not in it, stays as it is. -/
theorem bufferChanged_stays (hw : r.waiters = s.re.waiters) (hs : staysFlushing s k.stream k.buffer) :
    bufferChanged k.stream (packedState s n k m y r) = packedState s n k m y r := by
  obtain ⟨⟨hfree, hbound⟩, hother⟩ := hs
  refine (bufferChanged_keeps (s := packedState s n k m y r) ⟨?_, hfree.2⟩ fun j hj hf => ?_).trans
    (recomputeLimit_current (packedState_limit hl hb hw))
  · exact (packedState_waiting hw _).trans hfree.1
  · have hj' : s.streams[k.stream].slot = some j := by rwa [packedState_stream] at hj
    exact ⟨hbound j hj' hf, 1 - k.buffer, packedState_other.trans (bufferBusy_of_otherBusy (hother j hj' hf))⟩

/-- The FLUSHING job whose last chunk is packed is DRAINING, and the lane takes its FLUSH test. -/
theorem bufferChanged_drains {v : State} {j : SlotId} {e : Word} {x : CartRecord} (hw : r.waiters = s.re.waiters)
    (hn : s.waiting (.laneUnit n) = false) (h : lastToPack s k.stream k.buffer j) (hj : writeJob s n j)
    (he : s.jt.jobs[j].record.lastEnd = some e) (hv : flushTest n (drainingJob (packedState s n k m y r) j) = v)
    (hx : v.cd.records[s.jt.jobs[j].record.cart] = some x) (hle : x.written.toNat ≤ e.toNat) (hheld : v.jt.held = []) :
    bufferChanged k.stream (packedState s n k m y r) = v := by
  obtain ⟨hfree, hslot, hstream, hst, hother⟩ := h
  have hidle (b : Fin 2) : (packedState s n k m y r).bufferBusy s.jt.jobs[j].record.stream b = false := by
    rw [hstream]
    have hb : b = k.buffer ∨ b = 1 - k.buffer := by omega
    rcases hb with rfl | rfl
    · exact packedState_packed
    · exact packedState_other.trans (bufferBusy_of_discarded hother)
  unfold bufferChanged
  rw [recomputeLimit_current (packedState_limit hl hb hw)]
  dsimp only
  rw [packedState_stream]
  dsimp only
  rw [hslot]
  exact jobSignals_one (.flushTest j) _ ⟨(packedState_waiting hw _).trans hfree.1, hfree.2⟩ v
    (takeFlushTest_drains rfl hj hst hidle ((packedState_waiting hw _).trans hn) hv he hx hle) hheld

end Packed

end Sys2Proof.Proofs.Copying
end

section
/-! PROOFS. Settling what copying does (R40, R45, R48, R69, R70, R75 to R77, R80 to R82, R86). -/
namespace Sys2Proof.Proofs.Copying
open Sys2Proof Sys2Proof.Machine Sys2Proof.Safety Sys2Proof.Laws
open Sys2Proof.Proofs.Streams Sys2Proof.Proofs.WriteEnds Sys2Proof.Proofs.CutOffs Sys2Proof.Proofs.Lanes

/-! ## SEGMENT_PACKED -/

/-- The lane that has no segment in hand, its packer at position `q`. -/
def idlePacker (q : Option Position) (l : Lane) : Lane := { l with packing := none, position := q }

section Packed
variable {s : State} {n : LaneId} {k : Packing} {l : Layout} {q : Option Position}

theorem segmentPacked_eq (hk : s.copying n = some k) (hl : s.wd.layout = some l) (hlim : limitCurrent s k.stream)
    (hb : s.streams[k.stream].buffers[k.buffer].state = .packing) (hq : lastPosition s n k.rest q) :
    ∃ m, lastWritten s n k.rest l m ∧ segmentPacked n s
      = bufferChanged k.stream (applyPending n (packedState s n k m (idlePacker q s.lanes[n]) s.re)) := by
  obtain ⟨m, hm, hw⟩ := writePayload_last hl hq
  refine ⟨m, hm, ?_⟩
  unfold segmentPacked
  rw [hk]
  dsimp only
  rw [if_pos (lastBytes_fit hq), hw, recomputeLimit_packed hlim hb]
  rfl

variable {m : List Host.Cell} {r : RequestEngine}

theorem packedState_lane {y : Lane} : (packedState s n k m y r).lanes[n] = y := Vector.getElem_set_self n.isLt

/-- The lane with no close pending. -/
def unpended (l : Lane) : Lane := { l with closePending := none }

theorem applyPending_some {u : State} {reason : CloseReason} {c : Nat} (h : u.lanes[n].closePending = some (reason, c)) :
    applyPending n u = if (u.modLane n unpended).lanes[n].position.any fun p => decide (p.slot = c) then
      padClose n reason (u.modLane n unpended) else u.modLane n unpended := by
  unfold applyPending
  rw [h]
  rfl

theorem packedState_modLane (y : Lane) (f : Lane → Lane) :
    (packedState s n k m y r).modLane n f = packedState s n k m (f y) r := by
  unfold State.modLane
  rw [packedState_lane]
  exact congrArg (fun v => ({ packedState s n k m y r with lanes := v } : State)) (Vector.set_set ..)

/-- A pad-close of the packed lane. -/
theorem padClose_packed {y : Lane} {p : Position} {g : Word} (reason : CloseReason) (hl : s.wd.layout = some l)
    (hp : y.position = some p) (hg : y.slots[p.slot]? = some (.opened g)) (hf : p.frame ≤ 7) (ho : p.offset ≤ 4076)
    (hroom : r.hasRoom = true) :
    ∃ m', padClosed m m' (l.pools[n].base + 32768 * p.slot) g p
      ∧ padClose n reason (packedState s n k m y r) = packedState s n k m' (closedLane y p g reason) { r with
          backlog := r.backlog ++ [.groupReady n reason (BitVec.ofNat 32 (l.pools[n].base + 32768 * p.slot)) g p.slot p.starts] } := by
  obtain ⟨m', hm', he⟩ := padClose_spec n reason (packedState s n k m y r) (p := p) (g := g) (l := l) hl
    (by rw [packedState_lane]; exact hp) (by rw [packedState_lane]; exact hg) ho hf hroom
  refine ⟨m', hm', he.trans ?_⟩
  rw [packedState_lane]
  exact congrArg (fun v => ({ packedState s n k m' y { r with
    backlog := r.backlog ++ [.groupReady n reason (BitVec.ofNat 32 (l.pools[n].base + 32768 * p.slot)) g p.slot p.starts] }
    with lanes := v } : State)) (Vector.set_set ..)

/-- No close is pending for the slot at the packer's position. -/
theorem applyPending_drops
    (h : ∀ reason c p, s.lanes[n].closePending = some (reason, c) → q = some p → p.slot ≠ c) :
    applyPending n (packedState s n k m (idlePacker q s.lanes[n]) r)
      = packedState s n k m (unpended (idlePacker q s.lanes[n])) r := by
  cases hc : s.lanes[n].closePending with
  | none =>
    have hsame : unpended (idlePacker q s.lanes[n]) = idlePacker q s.lanes[n] := by
      unfold unpended
      rw [← hc]
      rfl
    unfold applyPending
    rw [packedState_lane, hsame]
    split
    next => rfl
    next e => cases hc.symm.trans e
  | some x =>
    obtain ⟨reason, c⟩ := x
    rw [applyPending_some (reason := reason) (c := c) (by rw [packedState_lane]; exact hc), packedState_modLane, packedState_lane]
    refine if_neg fun hany => ?_
    cases q with
    | none => cases hany
    | some p => exact h reason c p hc rfl (of_decide_eq_true hany)

/-- A close pending for the open slot is made. -/
theorem applyPending_closes {p : Position} {g : Word} {reason : CloseReason} (hl : s.wd.layout = some l)
    (hc : s.lanes[n].closePending = some (reason, p.slot)) (hg : s.lanes[n].slots[p.slot]? = some (.opened g))
    (hf : p.frame ≤ 7) (ho : p.offset ≤ 4076) (hroom : r.hasRoom = true) :
    ∃ m', padClosed m m' (l.pools[n].base + 32768 * p.slot) g p
      ∧ applyPending n (packedState s n k m (idlePacker (some p) s.lanes[n]) r)
        = packedState s n k m' (closedLane { s.lanes[n] with packing := none } p g reason) { r with
          backlog := r.backlog ++ [.groupReady n reason (BitVec.ofNat 32 (l.pools[n].base + 32768 * p.slot)) g p.slot p.starts] } := by
  obtain ⟨m', hm', he⟩ := padClose_packed (y := unpended (idlePacker (some p) s.lanes[n])) (s := s) (k := k) (m := m) reason hl rfl hg hf ho hroom
  refine ⟨m', hm', ?_⟩
  rw [applyPending_some (reason := reason) (c := p.slot) (by rw [packedState_lane]; exact hc), packedState_modLane, packedState_lane]
  exact (if_pos (decide_eq_true rfl)).trans he

/-- With no slot open the FLUSH test closes nothing. -/
theorem flushTest_packed {y : Lane} {j : SlotId} (h : y.position = none) :
    flushTest n (drainingJob (packedState s n k m y r) j) = drainingJob (packedState s n k m y r) j :=
  flushTest_closed ((congrArg Lane.position (packedState_lane (s := s) (n := n) (k := k) (m := m) (r := r))).trans h)

/-- With every WRITE job of the lane DRAINING the FLUSH test pad-closes. -/
theorem flushTest_packed_closes {y : Lane} {j : SlotId}
    (h : ∀ i, writeJob s n i → i ≠ j → s.jt.jobs[i].record.state = .draining) (hy : y.packing = none) :
    flushTest n (drainingJob (packedState s n k m y r) j) = padClose n .flush (packedState (drainingJob s j) n k m y r) := by
  refine flushTest_closes (s := packedState (drainingJob s j) n k m y r) (fun i hi => ?_)
    ((congrArg Lane.packing packedState_lane).trans hy)
  have hi : writeJob (drainingJob s j) n i := hi
  change (drainingJob s j).jt.jobs[i].record.state = .draining
  by_cases he : i = j
  · subst he; rw [drainingJob_self]
  · rw [drainingJob_other he]; exact h i (writeJob_drainingJob.mp hi) he

end Packed

/-- Settles O40: each copying command by its cases. -/
theorem packerCopies : Obligations.PackerCopies := by
  intro s n now k l hs hpk hst hw hl lane time slotAt packed
  have hk : s.copying n = some k := copying_eq hpk hst hw
  refine ⟨fun p g hp hg hoff => ?_, fun q hlim hb hq => ?_, fun hr hp hf => ?_⟩
  · intro room filled check framed closed posted full last
    have hexec := frameComplete_eq (now := now) hp hg hl hk
    have hmem (gc : Word) (t : State) (hgc : (if p.frame = 7 then ~~~ check else 0) = gc)
        (ht : t.mem = frameMem s.mem (l.pools[n].base + 32768 * p.slot + 4096 * p.frame) g p filled) : framed t gc := by
      subst hgc
      simp only [framed, ht]
      exact framed_mem s.mem (slotAt p + 4096 * p.frame) p.offset filled _ (frameHeader_length ..)
    refine ⟨fun hr hlen hf => ?_, fun c x hr hlen hf hroom hc hx => ⟨fun hne hstop => ?_, fun hne hlt hfree => ?_,
      fun j hlim hlast hjt hsole hstill hstream hpacking hclaims hwait => ?_⟩⟩
    · obtain ⟨b, hb⟩ := runStep_next s _ (frameComplete n now) hs ((hexec hr hlen).trans (if_neg (by omega)))
      refine ⟨_, hb, hmem 0 _ (if_neg (by omega)) rfl, ?_⟩
      have hpos : nextPosition p filled = { p with frame := p.frame + 1, offset := 0, firstSegment := none, check := check } :=
        if_pos hf
      rw [← hpos]
      rfl
    · have hclose := (fullClose_framed (s := s.observeTime now) (k := k) hg hl hf hroom hc hx).trans (if_neg hne)
      have hcopy := closedState_copying (s := s.observeTime now) (p := p) (g := g) (l := l) hst hw
      have hstay : continueSegment n (closedState (s.observeTime now) n k p g l) = closedState (s.observeTime now) n k p g l := by
        rcases hstop with h | h
        · exact continueSegment_ends hcopy (List.drop_eq_nil_of_le (Nat.le_of_eq h.symm))
        · exact continueSegment_waits hcopy (by rw [closedState_lane]; exact h)
      have hstep := ((hexec hr hlen).trans (if_pos hf)).trans ((congrArg (continueSegment n) hclose).trans hstay)
      exact next_with (f := frameComplete n now) hs hstep fun b => ⟨hmem _ _ (if_pos hf) rfl, rfl⟩
    · have hclose := (fullClose_framed (s := s.observeTime now) (k := k) hg hl hf hroom hc hx).trans (if_neg hne)
      have hrest : k.rest.drop room ≠ [] := fun h => by
        have := List.drop_eq_nil_iff.mp h
        omega
      have hgo := continueSegment_goesOn (closedState_copying (s := s.observeTime now) (p := p) (g := g) (l := l) hst hw)
        hrest (by rw [closedState_lane]; rfl) (by rw [closedState_lane]; exact hfree)
      rw [closedState_lane] at hgo
      have hset (y : Lane) : { closedState (s.observeTime now) n k p g l with
          lanes := (closedState (s.observeTime now) n k p g l).lanes.set n y }
          = { closedState (s.observeTime now) n k p g l with lanes := s.lanes.set n y } :=
        congrArg (fun v => { closedState (s.observeTime now) n k p g l with lanes := v }) (Vector.set_set ..)
      have hstep := ((hexec hr hlen).trans (if_pos hf)).trans ((congrArg (continueSegment n) hclose).trans (hgo.trans (hset _)))
      refine next_with (f := frameComplete n now) hs hstep fun b => ⟨hmem _ _ (if_pos hf) rfl, ?_⟩
      have hlen : (openedLane time (fullLane k p g lane)).nextSlot = (lane.nextSlot + 1) % lane.slots.length :=
        congrArg ((lane.nextSlot + 1) % ·) (List.length_set ..)
      have hopened : openedLane time (fullLane k p g lane) = { closed with
          slots := closed.slots.set lane.nextSlot (.opened lane.nextGroup)
          nextGroup := lane.nextGroup + 1
          nextSlot := (lane.nextSlot + 1) % lane.slots.length
          openedAt := some time
          position := some { slot := lane.nextSlot } } := by
        rw [← hlen]
        rfl
      rw [← hopened]
      rfl
    · have hclose := (fullClose_framed (s := s.observeTime now) (k := k) hg hl hf hroom hc hx).trans (if_pos hlim)
      have hrest : k.rest.drop room = [] := List.drop_eq_nil_of_le (Nat.le_of_eq hlast.symm)
      have hflag : flagged n (closedState (s.observeTime now) n k p g l) = { closedState (s.observeTime now) n k p g l with
          lanes := s.lanes.set n { fullLane k p g lane with full := true } } := by
        unfold flagged
        rw [closedState_lane]
        exact congrArg (fun v => { closedState (s.observeTime now) n k p g l with lanes := v }) (Vector.set_set ..)
      have hbuf (i : StreamId) (hi : i = k.stream) : s.streams[i].buffers[k.buffer].state = .packing := by
        subst hi; exact hpacking
      have hfull := (setFull_signals (s := closedState (s.observeTime now) n k p g l) hclaims hwait).trans
        (jobSignals_full_flushing (n := n) hjt hsole hstill (hbuf _ hstream))
      rw [hflag] at hfull
      have hstay := continueSegment_ends (copying_eq (s := cutOffTo { closedState (s.observeTime now) n k p g l with
          lanes := s.lanes.set n { fullLane k p g lane with full := true } } j .flushing)
        (k := { k with rest := k.rest.drop room }) (congrArg Lane.packing (Vector.getElem_set_self n.isLt)) hst hw) hrest
      have hstep := ((hexec hr hlen).trans (if_pos hf)).trans
        ((congrArg (continueSegment n) (hclose.trans hfull)).trans hstay)
      exact next_with (f := frameComplete n now) hs hstep fun b => ⟨hmem _ _ (if_pos hf) rfl, cutOff_cutOffTo rfl rfl rfl rfl, rfl⟩
  · intro copied stays closes opened noPending
    obtain ⟨m, hm, he⟩ := segmentPacked_eq hk hl hlim hb hq
    refine ⟨fun hstay => ⟨fun hno => ?_, fun reason p g ho hc => ?_⟩, ?_⟩
    · exact next_with (f := segmentPacked n) hs (he.trans ((congrArg (bufferChanged k.stream) (applyPending_drops hno)).trans
        (bufferChanged_stays hlim hb rfl hstay))) fun b => ⟨hm, rfl⟩
    · obtain ⟨rfl, hg, hf, hoff, hroom⟩ := ho
      obtain ⟨m', hclosed, happly⟩ := applyPending_closes (k := k) (m := m) hl hc hg hf hoff hroom
      obtain ⟨b, hnext⟩ := runStep_next s _ (segmentPacked n) hs (he.trans ((congrArg (bufferChanged k.stream) happly).trans
        (bufferChanged_stays hlim hb rfl hstay)))
      exact ⟨_, m, hnext, hm, hclosed, rfl⟩
    · intro j e x hlast hj hend hx hle draining othersDrain
      refine ⟨fun reason p g ho hc => ?_, fun hno hkeep => ?_, fun p g hno hall ho => ?_⟩
      · obtain ⟨rfl, hg, hf, hoff, hroom⟩ := ho
        obtain ⟨m', hclosed, happly⟩ := applyPending_closes (k := k) (m := m) hl hc hg hf hoff hroom
        have hdrain := bufferChanged_drains (k := k) (m := m') (y := closedLane { s.lanes[n] with packing := none } p g reason)
          (r := { s.re with backlog := s.re.backlog ++
            [.groupReady n reason (BitVec.ofNat 32 (l.pools[n].base + 32768 * p.slot)) g p.slot p.starts] }) hlim hb rfl hw hlast hj
          hend (flushTest_packed rfl) hx hle hlast.1.2
        obtain ⟨b, hnext⟩ := runStep_next s _ (segmentPacked n) hs (he.trans ((congrArg (bufferChanged k.stream) happly).trans
          hdrain))
        exact ⟨_, m, hnext, hm, hclosed, rfl⟩
      · have hflush : flushTest n (drainingJob (packedState s n k m (unpended (idlePacker q lane)) s.re) j)
            = drainingJob (packedState s n k m (unpended (idlePacker q lane)) s.re) j := by
          rcases hkeep with h | h
          · simp only [othersDrain, not_forall] at h
            obtain ⟨i, hi, hne, hst⟩ := h
            refine flushTest_others ⟨i, writeJob_drainingJob.mpr hi, ?_⟩
            rw [drainingJob_other hne]
            exact hst
          · exact flushTest_packed h
        exact next_with (f := segmentPacked n) hs (he.trans ((congrArg (bufferChanged k.stream) (applyPending_drops hno)).trans
          (bufferChanged_drains hlim hb rfl hw hlast hj hend hflush hx hle hlast.1.2))) fun b => ⟨hm, rfl⟩
      · obtain ⟨rfl, hg, hf, hoff, hroom⟩ := ho
        obtain ⟨m', hclosed, hpad⟩ := padClose_packed (s := drainingJob s j) (n := n) (k := k) (m := m) (r := s.re)
          (y := unpended (idlePacker (some p) lane)) .flush hl rfl hg hf hoff hroom
        have hflush := (flushTest_packed_closes (s := s) (k := k) (m := m) (r := s.re)
          (y := unpended (idlePacker (some p) lane)) hall rfl).trans hpad
        obtain ⟨b, hnext⟩ := runStep_next s _ (segmentPacked n) hs (he.trans ((congrArg (bufferChanged k.stream) (applyPending_drops hno)).trans
          (bufferChanged_drains hlim hb rfl hw hlast hj hend hflush hx hle hlast.1.2)))
        exact ⟨_, m, hnext, hm, hclosed, rfl⟩
  · refine runStep_next s _ (segmentContinues n now) hs ?_
    exact continueSegment_goesOn (s := s.observeTime now) hk hr hp hf

end Sys2Proof.Proofs.Copying
end

section
/-! PROOFS. The packer's choice of a segment, its fit and its room (R71 to R74, R93). -/
namespace Sys2Proof.Proofs.Beginning
open Sys2Proof Sys2Proof.Machine Sys2Proof.Safety Sys2Proof.Laws

/-! ## The choice (R71) -/

theorem mem_candidates {s : State} {n : LaneId} {c : ChunkEntry × SegmentHeader} :
    c ∈ s.candidates n ↔ ∃ i b, readyFor s n i b c.1 c.2 := by
  unfold State.candidates readyFor
  simp only [List.mem_flatMap, List.mem_finRange, true_and, List.mem_filterMap]
  refine exists_congr fun i => ⟨fun ⟨b, _, hb⟩ => ⟨b, ?_⟩, fun ⟨b, h1, h2, h3, h4⟩ => ⟨b, ?_, ?_⟩⟩
  · split at hb
    next e h h1 h2 h3 =>
      split at hb
      next h4 => cases hb; exact ⟨h1, h2, h3, h4⟩
      next => cases hb
    next => cases hb
  · have : b = 0 ∨ b = 1 := by omega
    rcases this with rfl | rfl <;> simp
  · rw [h1, h2, h3]
    exact if_pos h4

/-- The older of two candidates. -/
def older (a b : ChunkEntry × SegmentHeader) : ChunkEntry × SegmentHeader := if b.1.order < a.1.order then b else a

theorem foldl_older {c : ChunkEntry × SegmentHeader} (cs : List (ChunkEntry × SegmentHeader)) :
    ∀ a, (a = c ∨ (c.1.order < a.1.order ∧ c ∈ cs)) → (∀ x ∈ cs, x = c ∨ c.1.order < x.1.order) → cs.foldl older a = c := by
  induction cs with
  | nil => rintro a (rfl | ⟨-, h⟩) _ <;> [rfl; cases h]
  | cons b cs ih =>
    intro a ha hall
    rw [List.foldl_cons]
    have hrest : ∀ x ∈ cs, x = c ∨ c.1.order < x.1.order := fun x hx => hall x (List.mem_cons_of_mem _ hx)
    refine ih _ ?_ hrest
    unfold older
    rcases hall b List.mem_cons_self with rfl | hb
    · rcases ha with rfl | ⟨ha, -⟩
      · rw [ite_self]; exact .inl rfl
      · rw [if_pos ha]; exact .inl rfl
    · rcases ha with rfl | ⟨ha, hm⟩
      · rw [if_neg (by omega)]; exact .inl rfl
      · have hm : c ∈ cs := by
          rcases List.mem_cons.mp hm with rfl | hm
          · omega
          · exact hm
        split
        · exact .inr ⟨hb, hm⟩
        · exact .inr ⟨ha, hm⟩

theorem oldest_eq {cs : List (ChunkEntry × SegmentHeader)} {c : ChunkEntry × SegmentHeader} (hc : c ∈ cs)
    (hall : ∀ x ∈ cs, x = c ∨ c.1.order < x.1.order) : oldest cs = some c := by
  cases cs with
  | nil => cases hc
  | cons a cs =>
    refine congrArg some (foldl_older cs a ?_ fun x hx => hall x (List.mem_cons_of_mem _ hx))
    rcases hall a List.mem_cons_self with h | h
    · exact .inl h
    · refine .inr ⟨h, ?_⟩
      rcases List.mem_cons.mp hc with rfl | hc
      · omega
      · exact hc

section Choice
variable {s : State} {n : LaneId}

theorem oldest_candidate {e : ChunkEntry} {h : SegmentHeader} (hr : readyFor s n e.stream e.buffer e h)
    (ho : ∀ (i : StreamId) (f : Fin 2) (e' : ChunkEntry) (h' : SegmentHeader), readyFor s n i f e' h' →
      (i = e.stream ∧ f = e.buffer) ∨ e.order < e'.order) : oldest (s.candidates n) = some (e, h) := by
  refine oldest_eq (mem_candidates.mpr ⟨_, _, hr⟩) fun x hx => ?_
  obtain ⟨i, f, hx⟩ := mem_candidates.mp hx
  rcases ho i f _ _ hx with ⟨rfl, rfl⟩ | h
  · obtain ⟨-, he, hh, -⟩ := hr
    obtain ⟨-, he', hh', -⟩ := hx
    exact .inl (Prod.ext (Option.some.inj (he'.symm.trans he)) (Option.some.inj (hh'.symm.trans hh)))
  · exact .inr h

theorem packerFree_eq (hr : s.lanes[n].role = .write) (hf : s.lanes[n].full = false) (hp : s.lanes[n].packing = none)
    (hw : s.waiting (.laneUnit n) = false) : s.packerFree n = true := by
  unfold State.packerFree
  rw [hr, hf, hp, hw]
  rfl

/-! ## Fit and room (R72, R73, R93) -/

theorem driveRecord_eq {c : CartId} {x : CartRecord} (hc : s.cd.places[drivePlace n].state = .occupied c)
    (hx : s.cd.records[c] = some x) : s.driveRecord n = some x := by
  unfold State.driveRecord State.driveCart
  simp only [hc]
  exact hx

section Fit
variable {c : CartId} {x : CartRecord} (hc : s.cd.places[drivePlace n].state = .occupied c) (hx : s.cd.records[c] = some x)
include hc hx

theorem fitSpace_none (hp : s.lanes[n].position = none) :
    s.fitSpace n = 32608 * ((x.limit.toNat : Int) - s.lanes[n].nextGroup.toNat) := by
  unfold State.fitSpace
  rw [driveRecord_eq hc hx, hp]

theorem fitSpace_some {p : Position} {g : Word} (hp : s.lanes[n].position = some p)
    (hg : s.lanes[n].slots[p.slot]? = some (.opened g)) :
    s.fitSpace n = (if p.offset + 16 ≤ 4076 then (4076 - p.offset : Int) else 0) + (7 - p.frame) * 4076
      + ((x.limit.toNat : Int) - 1 - g.toNat) * 32608 := by
  unfold State.fitSpace
  rw [driveRecord_eq hc hx, hp]
  dsimp only
  rw [slotGroup_eq hg]
  refine congrArg (· + _ + _) ?_
  split <;> split <;> omega

end Fit

theorem catalogAdmits_iff {l : Layout} (hl : s.wd.layout = some l) : s.catalogAdmits n = true ↔
    n ∈ s.sc.claims ∨ (s.sc.waitList = [] ∧ s.sc.claims.length + (s.sc.producer - s.sc.consumer).toNat < l.catalog.size / 32) := by
  have hroom : s.catalogRoom = l.catalog.size / 32 - (s.sc.producer - s.sc.consumer).toNat - s.sc.claims.length := by
    unfold State.catalogRoom State.catalogSize
    rw [hl]
    rfl
  unfold State.catalogAdmits
  rw [hroom, Bool.or_eq_true, Bool.and_eq_true, List.contains_eq_mem, decide_eq_true_eq, List.isEmpty_iff, decide_eq_true_eq]
  refine or_congr_right (and_congr_right fun _ => ?_)
  omega

/-! ## PACKER_BEGIN_SEGMENT by its outcome -/

/-- The lane joins the catalog's wait list with its chosen segment. -/
def waitForRoom (n : LaneId) (e : ChunkEntry) (s : State) : State := { s with
  lanes := s.lanes.set n { s.lanes[n] with chosen := some e.order }
  sc := { s.sc with waitList := s.sc.waitList ++ [n] } }

/-- The lane keeps its chosen segment, and joins the wait list if it is not there. -/
def joinWaitList (n : LaneId) (e : ChunkEntry) (s : State) : State :=
  let s := s.modLane n fun l => { l with chosen := some e.order }
  if s.sc.waitList.contains n then s else { s with sc.waitList := s.sc.waitList ++ [n] }

theorem joinWaitList_new (e : ChunkEntry) (hw : n ∉ s.sc.waitList) : joinWaitList n e s = waitForRoom n e s :=
  if_neg (by simpa using hw)

section Begin
variable {now : Nat} {e : ChunkEntry} {h : SegmentHeader} (hfree : s.packerFree n = true) (hw : n ∉ s.sc.waitList)
include hfree

theorem packerBeginSegment_none (hno : ∀ i f e h, ¬ readyFor s n i f e h) : packerBeginSegment n now s = endClaim n s := by
  have hnil : s.candidates n = [] := List.eq_nil_iff_forall_not_mem.mpr fun c hc => by
    obtain ⟨i, b, hr⟩ := mem_candidates.mp hc
    exact hno _ _ _ _ hr
  unfold packerBeginSegment State.choiceStands
  rw [hfree, hnil]
  simp only [List.any_nil, Bool.and_false, Bool.not_false, Bool.and_self, if_true]
  rfl

include hw

theorem packerBeginSegment_some (hold : oldest (s.candidates n) = some (e, h)) : packerBeginSegment n now s =
    if s.fitSpace n < 16 + (h.storedLength : Int) then setFull n (padClose n .limit (s.observeTime now))
    else if (s.startAt n).2.2.2 && !s.lanes[n].nextFree then s.observeTime now
    else if s.catalogAdmits n then beginSegment n e h (s.observeTime now)
    else waitForRoom n e (s.observeTime now) := by
  have hcontains : s.sc.waitList.contains n = false := by simpa using hw
  rw [← joinWaitList_new e (s := s.observeTime now) hw]
  unfold packerBeginSegment State.choiceStands
  rw [hfree, hcontains, hold]
  simp only [Bool.false_and, Bool.not_false, Bool.and_self, if_true]
  rfl

end Begin

end Choice

end Sys2Proof.Proofs.Beginning
end

section
/-! PROOFS. A segment that begins (R74, R75, R91, R92): its catalog record, its buffer and its header's place. -/
namespace Sys2Proof.Proofs.Beginning
open Sys2Proof Sys2Proof.Machine Sys2Proof.Safety Sys2Proof.Laws
open Sys2Proof.Proofs.Streams Sys2Proof.Proofs.Copying

/-! ## The segment taken -/

/-- The job record once a segment of it has begun, whose last byte lies in group `last`. -/
def begunRecord (last : Word) (r : JobRecord) : JobRecord := { r with
  lastEnd := some last
  counters := { r.counters with
    segments := if r.counters.segments = 0xFFFFFFFF then 0xFFFFFFFF else r.counters.segments + 1 } }

/-- The lane once its packer has a segment in hand. -/
def packingLane (e : ChunkEntry) (data : List Byte) (starting : Bool) (y : Lane) : Lane := { y with
  packing := some { stream := e.stream, buffer := e.buffer, rest := data, starting := starting }, chosen := none }

/-- The state once a segment is taken: its record is in memory `m`, its last byte will lie in group `last`. -/
def takenSegment (s : State) (n : LaneId) (e : ChunkEntry) (last : Word) (m : List Host.Cell) : State := { s with
  mem := m
  sc := { s.sc with producer := s.sc.producer + 1, claims := s.sc.claims.filter fun m => decide (m ≠ n) }
  streams := s.streams.set e.stream { s.streams[e.stream] with
    buffers := s.streams[e.stream].buffers.set e.buffer { s.streams[e.stream].buffers[e.buffer] with state := .packing } }
  jt := { s.jt with jobs := s.jt.jobs.set e.slot { s.jt.jobs[e.slot] with
    record := begunRecord last s.jt.jobs[e.slot].record } }
  lanes := s.lanes.set n (packingLane e s.streams[e.stream].buffers[e.buffer].data true s.lanes[n]) }

section Taken
variable {s : State} {n : LaneId} {e : ChunkEntry} {last : Word} {m : List Host.Cell}

theorem takenSegment_lane : (takenSegment s n e last m).lanes[n]
    = packingLane e s.streams[e.stream].buffers[e.buffer].data true s.lanes[n] := Vector.getElem_set_self n.isLt

theorem takenSegment_record (k : SlotId) : (takenSegment s n e last m).jt.jobs[k].record.state = s.jt.jobs[k].record.state
    ∧ (takenSegment s n e last m).jt.jobs[k].record.stream = s.jt.jobs[k].record.stream := by
  by_cases h : k = e.slot
  · subst h
    have : (takenSegment s n e last m).jt.jobs[e.slot].record = begunRecord last s.jt.jobs[e.slot].record :=
      congrArg JobSlot.record (Vector.getElem_set_self e.slot.isLt)
    rw [this]
    exact ⟨rfl, rfl⟩
  · have : (takenSegment s n e last m).jt.jobs[k] = s.jt.jobs[k] :=
      Vector.getElem_set_ne e.slot.isLt k.isLt fun he => h (Fin.ext he.symm)
    rw [this]
    exact ⟨rfl, rfl⟩

/-- A READY buffer that becomes PACKING leaves the accept limit, and keeps its job as it is. -/
theorem bufferChanged_taken (hb : streamBound s e.stream) (hl : limitCurrent s e.stream)
    (hr : s.streams[e.stream].buffers[e.buffer].state = .ready) :
    bufferChanged e.stream (takenSegment s n e last m) = takenSegment s n e last m := by
  have hspace : s.streams[e.stream].buffers[e.buffer].space = 0 := by unfold Buffer.space; rw [hr]
  have hcurrent : limitCurrent (takenSegment s n e last m) e.stream :=
    limitCurrent_modBuffer (b := e.buffer) (f := fun x => { x with state := .packing }) hl hspace.symm
  have hstream : (takenSegment s n e last m).streams[e.stream] = { s.streams[e.stream] with
      buffers := s.streams[e.stream].buffers.set e.buffer { s.streams[e.stream].buffers[e.buffer] with state := .packing } } :=
    Vector.getElem_set_self e.stream.isLt
  refine (bufferChanged_keeps (s := takenSegment s n e last m) hb.1 fun k hk hf => ?_).trans (recomputeLimit_current hcurrent)
  rw [(takenSegment_record k).1] at hf
  rw [(takenSegment_record k).2]
  have hk' : s.streams[e.stream].slot = some k := by rwa [hstream] at hk
  refine ⟨hb.2 k hk' hf, e.buffer, bufferBusy_of_held (.inr (.inr ?_))⟩
  rw [hstream]
  exact congrArg Buffer.state (Vector.getElem_set_self e.buffer.isLt)

/-- How many groups beyond its first one a segment reaches that begins at a frame and offset. -/
def spanned (h : SegmentHeader) (frame offset : Nat) : Nat := (4076 * frame + offset + (16 + h.storedLength) - 1) / 32608

/-- Memory once the catalog record of a segment that begins at a place on the tape is appended. -/
def recordedMem (s : State) (n : LaneId) (h : SegmentHeader) (l : Layout) (x : CartRecord) (group : Word) (frame offset : Nat) :
    List Host.Cell :=
  memWrite s.mem (recordAddress l s.sc.producer) (catalogRecordBytes x.label n h group frame offset (spanned h frame offset + 1))

/-- The state once a segment that begins at a place on the tape is taken. -/
def segmentTaken (s : State) (n : LaneId) (e : ChunkEntry) (h : SegmentHeader) (l : Layout) (x : CartRecord) (group : Word)
    (frame offset : Nat) : State :=
  takenSegment s n e (group + BitVec.ofNat 32 (spanned h frame offset)) (recordedMem s n h l x group frame offset)

/-- A segment begins: it is taken, a header that would be split goes to the next frame, and copying begins. -/
theorem beginSegment_eq {h : SegmentHeader} {l : Layout} {x : CartRecord} {group : Word} {frame offset : Nat} {opens : Bool}
    {u : State} (hb : streamBound s e.stream) (hlim : limitCurrent s e.stream)
    (hr : s.streams[e.stream].buffers[e.buffer].state = .ready) (hl : s.wd.layout = some l) (hx : s.driveRecord n = some x)
    (hat : s.startAt n = (group, frame, offset, opens)) (hu : headerNotSplit n (segmentTaken s n e h l x group frame offset) = u)
    (hw : u.waiting (.laneUnit n) = false) : beginSegment n e h s = startCopying n u := by
  have hkept : headerNotSplit n (bufferChanged e.stream (segmentTaken s n e h l x group frame offset)) = u :=
    (congrArg (headerNotSplit n) (bufferChanged_taken hb hlim hr)).trans hu
  have hbegin : beginSegment n e h s =
      if (headerNotSplit n (bufferChanged e.stream (segmentTaken s n e h l x group frame offset))).waiting (.laneUnit n) then
        headerNotSplit n (bufferChanged e.stream (segmentTaken s n e h l x group frame offset))
      else startCopying n (headerNotSplit n (bufferChanged e.stream (segmentTaken s n e h l x group frame offset))) := by
    unfold beginSegment catalogAppend
    simp only [hat, hl, hx, Option.bind_some, satInc_eq]
    rfl
  rw [hbegin, hkept]
  exact if_neg (by rw [hw]; exact nofun)

end Taken

end Sys2Proof.Proofs.Beginning
end

section
/-! PROOFS. Where a segment's header goes (R74): in the open frame, in the next one, or in a new group. -/
namespace Sys2Proof.Proofs.Beginning
open Sys2Proof Sys2Proof.Machine Sys2Proof.Safety Sys2Proof.Laws
open Sys2Proof.Proofs.Copying

/-! ## Copying begins -/

/-- The lane once copying has begun, at the position that was `p`. -/
def startedLane (p : Position) (y : Lane) : Lane := { y with
  packing := y.packing.map fun k => { k with starting := false }
  position := some { p with firstSegment := some (p.firstSegment.getD p.offset), starts := p.starts + 1 } }

section Start
variable {s : State} {n : LaneId}

theorem startCopying_open {p : Position} (hp : s.lanes[n].position = some p) :
    startCopying n s = { s with lanes := s.lanes.set n (startedLane p s.lanes[n]) } := by
  unfold startCopying
  simp only [hp, Option.isNone_some, Bool.false_eq_true, if_false]
  unfold State.modLane
  simp only [hp, Option.map_some]
  rfl

theorem startCopying_new (hp : s.lanes[n].position = none) : startCopying n s = { s with
    lanes := s.lanes.set n (startedLane { slot := s.lanes[n].nextSlot } (openedLane s.timebase s.lanes[n])) } := by
  have hself : ({ s with lanes := s.lanes.set n (openedLane s.timebase s.lanes[n]) } : State).lanes[n]
      = openedLane s.timebase s.lanes[n] := Vector.getElem_set_self n.isLt
  have hopen : startCopying n s = startCopying n { s with lanes := s.lanes.set n (openedLane s.timebase s.lanes[n]) } := by
    conv_lhs => unfold startCopying
    conv_rhs => unfold startCopying
    rw [hself, hp]
    rfl
  rw [hopen, startCopying_open (p := { slot := s.lanes[n].nextSlot }) (by rw [hself]; rfl), hself]
  simp only [Vector.set_set]

/-! ## A header that would be split (R74) -/

theorem headerNotSplit_none (hp : s.lanes[n].position = none) : headerNotSplit n s = s := by
  unfold headerNotSplit
  rw [hp]

section Open
variable {p : Position} (hp : s.lanes[n].position = some p)
include hp

theorem headerNotSplit_fits (ho : p.offset + 16 ≤ 4076) : headerNotSplit n s = s := by
  unfold headerNotSplit
  rw [hp]
  exact if_pos ho

variable {g : Word} {l : Layout} (hg : s.lanes[n].slots[p.slot]? = some (.opened g)) (hl : s.wd.layout = some l)

/-- Memory once the rest of a frame is filler and its header written, in a group that goes on. -/
def paddedMem (m : List Host.Cell) (a : Nat) (g : Word) (p : Position) : List Host.Cell :=
  memWrite (memWrite m (a + 20 + p.offset) (zeroBytes (4076 - p.offset))) a
    (frameHeader g (if p.frame = 7 then ~~~ crcUpdate p.check (zeroBytes (4076 - p.offset)) else 0) p.firstSegment p.frame false
      (4076 - p.offset))

omit hp in
theorem paddedMem_filled (m : List Host.Cell) (slotAt : Nat) (g : Word) (p : Position) :
    frameFilled m (paddedMem m (slotAt + 4096 * p.frame) g p) slotAt g p := by
  unfold frameFilled
  intro base pad
  obtain ⟨hbytes, hheader, hrest⟩ := framed_mem m base p.offset (zeroBytes pad) (frameHeader g
    (if p.frame = 7 then ~~~ crcUpdate p.check (zeroBytes pad) else 0) p.firstSegment p.frame false pad) (frameHeader_length ..)
  have hlen := zeroBytes_length pad
  refine ⟨hheader, fun o h1 h2 => ?_, fun a ha => hrest a (by omega) (by omega)⟩
  have := hbytes (o - p.offset) (by omega)
  rw [show base + 20 + p.offset + (o - p.offset) = base + 20 + o by omega] at this
  exact this.trans (by simp [zeroBytes])

/-- The state once the rest of the open frame is filler. -/
def paddedState (s : State) (n : LaneId) (p : Position) (g : Word) (l : Layout) : State := { s with
  mem := paddedMem s.mem (l.pools[n].base + 32768 * p.slot + 4096 * p.frame) g p
  lanes := s.lanes.set n { s.lanes[n] with position := some (nextPosition p (zeroBytes (4076 - p.offset))) } }

omit hp in
theorem paddedState_lane : (paddedState s n p g l).lanes[n]
    = { s.lanes[n] with position := some (nextPosition p (zeroBytes (4076 - p.offset))) } := Vector.getElem_set_self n.isLt

include hg hl

theorem fillFrame_padded : fillFrame n false s = paddedState s n p g l := by
  generalize hz : zeroBytes (4076 - p.offset) = zeros
  unfold fillFrame
  rw [hp]
  dsimp only
  rw [hz, writePayload_spec n zeros s hp]
  refine (completeFrame_spec n false _ _ (g := g)
    (p := { p with offset := p.offset + zeros.length, check := crcUpdate p.check zeros }) (by simp) (by simpa using hg)).trans ?_
  rw [slotAddress_eq hl, slotAddress_eq (l := l) (by exact hl)]
  unfold paddedState paddedMem nextPosition
  rw [hz]
  by_cases hf : p.frame < 7 <;> simp [hf]

theorem headerNotSplit_pads (ho : 4076 < p.offset + 16) (hf : p.frame < 7) : headerNotSplit n s = paddedState s n p g l := by
  unfold headerNotSplit
  rw [hp]
  dsimp only
  rw [if_neg (by omega), fillFrame_padded hp hg hl, if_neg (by omega)]

/-- The state once the rest of frame 7 is filler and the group is closed FULL. -/
def paddedClosed (s : State) (n : LaneId) (p : Position) (g : Word) (l : Layout) : State := { s with
  mem := paddedMem s.mem (l.pools[n].base + 32768 * p.slot + 4096 * p.frame) g p
  lanes := s.lanes.set n { s.lanes[n] with
    slots := s.lanes[n].slots.set p.slot (.ready g), position := none, openedAt := none, closePending := none
    counters := { s.lanes[n].counters with closedFull :=
      if s.lanes[n].counters.closedFull = 0xFFFFFFFF then 0xFFFFFFFF else s.lanes[n].counters.closedFull + 1 } }
  re := { s.re with backlog := s.re.backlog ++
    [.groupReady n .full (BitVec.ofNat 32 (l.pools[n].base + 32768 * p.slot)) g p.slot p.starts] } }

theorem headerNotSplit_closes {c : CartId} {x : CartRecord} (ho : 4076 < p.offset + 16) (hf : p.frame = 7)
    (hroom : s.re.hasRoom = true) (hc : s.cd.places[drivePlace n].state = .occupied c) (hx : s.cd.records[c] = some x)
    (hlimit : s.lanes[n].nextGroup ≠ x.limit) : headerNotSplit n s = paddedClosed s n p g l := by
  have hpos : nextPosition p (zeroBytes (4076 - p.offset)) = { p with
      offset := p.offset + (zeroBytes (4076 - p.offset)).length, check := crcUpdate p.check (zeroBytes (4076 - p.offset)) } :=
    if_neg (by omega)
  have hlane := paddedState_lane (s := s) (n := n) (p := p) (g := g) (l := l)
  unfold headerNotSplit
  rw [hp]
  dsimp only
  rw [if_neg (by omega), fillFrame_padded hp hg hl, if_pos hf,
    fullClose_spec n (paddedState s n p g l) (p := nextPosition p (zeroBytes (4076 - p.offset))) (g := g)
      (by rw [hlane]) (by rw [hlane, hpos]; exact hg) hroom hc hx, if_neg (by rw [hlane]; exact hlimit),
    closeGroup_spec n .full (paddedState s n p g l) (p := nextPosition p (zeroBytes (4076 - p.offset))) (g := g)
      (by rw [hlane]) (by rw [hlane, hpos]; exact hg) hroom, hlane, hpos, slotAddress_eq (l := l) (by exact hl)]
  unfold paddedState paddedClosed
  simp only [Vector.set_set, LaneCounters.close, satInc_eq]

end Open

end Start

end Sys2Proof.Proofs.Beginning
end

section
/-! PROOFS. Settling PACKER_BEGIN_SEGMENT (R40, R48, R69, R71 to R77, R82, R91 to R93). -/
namespace Sys2Proof.Proofs.Beginning
open Sys2Proof Sys2Proof.Machine Sys2Proof.Safety Sys2Proof.Laws
open Sys2Proof.Proofs.Copying Sys2Proof.Proofs.Lanes Sys2Proof.Proofs.CutOffs

section Place
variable {s : State} {n : LaneId} {p : Position} {g : Word}

theorem startAt_none (hp : s.lanes[n].position = none) : s.startAt n = (s.lanes[n].nextGroup, 0, 0, true) := by
  unfold State.startAt
  rw [hp]

variable (hp : s.lanes[n].position = some p) (hg : s.lanes[n].slots[p.slot]? = some (.opened g))
include hp hg

theorem startAt_fits (h : p.offset + 16 ≤ 4076) : s.startAt n = (g, p.frame, p.offset, false) := by
  unfold State.startAt
  rw [hp]
  dsimp only
  rw [slotGroup_eq hg, if_pos h]

theorem startAt_pads (h : 4076 < p.offset + 16) (hf : p.frame < 7) : s.startAt n = (g, p.frame + 1, 0, false) := by
  unfold State.startAt
  rw [hp]
  dsimp only
  rw [slotGroup_eq hg, if_neg (by omega), if_pos hf]

omit hg in
theorem startAt_closes (h : 4076 < p.offset + 16) (hf : p.frame = 7) : s.startAt n = (s.lanes[n].nextGroup, 0, 0, true) := by
  unfold State.startAt
  rw [hp]
  dsimp only
  rw [if_neg (by omega), if_neg (by omega)]

end Place

/-! ## The state in which copying has begun -/

/-- The state once a segment has begun: memory, reports and the lane but for its packer are as given. -/
def begunState (s : State) (n : LaneId) (e : ChunkEntry) (h : SegmentHeader) (l : Layout) (x : CartRecord) (group : Word)
    (frame offset : Nat) (m : List Host.Cell) (r : RequestEngine) (after : Lane) : State :=
  { segmentTaken s n e h l x group frame offset with
    mem := m, re := r
    lanes := s.lanes.set n (packingLane e s.streams[e.stream].buffers[e.buffer].data false after) }

section Begun
variable {s : State} {n : LaneId} {e : ChunkEntry} {h : SegmentHeader} {l : Layout} {x : CartRecord} {group : Word}
  {frame offset : Nat}

theorem begun_open {p : Position} (hp : s.lanes[n].position = some p) :
    startCopying n (segmentTaken s n e h l x group frame offset)
      = begunState s n e h l x group frame offset (recordedMem s n h l x group frame offset) s.re { s.lanes[n] with
        position := some { p with firstSegment := some (p.firstSegment.getD p.offset), starts := p.starts + 1 } } := by
  unfold segmentTaken
  rw [startCopying_open (p := p) (by rw [takenSegment_lane]; exact hp), takenSegment_lane]
  unfold takenSegment
  simp only [Vector.set_set]
  rfl

/-- The lane with its next slot opened by the segment that begins in it. -/
def openingLane (time : Nat) (slots : List SlotState) (y : Lane) : Lane := { y with
  slots := slots.set y.nextSlot (.opened y.nextGroup)
  nextGroup := y.nextGroup + 1
  nextSlot := (y.nextSlot + 1) % y.slots.length
  openedAt := some time
  position := some { slot := y.nextSlot, firstSegment := some 0, starts := 1 } }

theorem begun_new (hp : s.lanes[n].position = none) : startCopying n (segmentTaken s n e h l x group frame offset)
    = begunState s n e h l x group frame offset (recordedMem s n h l x group frame offset) s.re
      (openingLane s.timebase s.lanes[n].slots s.lanes[n]) := by
  unfold segmentTaken
  rw [startCopying_new (by rw [takenSegment_lane]; exact hp), takenSegment_lane]
  unfold takenSegment
  simp only [Vector.set_set]
  rfl

theorem begun_padded {p : Position} (g : Word) (hf : p.frame < 7) :
    startCopying n (paddedState (segmentTaken s n e h l x group frame offset) n p g l)
      = begunState s n e h l x group frame offset
        (paddedMem (recordedMem s n h l x group frame offset) (l.pools[n].base + 32768 * p.slot + 4096 * p.frame) g p) s.re
        { s.lanes[n] with position := some { p with
          frame := p.frame + 1, offset := 0, check := crcUpdate p.check (zeroBytes (4076 - p.offset)), firstSegment := some 0
          starts := p.starts + 1 } } := by
  have hpos : nextPosition p (zeroBytes (4076 - p.offset)) = { p with
      frame := p.frame + 1, offset := 0, firstSegment := none, check := crcUpdate p.check (zeroBytes (4076 - p.offset)) } :=
    if_pos hf
  rw [startCopying_open (p := nextPosition p (zeroBytes (4076 - p.offset))) (by rw [paddedState_lane]), paddedState_lane, hpos]
  unfold paddedState segmentTaken
  rw [takenSegment_lane]
  unfold takenSegment
  simp only [Vector.set_set]
  rfl

/-- The lane once its group is closed FULL. -/
def filledLane (p : Position) (g : Word) (y : Lane) : Lane := { y with
  slots := y.slots.set p.slot (.ready g), position := none, openedAt := none, closePending := none
  counters := { y.counters with closedFull :=
    if y.counters.closedFull = 0xFFFFFFFF then 0xFFFFFFFF else y.counters.closedFull + 1 } }

theorem begun_closed (p : Position) (g : Word) :
    startCopying n (paddedClosed (segmentTaken s n e h l x group frame offset) n p g l)
      = begunState s n e h l x group frame offset
        (paddedMem (recordedMem s n h l x group frame offset) (l.pools[n].base + 32768 * p.slot + 4096 * p.frame) g p)
        { s.re with backlog := s.re.backlog ++
          [.groupReady n .full (BitVec.ofNat 32 (l.pools[n].base + 32768 * p.slot)) g p.slot p.starts] }
        { openingLane s.timebase (s.lanes[n].slots.set p.slot (.ready g)) s.lanes[n] with
          closePending := none, counters := (filledLane p g s.lanes[n]).counters } := by
  have hlane : (paddedClosed (segmentTaken s n e h l x group frame offset) n p g l).lanes[n]
      = filledLane p g (packingLane e s.streams[e.stream].buffers[e.buffer].data true s.lanes[n]) :=
    (Vector.getElem_set_self n.isLt).trans (congrArg (filledLane p g) takenSegment_lane)
  rw [startCopying_new (by rw [hlane]; rfl), hlane]
  unfold paddedClosed segmentTaken takenSegment openedLane filledLane
  simp only [Vector.set_set, List.length_set]
  rfl

end Begun

theorem segmentTaken_lane {s : State} {n : LaneId} {e : ChunkEntry} {h : SegmentHeader} {l : Layout} {x : CartRecord}
    {group : Word} {frame offset : Nat} : (segmentTaken s n e h l x group frame offset).lanes[n]
      = packingLane e s.streams[e.stream].buffers[e.buffer].data true s.lanes[n] := takenSegment_lane

/-! ## The chosen segment -/

/-- A lane whose packer is free has chosen a segment, and a cartridge is in its drive. -/
structure Chosen (s : State) (n : LaneId) (e : ChunkEntry) (h : SegmentHeader) (l : Layout) (c : CartId) (x : CartRecord) :
    Prop where
  free : s.packerFree n = true
  notWaiting : s.waiting (.laneUnit n) = false
  notListed : n ∉ s.sc.waitList
  chosen : oldest (s.candidates n) = some (e, h)
  ready : s.streams[e.stream].buffers[e.buffer].state = .ready
  layout : s.wd.layout = some l
  place : s.cd.places[drivePlace n].state = .occupied c
  record : s.cd.records[c] = some x

namespace Chosen
variable {s : State} {n : LaneId} {e : ChunkEntry} {h : SegmentHeader} {l : Layout} {c : CartId} {x : CartRecord}
  (C : Chosen s n e h l c x) {now : Nat}
include C

omit C in
/-- The slot that the segment needs is open or FREE. -/
theorem slot_ready (hopen : (s.startAt n).2.2.2 = false ∨ s.lanes[n].slots[s.lanes[n].nextSlot]? = some .free) :
    ¬ ((s.startAt n).2.2.2 && !s.lanes[n].nextFree) = true := by
  rcases hopen with h | h
  · rw [h]; exact nofun
  · rw [show s.lanes[n].nextFree = true from decide_eq_true h, Bool.not_true, Bool.and_false]; exact nofun

theorem stalls (hfit : ¬ s.fitSpace n < 16 + (h.storedLength : Int)) (hopen : (s.startAt n).2.2.2 = true)
    (hno : s.lanes[n].slots[s.lanes[n].nextSlot]? ≠ some .free) : packerBeginSegment n now s = s.observeTime now := by
  rw [packerBeginSegment_some C.free C.notListed C.chosen, if_neg hfit, hopen,
    show s.lanes[n].nextFree = false from decide_eq_false hno]
  rfl

theorem waits (hfit : ¬ s.fitSpace n < 16 + (h.storedLength : Int))
    (hopen : (s.startAt n).2.2.2 = false ∨ s.lanes[n].slots[s.lanes[n].nextSlot]? = some .free)
    (hno : ¬ s.catalogAdmits n = true) : packerBeginSegment n now s = waitForRoom n e (s.observeTime now) := by
  rw [packerBeginSegment_some C.free C.notListed C.chosen, if_neg hfit, if_neg (slot_ready hopen), if_neg hno]

theorem overflows (hfit : s.fitSpace n < 16 + (h.storedLength : Int)) :
    packerBeginSegment n now s = setFull n (padClose n .limit (s.observeTime now)) := by
  rw [packerBeginSegment_some C.free C.notListed C.chosen, if_pos hfit]

section Begins
variable (hb : streamBound s e.stream) (hlim : limitCurrent s e.stream) (hadmit : s.catalogAdmits n = true)
  (hfit : ¬ s.fitSpace n < 16 + (h.storedLength : Int))
include hb hlim hadmit hfit

theorem begins {group : Word} {frame offset : Nat} {opens : Bool} {u : State} (hat : s.startAt n = (group, frame, offset, opens))
    (hopen : opens = true → s.lanes[n].slots[s.lanes[n].nextSlot]? = some .free)
    (hu : headerNotSplit n (segmentTaken (s.observeTime now) n e h l x group frame offset) = u)
    (hwu : u.waiting (.laneUnit n) = false) : packerBeginSegment n now s = startCopying n u := by
  have hslot : (s.startAt n).2.2.2 = false ∨ s.lanes[n].slots[s.lanes[n].nextSlot]? = some .free := by
    rw [hat]
    cases opens with
    | false => exact .inl rfl
    | true => exact .inr (hopen rfl)
  rw [packerBeginSegment_some C.free C.notListed C.chosen, if_neg hfit, if_neg (slot_ready hslot), if_pos hadmit]
  exact beginSegment_eq (s := s.observeTime now) hb hlim C.ready C.layout (driveRecord_eq C.place C.record) hat hu hwu

theorem begins_new (hp : s.lanes[n].position = none) (hfree : s.lanes[n].slots[s.lanes[n].nextSlot]? = some .free) :
    packerBeginSegment n now s = begunState (s.observeTime now) n e h l x s.lanes[n].nextGroup 0 0
      (recordedMem (s.observeTime now) n h l x s.lanes[n].nextGroup 0 0) s.re
      (openingLane (max s.timebase now) s.lanes[n].slots s.lanes[n]) :=
  (C.begins hb hlim hadmit hfit (startAt_none hp) (fun _ => hfree)
    (headerNotSplit_none ((congrArg Lane.position segmentTaken_lane).trans hp)) C.notWaiting).trans
      (begun_new (s := s.observeTime now) hp)

variable {p : Position} {g : Word} (hp : s.lanes[n].position = some p) (hg : s.lanes[n].slots[p.slot]? = some (.opened g))
include hp hg

theorem begins_open (ho : p.offset + 16 ≤ 4076) : packerBeginSegment n now s =
    begunState (s.observeTime now) n e h l x g p.frame p.offset (recordedMem (s.observeTime now) n h l x g p.frame p.offset) s.re
      { s.lanes[n] with
        position := some { p with firstSegment := some (p.firstSegment.getD p.offset), starts := p.starts + 1 } } :=
  (C.begins hb hlim hadmit hfit (startAt_fits hp hg ho) nofun
    (headerNotSplit_fits ((congrArg Lane.position segmentTaken_lane).trans hp) ho) C.notWaiting).trans
      (begun_open (s := s.observeTime now) hp)

theorem begins_padded (ho : 4076 < p.offset + 16) (hf : p.frame < 7) : packerBeginSegment n now s =
    begunState (s.observeTime now) n e h l x g (p.frame + 1) 0 (paddedMem (recordedMem (s.observeTime now) n h l x g (p.frame + 1) 0)
      (l.pools[n].base + 32768 * p.slot + 4096 * p.frame) g p) s.re
      { s.lanes[n] with position := some { p with
        frame := p.frame + 1, offset := 0, check := crcUpdate p.check (zeroBytes (4076 - p.offset)), firstSegment := some 0
        starts := p.starts + 1 } } :=
  (C.begins hb hlim hadmit hfit (startAt_pads hp hg ho hf) nofun
    (headerNotSplit_pads (s := segmentTaken (s.observeTime now) n e h l x g (p.frame + 1) 0)
      ((congrArg Lane.position segmentTaken_lane).trans hp)
      ((congrArg (fun y : Lane => y.slots[p.slot]?) segmentTaken_lane).trans hg) C.layout ho hf) C.notWaiting).trans
      (begun_padded (s := s.observeTime now) g hf)

theorem begins_closed (ho : 4076 < p.offset + 16) (hf : p.frame = 7) (hroom : s.re.hasRoom = true)
    (hfree : s.lanes[n].slots[s.lanes[n].nextSlot]? = some .free) (hlimit : s.lanes[n].nextGroup ≠ x.limit) :
    packerBeginSegment n now s = begunState (s.observeTime now) n e h l x s.lanes[n].nextGroup 0 0
      (paddedMem (recordedMem (s.observeTime now) n h l x s.lanes[n].nextGroup 0 0)
        (l.pools[n].base + 32768 * p.slot + 4096 * p.frame) g p)
      { s.re with backlog := s.re.backlog ++
        [.groupReady n .full (BitVec.ofNat 32 (l.pools[n].base + 32768 * p.slot)) g p.slot p.starts] }
      { openingLane (max s.timebase now) (s.lanes[n].slots.set p.slot (.ready g)) s.lanes[n] with
        closePending := none, counters := (filledLane p g s.lanes[n]).counters } :=
  (C.begins hb hlim hadmit hfit (startAt_closes hp ho hf) (fun _ => hfree)
    (headerNotSplit_closes (s := segmentTaken (s.observeTime now) n e h l x s.lanes[n].nextGroup 0 0)
      ((congrArg Lane.position segmentTaken_lane).trans hp)
      ((congrArg (fun y : Lane => y.slots[p.slot]?) segmentTaken_lane).trans hg) C.layout ho hf hroom C.place C.record
      (by rw [segmentTaken_lane]; exact hlimit)) C.notWaiting).trans
      (begun_closed (s := s.observeTime now) p g)

end Begins

end Chosen

end Sys2Proof.Proofs.Beginning
end

section
/-! PROOFS. Settling PACKER_BEGIN_SEGMENT (R40, R48, R69, R71 to R77, R82, R91 to R93). -/
namespace Sys2Proof.Proofs.Beginning
open Sys2Proof Sys2Proof.Machine Sys2Proof.Safety Sys2Proof.Laws
open Sys2Proof.Proofs.Copying Sys2Proof.Proofs.Lanes Sys2Proof.Proofs.CutOffs

/-- A lane with no slot open whose segment does not fit is FULL, and its job cut off. -/
theorem setFull_cutOff {s : State} {n : LaneId} {k : SlotId} {y : CartRecord} {last : Word} (hjt : jobTableFree s)
    (hsole : soleWriteJob s n k) (hstill : stillPacks s.jt.jobs[k].record) (hn : nothingPacked s s.jt.jobs[k].record.stream)
    (he : s.jt.jobs[k].record.lastEnd = some last) (hy : s.cd.records[s.jt.jobs[k].record.cart] = some y)
    (hle : y.written.toNat ≤ last.toNat) (hw : s.waiting (.laneUnit n) = false) (hc : n ∉ s.sc.claims)
    (hl : n ∉ s.sc.waitList) (hp : s.lanes[n].position = none) : setFull n s = cutOffTo (flagged n s) k .draining :=
  (setFull_signals hc hl).trans (jobSignals_full_draining (s := flagged n s) hjt hsole hstill hn he hy hle hw
    ((congrArg Lane.position (Vector.getElem_set_self n.isLt)).trans hp))

/-- The state once the lane's open group is pad-closed in memory `m`. -/
def closedTo (s : State) (n : LaneId) (m : List Host.Cell) (l : Layout) (p : Position) (g : Word) (reason : CloseReason) : State :=
  { s with
    mem := m
    lanes := s.lanes.set n (closedLane s.lanes[n] p g reason)
    re := { s.re with backlog := s.re.backlog ++
      [.groupReady n reason (BitVec.ofNat 32 (l.pools[n].base + 32768 * p.slot)) g p.slot p.starts] } }

section ClosedTo
variable {s : State} {n : LaneId} {m : List Host.Cell} {l : Layout} {p : Position} {g : Word} {reason : CloseReason}

theorem closedTo_lane : (closedTo s n m l p g reason).lanes[n] = closedLane s.lanes[n] p g reason :=
  Vector.getElem_set_self n.isLt

theorem flagged_closedTo : flagged n (closedTo s n m l p g reason) = { closedTo s n m l p g reason with
    lanes := s.lanes.set n { closedLane s.lanes[n] p g reason with full := true } } := by
  unfold flagged
  rw [closedTo_lane]
  exact congrArg (fun v => ({ closedTo s n m l p g reason with lanes := v } : State)) (Vector.set_set ..)

end ClosedTo

/-- The claim of a lane with nothing to begin ends, and its room is offered to the wait list. -/
theorem endClaim_offers {s : State} {n : LaneId} {l : Layout} (hl : s.wd.layout = some l) (h : n ∈ s.sc.claims) :
    let left := s.sc.claims.filter fun m => decide (m ≠ n)
    let room := l.catalog.size / 32 - (s.sc.producer - s.sc.consumer).toNat - left.length
    endClaim n s = { s with
      sc := { s.sc with claims := left ++ s.sc.waitList.take room, waitList := s.sc.waitList.drop room } } := by
  intro left room
  have hroom : ({ s with sc := { s.sc with claims := left } } : State).catalogRoom = room := by
    unfold State.catalogRoom State.catalogSize
    rw [show ({ s with sc := { s.sc with claims := left } } : State).wd.layout = some l from hl]
    rfl
  unfold endClaim
  rw [if_pos (by simpa using h)]
  unfold offerRoom
  rw [hroom]

/-- Settles O39: the segment that begins, waits or does not fit, and the claim that ends. -/
theorem packerBegins : Obligations.PackerBegins := by
  constructor
  · intro s n now e h l c x hs hrole hfull hpk hw hr ho hl hc hx hwl lane time buffer size used admitted beyondGroup openAt
      fitsOpen split nextFree fitsNew begun unfilled opened slotAt
    have C : Chosen s n e h l c x := ⟨packerFree_eq hrole hfull hpk hw, hw, hwl, oldest_candidate hr ho, hr.1, hl, hc, hx⟩
    have hadmit : s.catalogAdmits n = true ↔ admitted := catalogAdmits_iff hl
    have hsize : (size : Int) = 16 + (h.storedLength : Int) := by simp only [size, Int.natCast_add, Nat.cast_ofNat]
    have hfitsOpen (p : Position) (g : Word) (hf : fitsOpen p g) : ¬ s.fitSpace n < 16 + (h.storedLength : Int) := by
      obtain ⟨⟨hp, hg⟩, hoff, hle⟩ := hf
      rw [fitSpace_some hc hx hp hg, if_pos hoff]
      simp only [beyondGroup] at hle
      omega
    have hfitsSplit (p : Position) (g : Word) (hf : split p g) : ¬ s.fitSpace n < 16 + (h.storedLength : Int) := by
      obtain ⟨⟨hp, hg⟩, hoff, -, hle⟩ := hf
      rw [fitSpace_some hc hx hp hg, if_neg (by omega)]
      simp only [beyondGroup] at hle
      omega
    have hfitsNew (hf : fitsNew) : ¬ s.fitSpace n < 16 + (h.storedLength : Int) := by
      obtain ⟨hp, hle⟩ := hf
      rw [fitSpace_none hc hx hp, ← hsize]
      exact not_lt.mpr hle
    have hbegun {group : Word} {frame offset : Nat} {filled : List Host.Cell → List Host.Cell → Prop} {r : List Report}
        {after : Lane} {m : List Host.Cell} (hv : packerBeginSegment n now s = begunState (s.observeTime now) n e h l x group
          frame offset m { s.re with backlog := s.re.backlog ++ r } after)
        (hm : filled (recordedMem (s.observeTime now) n h l x group frame offset) m) : begun group frame offset filled r after := by
      obtain ⟨b, hb⟩ := runStep_next s _ (packerBeginSegment n now) hs hv
      exact ⟨_, _, hb, memWrite_written .., hm, rfl⟩
    have hnil : ({ s.re with backlog := s.re.backlog ++ [] } : RequestEngine) = s.re := by rw [List.append_nil]
    refine ⟨fun hbound hlim hadm => ?_, fun hno hf => ?_, fun hno hf => ?_, ?_⟩
    · refine ⟨fun p g hf => ?_, fun hf hfree => ?_, fun p g hf hfr => ?_, fun p g hf hfr hfree hlimit hroom => ?_⟩
      · obtain ⟨⟨hp, hg⟩, hoff, -⟩ := id hf
        exact hbegun (by rw [hnil]; exact C.begins_open hbound hlim (hadmit.mpr hadm) (hfitsOpen p g hf) hp hg hoff) rfl
      · exact hbegun (by rw [hnil]; exact C.begins_new hbound hlim (hadmit.mpr hadm) (hfitsNew hf) hf.1 hfree) rfl
      · obtain ⟨⟨hp, hg⟩, hoff, -⟩ := id hf
        exact hbegun (filled := fun m m' => frameFilled m m' (slotAt p) g p)
          (by rw [hnil]; exact C.begins_padded hbound hlim (hadmit.mpr hadm) (hfitsSplit p g hf) hp hg hoff hfr)
          (paddedMem_filled ..)
      · obtain ⟨⟨hp, hg⟩, hoff, -⟩ := id hf
        exact hbegun (filled := fun m m' => frameFilled m m' (slotAt p) g p) (C.begins_closed hbound hlim (hadmit.mpr hadm) (hfitsSplit p g hf) hp hg hoff hfr hroom hfree hlimit)
          (paddedMem_filled ..)
    · refine runStep_next s _ (packerBeginSegment n now) hs ?_
      rcases hf with hf | ⟨p, g, hf, hfr⟩
      · exact C.stalls (hfitsNew hf) (by rw [startAt_none hf.1]) hno
      · obtain ⟨⟨hp, hg⟩, hoff, -⟩ := id hf
        exact C.stalls (hfitsSplit p g hf) (by rw [startAt_closes hp hoff hfr]) hno
    · refine runStep_next s _ (packerBeginSegment n now) hs ?_
      have hno := mt hadmit.mp hno
      rcases hf with ⟨hf, hfree⟩ | ⟨p, g, hf⟩ | ⟨p, g, hf, hfr⟩
      · exact C.waits (hfitsNew hf) (.inr hfree) hno
      · obtain ⟨⟨hp, hg⟩, hoff, -⟩ := id hf
        exact C.waits (hfitsOpen p g hf) (.inl (by rw [startAt_fits hp hg hoff])) hno
      · obtain ⟨⟨hp, hg⟩, hoff, -⟩ := id hf
        rcases hfr with hfr | ⟨-, hfree⟩
        · exact C.waits (hfitsSplit p g hf) (.inl (by rw [startAt_pads hp hg hoff hfr])) hno
        · exact C.waits (hfitsSplit p g hf) (.inr hfree) hno
    · intro k y lastEnd' hjt hsole hstill hnp hend hy hle hcl full
      refine ⟨fun hp hlt => ?_, ?_⟩
      · have hfull := (congrArg (setFull n) (padClose_none (s := s.observeTime now) .limit hp)).trans
          (setFull_cutOff (s := s.observeTime now) hjt hsole hstill hnp hend hy hle hw hcl hwl hp)
        exact next_with (f := packerBeginSegment n now) hs ((C.overflows (by rw [fitSpace_none hc hx hp, ← hsize]; exact hlt)).trans
          hfull) fun b => ⟨cutOff_cutOffTo rfl rfl rfl rfl, rfl, rfl, rfl⟩
      · intro p g hp hg hf hoff hroom hlt slotAt
        obtain ⟨m, hm, hpad⟩ := padClose_spec n .limit (s.observeTime now) hl hp hg hoff hf hroom
        have hpad : padClose n .limit (s.observeTime now) = closedTo (s.observeTime now) n m l p g .limit := hpad
        have hfull := C.overflows (now := now) (by rw [fitSpace_some hc hx hp hg, ← hsize]; exact hlt)
        rw [hpad, setFull_cutOff (s := closedTo (s.observeTime now) n m l p g .limit) hjt hsole hstill hnp hend hy hle hw hcl hwl
          (congrArg Lane.position closedTo_lane), flagged_closedTo] at hfull
        exact next_with (f := packerBeginSegment n now) hs hfull fun b => ⟨cutOff_cutOffTo rfl rfl rfl rfl, hm, rfl, rfl⟩
  · intro s n now l hs hrole hfull hpk hw hl hcl hno left room
    exact runStep_next s _ (packerBeginSegment n now) hs
      ((packerBeginSegment_none (packerFree_eq hrole hfull hpk hw) hno).trans (endClaim_offers hl hcl))

end Sys2Proof.Proofs.Beginning
end

section
/-! PROOFS. STREAM_CLOSE (R39, R40): the filling chunk closes, and the job flushes, drains or ends. -/
namespace Sys2Proof.Proofs.StreamEnds
open Sys2Proof Sys2Proof.Machine Sys2Proof.Safety Sys2Proof.Laws
open Sys2Proof.Proofs.JobEnds Sys2Proof.Proofs.Requests Sys2Proof.Proofs.Streams Sys2Proof.Proofs.StreamWrites
open Sys2Proof.Proofs.WriteEnds Sys2Proof.Proofs.CutOffs Sys2Proof.Proofs.Framers

/-! ## A job that has packed nothing (R40) -/

/-- A FLUSHING WRITE job with nothing packed and nothing left to pack is DRAINING and ends. -/
theorem takeFlushTest_ends {s v : State} {n : LaneId} {k : SlotId} {r : JobRecord} (hr : s.jt.jobs[k].record = r)
    (hj : writeJob s n k) (hst : r.state = .flushing) (hidle : ∀ b, s.bufferBusy r.stream b = false)
    (hw : s.waiting (.laneUnit n) = false) (hv : flushTest n (drainingJob s k) = v) (he : r.lastEnd = none) :
    takeFlushTest k s = (v, [.ending k r.pendingOutcome]) := by
  obtain ⟨hl, rfl, hk⟩ := hj
  subst hr
  have hsignal : laneSignal s.jt.jobs[k].record.lane .flushTest (drainingJob s k) = v :=
    (laneSignal_flush (s := drainingJob s k) hw).trans hv
  unfold takeFlushTest
  dsimp only
  rw [if_pos ⟨hl, hk, hst, by rw [hidle]; rfl, by rw [hidle]; rfl⟩]
  refine Prod.ext hsignal ?_
  rw [he]
  rfl

/-! ## Streams with both buffers FREE -/

section Free
variable {s : State} {i : StreamId} (h : ∀ f : Fin 2, s.streams[i].buffers[f].state = .free)
include h

theorem buffersLeft_free : buffersLeft s.streams[i] = s.streams[i].buffers := by
  rw [buffersLeft_eq]
  refine Vector.ext fun j hj => ?_
  rw [Vector.getElem_map]
  exact leftBuffer_kept (.inl (h ⟨j, hj⟩))

theorem compressorLeft_free : compressorLeft s (fun j => decide (j = i)) = s.ce := by
  have h0 : s.streams[i].buffers[0].state = .free := h 0
  have h1 : s.streams[i].buffers[1].state = .free := h 1
  rw [← gaveUp_both, h0, h1, gaveUp_other (x := .free) _ nofun nofun, gaveUp_other (x := .free) _ nofun nofun]

theorem bufferBusy_free (f : Fin 2) : s.bufferBusy i f = false := by
  unfold State.bufferBusy
  rw [h f]

end Free

/-! ## The stream closes -/

theorem filling_first {st : Stream} {f : Fin 2} (hf : st.buffers[f].state = .filling)
    (h : f = 0 ∨ st.buffers[0].state ≠ .filling) : st.filling = some f := by
  have hf' : f = 0 ∨ f = 1 := by omega
  unfold Stream.filling
  rcases hf' with rfl | rfl
  · exact if_pos hf
  · rw [if_neg (h.resolve_left (by decide))]
    exact if_pos hf

theorem filling_none {st : Stream} (h : ∀ f : Fin 2, st.buffers[f].state ≠ .filling) : st.filling = none := by
  exact (if_neg (h 0)).trans (if_neg (h 1))

/-- The stream CLOSING and its job FLUSHING. -/
def closingStream (u : State) (i : StreamId) (k : SlotId) : State := { u with
  jt := { u.jt with jobs := u.jt.jobs.set k { live := true, record := { u.jt.jobs[k].record with state := .flushing } } }
  streams := u.streams.set i { u.streams[i] with phase := .closing }
  wd := { u.wd with streamAperture := u.wd.streamAperture.set i { u.wd.streamAperture[i] with
    limit := u.wd.streamAperture[i].expected } } }

section Closing
variable {u : State} {i : StreamId} {k : SlotId}

theorem streamClosing_flushing (hl : u.jt.jobs[k].live = true) :
    (streamClosing i u).modJob k (fun r => { r with state := .flushing }) = closingStream u i k := by
  rw [modJob_live (by rw [streamClosing_eq]; exact hl), streamClosing_eq]
  rfl

theorem closingStream_record :
    (closingStream u i k).jt.jobs[k].record = { u.jt.jobs[k].record with state := .flushing } :=
  congrArg JobSlot.record (Vector.getElem_set_self k.isLt)

theorem closingStream_stream : (closingStream u i k).streams[i] = { u.streams[i] with phase := .closing } :=
  Vector.getElem_set_self i.isLt

theorem closingStream_bufferBusy (b : Fin 2) : (closingStream u i k).bufferBusy i b = u.bufferBusy i b := by
  unfold State.bufferBusy
  rw [closingStream_stream]
  rfl

theorem writeJob_closingStream {n : LaneId} {j : SlotId} (hl : u.jt.jobs[k].live = true) :
    writeJob (closingStream u i k) n j ↔ writeJob u n j := by
  unfold writeJob
  by_cases h : j = k
  · subst h
    rw [show (closingStream u i j).jt.jobs[j] = { live := true, record := { u.jt.jobs[j].record with state := .flushing } } from
      Vector.getElem_set_self j.isLt, hl]
  · rw [show (closingStream u i k).jt.jobs[j] = u.jt.jobs[j] from
      Vector.getElem_set_ne k.isLt j.isLt fun e => h (Fin.ext e.symm)]

/-- A chunk of the stream that is left to pack keeps the job FLUSHING. -/
theorem closingStream_flushes (hf : jobTableFree u) (hi : u.jt.jobs[k].record.stream = i) {b : Fin 2}
    (hb : u.bufferBusy i b = true) : jobSignals [.flushTest k] (closingStream u i k) = closingStream u i k := by
  subst hi
  refine jobSignals_one (.flushTest k) (closingStream u _ k) hf _ (takeFlushTest_keeps fun _ => ?_) hf.2
  rw [closingStream_record]
  have : b = 0 ∨ b = 1 := by omega
  rcases this with rfl | rfl
  · exact .inl ((closingStream_bufferBusy 0).trans hb)
  · exact .inr ((closingStream_bufferBusy 1).trans hb)

end Closing

end Sys2Proof.Proofs.StreamEnds
end

section
/-! PROOFS. Settling STREAM_CLOSE (R39, R40, R43, R46, R52, R77, R80). -/
namespace Sys2Proof.Proofs.StreamEnds
open Sys2Proof Sys2Proof.Machine Sys2Proof.Safety Sys2Proof.Laws
open Sys2Proof.Proofs.JobEnds Sys2Proof.Proofs.Requests Sys2Proof.Proofs.Streams Sys2Proof.Proofs.StreamWrites
open Sys2Proof.Proofs.WriteEnds Sys2Proof.Proofs.CutOffs Sys2Proof.Proofs.Framers Sys2Proof.Proofs.Lanes

/-- What an accepted STREAM_CLOSE of the ACTIVE WRITE job in slot `k` does. -/
def closeStream (k : SlotId) (job : JobRecord) (s : State) : State :=
  let i := job.stream
  let s := match s.streams[i].filling with
    | none => s
    | some b => closeChunk i b s
  let s := (streamClosing i s).modJob k fun r => { r with state := .flushing }
  jobSignals [.flushTest k] s

section Close
variable {u : State} {k : SlotId}

/-- With no chunk FILLING none closes. -/
theorem closeStream_none (hl : u.jt.jobs[k].live = true)
    (hf : ∀ f : Fin 2, u.streams[u.jt.jobs[k].record.stream].buffers[f].state ≠ .filling) :
    closeStream k u.jt.jobs[k].record u = jobSignals [.flushTest k] (closingStream u u.jt.jobs[k].record.stream k) := by
  unfold closeStream
  dsimp only
  rw [filling_none hf]
  dsimp only
  rw [streamClosing_flushing hl]

/-- The filling chunk closes and is queued. -/
theorem closeStream_chunk {f : Fin 2} (hl : u.jt.jobs[k].live = true) (hfree : jobTableFree u)
    (hs : u.streams[u.jt.jobs[k].record.stream].slot = some k)
    (hf : u.streams[u.jt.jobs[k].record.stream].buffers[f].state = .filling)
    (h0 : f = 0 ∨ u.streams[u.jt.jobs[k].record.stream].buffers[0].state ≠ .filling)
    (hn : u.jt.jobs[k].record.nextSeq ≠ 0xFFFFFFFF) :
    let i := u.jt.jobs[k].record.stream
    closeStream k u.jt.jobs[k].record u = { u with
      jt := { u.jt with jobs := u.jt.jobs.set k {
        live := true, record := { u.jt.jobs[k].record with nextSeq := u.jt.jobs[k].record.nextSeq + 1, state := .flushing } } }
      ce := { u.ce with queue := u.ce.queue ++ [closingEntry u i f k], nextOrder := u.ce.nextOrder + 1 }
      streams := u.streams.set i { u.streams[i] with
        phase := .closing
        buffers := u.streams[i].buffers.set f { u.streams[i].buffers[f] with
          state := .closed, entry := some (closingEntry u i f k) } }
      wd := { u.wd with streamAperture := u.wd.streamAperture.set i { u.wd.streamAperture[i] with
        limit := u.wd.streamAperture[i].expected } } } := by
  intro i
  have hjob := modJob_live (s := chunkQueued i f k u) (f := fun r => { r with nextSeq := r.nextSeq + 1 }) hl
  generalize hw : (chunkQueued i f k u).modJob k (fun r => { r with nextSeq := r.nextSeq + 1 }) = w at hjob
  have hslot : w.jt.jobs[k] = { live := true, record := { u.jt.jobs[k].record with nextSeq := u.jt.jobs[k].record.nextSeq + 1 } } := by
    rw [hjob]; exact Vector.getElem_set_self k.isLt
  have hstream : w.streams[i] = { u.streams[i] with
      buffers := u.streams[i].buffers.set f { u.streams[i].buffers[f] with
        state := .closed, entry := some (closingEntry u i f k) } } := by
    rw [hjob]; exact Vector.getElem_set_self i.isLt
  have hbusy : w.bufferBusy i f = true := by
    refine bufferBusy_of_held (.inl ?_)
    rw [hstream]
    exact congrArg Buffer.state (Vector.getElem_set_self f.isLt)
  have hclose : closeStream k u.jt.jobs[k].record u = closingStream w i k := by
    unfold closeStream
    dsimp only
    rw [filling_first hf h0]
    dsimp only
    rw [closeChunk_next hs hn, hw, streamClosing_flushing (by rw [hslot])]
    exact closingStream_flushes (by rw [hjob]; exact hfree) (by rw [hslot]) hbusy
  rw [hclose]
  unfold closingStream
  rw [hslot, hstream, hjob]
  unfold chunkQueued State.modBuffer State.modStream
  simp only [i, Vector.set_set]

end Close

/-! ## The job drains in the event of its close (R40) -/

section Drains
variable {w : State} {k : SlotId} {n : LaneId} (hj : writeJob w n k) (hst : w.jt.jobs[k].record.state = .flushing)
  (hidle : ∀ b, w.bufferBusy w.jt.jobs[k].record.stream b = false) (hw : w.waiting (.laneUnit n) = false)
  (hfree : jobTableFree w)
include hj hst hidle hw hfree

/-- A job that has packed nothing ends, beside another that still packs. -/
theorem jobSignals_flushTest_ends (he : w.jt.jobs[k].record.lastEnd = none)
    (ho : ∃ j, writeJob w n j ∧ j ≠ k ∧ w.jt.jobs[j].record.state ≠ .draining) (hroom : w.re.hasRoom = true) :
    jobSignals [.flushTest k] w = writeEnded (drainingJob w k) k w.jt.jobs[k].record.pendingOutcome := by
  obtain ⟨j, hjw, hne, hsj⟩ := ho
  have hother : ∃ j, writeJob (drainingJob w k) n j ∧ (drainingJob w k).jt.jobs[j].record.state ≠ .draining :=
    ⟨j, writeJob_drainingJob.mpr hjw, by rw [drainingJob_other hne]; exact hsj⟩
  exact jobSignals_two (.flushTest k) (.ending k w.jt.jobs[k].record.pendingOutcome) hfree
    (takeFlushTest_ends rfl hj hst hidle hw (flushTest_others hother) he) hfree
    (takeEnding_beside (s := drainingJob w k) (writeJob_drainingJob.mpr hj) ⟨j, writeJob_drainingJob.mpr hjw, hne⟩ hw hroom)
    hfree.2

/-- A job whose last end group is still to be released drains, and the lane goes on as `v`. -/
theorem jobSignals_flushTest_drains {v : State} {q : JobRecord} {e : Word} {x : CartRecord} (hr : w.jt.jobs[k].record = q)
    (hv : flushTest n (drainingJob w k) = v) (he : q.lastEnd = some e) (hx : v.cd.records[q.cart] = some x)
    (hle : x.written.toNat ≤ e.toNat) (hheld : v.jt.held = []) : jobSignals [.flushTest k] w = v := by
  subst hr
  exact jobSignals_one (.flushTest k) w hfree v (takeFlushTest_drains rfl hj hst hidle hw hv he hx hle) hheld

end Drains

theorem closingStream_idle {u : State} {i : StreamId} {k : SlotId} (hf : ∀ f : Fin 2, u.streams[i].buffers[f].state = .free)
    (b : Fin 2) : (closingStream u i k).bufferBusy i b = false :=
  (closingStream_bufferBusy b).trans (bufferBusy_free hf b)

section DrainsClosing
variable {u : State} {k : SlotId} (hl : u.jt.jobs[k].live = true) (hk : u.jt.jobs[k].record.kind = .write)
  (hfree : jobTableFree u) (hf : ∀ f : Fin 2, u.streams[u.jt.jobs[k].record.stream].buffers[f].state = .free)
  (hw : u.re.waiters = [])
include hl hk hfree hf hw

/-- The stream with both buffers FREE is gone with the job that has packed nothing. -/
theorem streamClose_ends {j : SlotId} (hend : u.jt.jobs[k].record.lastEnd = none) (hj : writeJob u u.jt.jobs[k].record.lane j)
    (hne : j ≠ k) (hst : u.jt.jobs[j].record.state ≠ .draining) (hroom : u.re.hasRoom = true) :
    let i := u.jt.jobs[k].record.stream
    jobSignals [.flushTest k] (closingStream u i k) = { u with
      re := { u.re with backlog := u.re.backlog ++
        [.jobDone k { u.jt.jobs[k].record with state := .draining } u.jt.jobs[k].record.pendingOutcome] }
      jt := { u.jt with jobs := u.jt.jobs.set k { live := false, record := { u.jt.jobs[k].record with state := .free } } }
      streams := u.streams.set i { u.streams[i] with phase := .free, slot := none }
      wd := { u.wd with streamAperture := u.wd.streamAperture.set i {} } } := by
  intro i
  have hrec : (closingStream u i k).jt.jobs[k].record = { u.jt.jobs[k].record with state := .flushing } := closingStream_record
  have hother : (closingStream u i k).jt.jobs[j] = u.jt.jobs[j] :=
    Vector.getElem_set_ne k.isLt j.isLt fun e => hne (Fin.ext e.symm)
  have hbufs : ∀ f : Fin 2, (closingStream u i k).streams[i].buffers[f].state = .free := fun f => by
    rw [closingStream_stream]; exact hf f
  rw [jobSignals_flushTest_ends (w := closingStream u i k) (n := u.jt.jobs[k].record.lane)
    ((writeJob_closingStream hl).mpr ⟨hl, rfl, hk⟩) (by rw [hrec])
    (fun b => by rw [hrec]; exact closingStream_idle hf b) (by simp [State.waiting, closingStream, hw]) hfree (by rw [hrec]; exact hend)
    ⟨j, (writeJob_closingStream hl).mpr hj, hne, by rw [hother]; exact hst⟩ hroom]
  have hself : (drainingJob (closingStream u i k) k).jt.jobs[k] =
      { live := true, record := { u.jt.jobs[k].record with state := .draining } } := by
    rw [drainingJob_self, hrec]
    exact congrArg (fun b => JobSlot.mk b _) (congrArg JobSlot.live (Vector.getElem_set_self k.isLt))
  have hstream : (drainingJob (closingStream u i k) k).streams[i] = { u.streams[i] with phase := .closing } :=
    closingStream_stream (k := k)
  have hleft : buffersLeft (drainingJob (closingStream u i k) k).streams[i] = u.streams[i].buffers := by
    rw [hstream]
    exact buffersLeft_free hf
  have hce : compressorLeft (drainingJob (closingStream u i k) k) (fun j => decide (j = i)) = u.ce :=
    compressorLeft_free hbufs
  unfold writeEnded streamFreed
  rw [hself, hrec]
  dsimp only
  rw [hce, hleft]
  unfold drainingJob closingStream
  simp only [i, Vector.set_set]

/-- The lane's only WRITE job drains, and the lane's open group is pad-closed. -/
theorem streamClose_padCloses {l : Layout} {p : Position} {g e : Word} {x : CartRecord}
    (hsole : soleWriteJob u u.jt.jobs[k].record.lane k) (hlay : u.wd.layout = some l)
    (hp : u.lanes[u.jt.jobs[k].record.lane].position = some p)
    (hg : u.lanes[u.jt.jobs[k].record.lane].slots[p.slot]? = some (.opened g)) (hfr : p.frame ≤ 7) (hoff : p.offset ≤ 4076)
    (hpk : u.lanes[u.jt.jobs[k].record.lane].packing = none) (hend : u.jt.jobs[k].record.lastEnd = some e)
    (hx : u.cd.records[u.jt.jobs[k].record.cart] = some x) (hle : x.written.toNat ≤ e.toNat) (hroom : u.re.hasRoom = true) :
    let i := u.jt.jobs[k].record.stream
    let n := u.jt.jobs[k].record.lane
    let slotAt := l.pools[n].base + 32768 * p.slot
    ∃ m, padClosed u.mem m slotAt g p ∧ jobSignals [.flushTest k] (closingStream u i k) = { u with
      mem := m
      re := { u.re with backlog := u.re.backlog ++ [.groupReady n .flush (BitVec.ofNat 32 slotAt) g p.slot p.starts] }
      jt := { u.jt with jobs := u.jt.jobs.set k { live := true, record := { u.jt.jobs[k].record with state := .draining } } }
      lanes := u.lanes.set n (closedLane u.lanes[n] p g .flush)
      streams := u.streams.set i { u.streams[i] with phase := .closing }
      wd := { u.wd with streamAperture := u.wd.streamAperture.set i { u.wd.streamAperture[i] with
        limit := u.wd.streamAperture[i].expected } } } := by
  intro i n slotAt
  have hrec : (closingStream u i k).jt.jobs[k].record = { u.jt.jobs[k].record with state := .flushing } := closingStream_record
  have hself : (drainingJob (closingStream u i k) k).jt.jobs[k].record = { u.jt.jobs[k].record with state := .draining } := by
    rw [drainingJob_self, hrec]
  have hdrain : ∀ j, writeJob (drainingJob (closingStream u i k) k) n j →
      (drainingJob (closingStream u i k) k).jt.jobs[j].record.state = .draining := fun j hj => by
    rw [hsole.2 j ((writeJob_closingStream hl).mp (writeJob_drainingJob.mp hj)), hself]
  obtain ⟨m, hm, hpad⟩ := padClose_spec n .flush (drainingJob (closingStream u i k) k) (l := l) hlay hp hg hoff hfr hroom
  refine ⟨m, hm, ?_⟩
  rw [jobSignals_flushTest_drains (w := closingStream u i k) (n := n) ((writeJob_closingStream hl).mpr ⟨hl, rfl, hk⟩)
    (by rw [hrec]) (fun b => by rw [hrec]; exact closingStream_idle hf b) (by simp [State.waiting, closingStream, hw]) hfree
    hrec ((flushTest_closes hdrain hpk).trans hpad) hend hx hle hfree.2]
  have hjobs : (drainingJob (closingStream u i k) k).jt = { u.jt with
      jobs := u.jt.jobs.set k { live := true, record := { u.jt.jobs[k].record with state := .draining } } } := by
    unfold drainingJob closingStream
    simp only [Fin.getElem_fin, Vector.getElem_set_self, Vector.set_set]
  rw [hjobs]
  rfl

end DrainsClosing

/-- Settles O31. -/
theorem streamCloseCloses : Obligations.StreamCloseCloses := by
  intro s r h hfree
  have ho : s.ownerReady .streamClose r = true := by simp [State.ownerReady, hfree.1]
  refine ⟨fun hnone => ?_, ?_⟩
  · refine request_refused (c := .streamClose) (u := s) rfl rfl h rfl ho ?_
    cases htag : s.jobByTag (recordTag r) with
    | none => simp [State.decision, streamCloseDecision, htag]
    | some x =>
      obtain ⟨k, job⟩ := x
      obtain ⟨hl, ht, rfl⟩ := jobByTag_some htag
      simp only [State.decision, streamCloseDecision, htag, if_pos (hnone k hl ht)]
  intro k hk hkind a job i n
  have htag := jobByTag_liveOnly hk
  refine ⟨fun hst => ?_, ?_⟩
  · have hne : s.jt.jobs[k].record.state ≠ .active := by
      intro e
      rcases hst with h | h <;> cases e.symm.trans h
    have hd : s.decision .streamClose r = .ok id := by
      simp only [State.decision, streamCloseDecision, htag, if_neg (not_not.mpr hkind), if_pos hne]
    exact request_accepted (c := .streamClose) (u := s) (by decide) rfl rfl h rfl ho hd
  have hclose (hact : job.state = .active) {v : State} (hv : closeStream k job a = v) :
      ∃ b, exec .streamClose s = .next (withStale b v) := by
    have hd : s.decision .streamClose r = .ok (closeStream k job) := by
      have hact : s.jt.jobs[k].record.state = .active := hact
      simp only [State.decision, streamCloseDecision, htag, if_neg (not_not.mpr hkind), if_neg (not_not.mpr hact)]
      rfl
    have := request_accepted (c := .streamClose) (u := s) (by decide) rfl rfl h rfl ho hd
    rwa [hv] at this
  refine ⟨fun f hact hslot hf h0 hn => ?_, fun hact hf hbusy => ?_, fun hact hslot hf hroom => ⟨fun j hend hne hj hst => ?_, ?_⟩⟩
  · intro entry
    exact hclose hact (closeStream_chunk (u := a) hk.1 hfree hslot hf h0 hn)
  · obtain ⟨f, hb⟩ := hbusy
    exact hclose hact ((closeStream_none (u := a) hk.1 hf).trans (closingStream_flushes (u := a) hfree rfl (bufferBusy_iff.mpr hb)))
  · have hends := streamClose_ends (u := a) hk.1 hkind hfree hf hroom.1 hend hj hne hst (answered_hasRoom .done r hroom)
    exact hclose hact ((closeStream_none (u := a) hk.1 (fun f e => by cases (hf f).symm.trans e)).trans hends)
  · intro l p g e x hsole hl hp hg hfr hoff hpk hend hx hle slotAt
    obtain ⟨m, hm, hcl⟩ := streamClose_padCloses (u := a) hk.1 hkind hfree hf hroom.1 hsole hl hp hg hfr hoff hpk hend hx hle
      (answered_hasRoom .done r hroom)
    obtain ⟨b, hb⟩ := hclose hact ((closeStream_none (u := a) hk.1 (fun f e => by cases (hf f).symm.trans e)).trans hcl)
    exact ⟨_, hb, hm, rfl⟩

end Sys2Proof.Proofs.StreamEnds
end

section
/-! PROOFS. JOB_ABORT (R41, R42): a WRITE job gives up its chunks, a VERIFY or RESTORE job ends. -/
namespace Sys2Proof.Proofs.Aborts
open Sys2Proof Sys2Proof.Machine Sys2Proof.Safety Sys2Proof.Laws
open Sys2Proof.Proofs.JobEnds Sys2Proof.Proofs.Requests Sys2Proof.Proofs.Streams Sys2Proof.Proofs.StreamWrites
open Sys2Proof.Proofs.WriteEnds Sys2Proof.Proofs.CutOffs Sys2Proof.Proofs.Framers Sys2Proof.Proofs.StreamEnds

/-! ## Chunks are given up once -/

section Left
variable {stop : Bool} {b : Buffer}

theorem leftBuffer_compressing : (leftBuffer stop b).state = .compressing ↔ b.state = .compressing := by
  unfold leftBuffer
  cases h : b.state <;> cases stop <;> simp [h]

theorem leftBuffer_closed : (leftBuffer stop b).state ≠ .closed := by
  unfold leftBuffer
  cases h : b.state <;> cases stop <;> simp [h]

theorem leftBuffer_twice : leftBuffer false (leftBuffer stop b) = leftBuffer stop b := by
  unfold leftBuffer
  cases h : b.state <;> cases stop <;> simp [h]

end Left

theorem buffersLeft_twice {stop : Bool} {s w : State} {i : StreamId}
    (hb : w.streams[i].buffers = s.streams[i].buffers.map (leftBuffer stop)) : buffersLeft w.streams[i] = w.streams[i].buffers := by
  rw [buffersLeft_eq, hb, Vector.map_map]
  exact congrArg (fun f => s.streams[i].buffers.map f) (funext fun _ => leftBuffer_twice)

/-- Where the chunks of some streams have been given up, those of others are given up as before. -/
theorem compressorLeft_or {stop : Bool} {s v : State} {lost more : StreamId → Bool} (hc : v.ce = compressorLeft s lost)
    (hl : ∀ i, lost i = true → v.streams[i].buffers = s.streams[i].buffers.map (leftBuffer stop))
    (hk : ∀ i, lost i = false → v.streams[i].buffers = s.streams[i].buffers) :
    compressorLeft v more = compressorLeft s fun i => lost i || more i := by
  have hget (i : StreamId) (f : Fin 2) (h : lost i = true) : v.streams[i].buffers[f] = leftBuffer stop s.streams[i].buffers[f] := by
    rw [hl i h]
    exact Vector.getElem_map _ f.isLt
  unfold compressorLeft
  dsimp only
  rw [hc]
  unfold compressorLeft
  dsimp only
  rw [List.filter_filter, Option.map_map]
  congr 1
  · refine List.filter_congr fun e _ => ?_
    cases h : lost e.stream with
    | true => simp only [hget _ _ h, leftBuffer_closed, decide_false, Bool.and_false, Bool.not_false, Bool.true_and, Bool.true_or]
    | false => simp only [hk _ h, Bool.false_and, Bool.not_false, Bool.and_true, Bool.false_or]
  · refine congrArg (fun f => s.ce.inFlight.map f) (funext fun c => ?_)
    rcases Bool.eq_false_or_eq_true (lost c.entry.stream) with h | h
    · by_cases hst : s.streams[c.entry.stream].buffers[c.entry.buffer].state = .compressing
      · simp only [Function.comp_apply, h, hst, decide_true, Bool.and_self, if_true, hget _ _ h, leftBuffer_compressing.mpr hst,
          Bool.and_true, Bool.true_or, ite_self]
      · simp only [Function.comp_apply, hst, decide_false, Bool.and_false, Bool.false_eq_true, if_false, hget _ _ h,
          mt leftBuffer_compressing.mp hst]
    · simp only [Function.comp_apply, h, Bool.false_and, Bool.false_or, Bool.false_eq_true, if_false, hk _ h]

/-! ## A WRITE job is aborted (R41) -/

/-- The record of an aborted job. -/
def abortedRecord (s : State) (k : SlotId) (state : JobState) : JobRecord :=
  { s.jt.jobs[k].record with pendingOutcome := .aborted, state := state }

/-- An aborted job has given up its chunks and is in the state given. -/
def abortedTo (s : State) (k : SlotId) (state : JobState) : State :=
  { leftClosing s s.jt.jobs[k].record.stream with
    jt := { s.jt with jobs := s.jt.jobs.set k { live := true, record := abortedRecord s k state } } }

section Writing
variable {s : State} {k : SlotId} {n : LaneId}

theorem abortWriting_packs (hl : s.jt.jobs[k].live = true) (hc : stillPacks s.jt.jobs[k].record) :
    abortWriting k s.jt.jobs[k].record s = jobSignals [.flushTest k] (abortedTo s k .flushing) := by
  have hcut : s.jt.jobs[k].record.cutOff = true := by
    unfold JobRecord.cutOff
    rcases hc with h | ⟨h1, h2⟩
    · rw [h]; rfl
    · rw [h1, h2]; rfl
  unfold abortWriting
  rw [if_pos hcut]
  dsimp only
  rw [streamClosing_giveUp, modJob_live (by exact hl)]
  rfl

theorem abortWriting_cut (hl : s.jt.jobs[k].live = true)
    (hc : s.jt.jobs[k].record.state = .draining ∨ (s.jt.jobs[k].record.state = .flushing
      ∧ s.jt.jobs[k].record.pendingOutcome ≠ .complete)) :
    abortWriting k s.jt.jobs[k].record s = { s with jt := { s.jt with
      jobs := s.jt.jobs.set k { live := true, record := { s.jt.jobs[k].record with pendingOutcome := .aborted } } } } := by
  have hcut : s.jt.jobs[k].record.cutOff = false := by
    unfold JobRecord.cutOff
    rcases hc with h | ⟨h1, h2⟩
    · rw [h]; rfl
    · rw [h1, decide_eq_false h2]; rfl
  unfold abortWriting
  rw [if_neg (by rw [hcut]; decide), modJob_live hl]

theorem abortedTo_self (state : JobState) : (abortedTo s k state).jt.jobs[k] = { live := true, record := abortedRecord s k state } :=
  Vector.getElem_set_self k.isLt

theorem abortedTo_other {j : SlotId} (state : JobState) (h : j ≠ k) : (abortedTo s k state).jt.jobs[j] = s.jt.jobs[j] :=
  Vector.getElem_set_ne k.isLt j.isLt fun e => h (Fin.ext e.symm)

theorem drainingJob_abortedTo (state : JobState) : drainingJob (abortedTo s k state) k = abortedTo s k .draining := by
  unfold drainingJob
  rw [abortedTo_self]
  refine congrArg (fun v => ({ abortedTo s k .draining with jt := { s.jt with jobs := v } } : State)) ?_
  exact Vector.set_set ..

variable (hfree : jobTableFree s)
include hfree

/-- The chunk that is being packed keeps the job FLUSHING. -/
theorem abort_flushes {f : Fin 2} (hp : s.streams[s.jt.jobs[k].record.stream].buffers[f].state = .packing) :
    jobSignals [.flushTest k] (abortedTo s k .flushing) = abortedTo s k .flushing := by
  have hbusy : (abortedTo s k .flushing).bufferBusy s.jt.jobs[k].record.stream f = true := leftClosing_packing hp
  refine jobSignals_one (.flushTest k) (abortedTo s k .flushing) hfree _ (takeFlushTest_keeps fun _ => ?_) hfree.2
  have hstream : (abortedTo s k .flushing).jt.jobs[k].record.stream = s.jt.jobs[k].record.stream := by
    rw [abortedTo_self]; rfl
  rw [hstream]
  have : f = 0 ∨ f = 1 := by omega
  rcases this with rfl | rfl
  · exact .inl hbusy
  · exact .inr hbusy

variable (hj : writeJob s n k) (hn : nothingPacked s s.jt.jobs[k].record.stream) (hw : s.waiting (.laneUnit n) = false)
  {j : SlotId} (hne : j ≠ k) (hjw : writeJob s n j) (hst : s.jt.jobs[j].record.state ≠ .draining)
include hj hn hw hne hjw hst

/-- A job whose last end group is still to be released drains. -/
theorem abort_drains {e : Word} {x : CartRecord} (he : s.jt.jobs[k].record.lastEnd = some e)
    (hx : s.cd.records[s.jt.jobs[k].record.cart] = some x) (hle : x.written.toNat ≤ e.toNat) :
    jobSignals [.flushTest k] (abortedTo s k .flushing) = abortedTo s k .draining := by
  have hself : writeJob (abortedTo s k .flushing) n k := by
    unfold writeJob
    rw [abortedTo_self]
    exact ⟨rfl, hj.2⟩
  have hother : ∃ i, writeJob (abortedTo s k .draining) n i ∧ (abortedTo s k .draining).jt.jobs[i].record.state ≠ .draining := by
    refine ⟨j, ?_, by rw [abortedTo_other _ hne]; exact hst⟩
    unfold writeJob
    rw [abortedTo_other _ hne]
    exact hjw
  have hidle (b : Fin 2) : (abortedTo s k .flushing).bufferBusy s.jt.jobs[k].record.stream b = false :=
    leftClosing_idle (hn b).1 (hn b).2
  exact jobSignals_flushTest_drains hself (by rw [abortedTo_self]; rfl) (by rw [abortedTo_self]; exact hidle) hw hfree
    (congrArg JobSlot.record (abortedTo_self .flushing)) ((congrArg (flushTest n) (drainingJob_abortedTo _)).trans (flushTest_others hother)) he hx hle hfree.2

/-- A job that has packed nothing ends. -/
theorem abort_ends (he : s.jt.jobs[k].record.lastEnd = none) (hroom : s.re.hasRoom = true) :
    jobSignals [.flushTest k] (abortedTo s k .flushing) = streamFreed s { s with
      re := { s.re with backlog := s.re.backlog ++ [.jobDone k (abortedRecord s k .draining) .aborted] }
      jt := { s.jt with jobs := s.jt.jobs.set k { live := false, record := abortedRecord s k .free } } }
      s.jt.jobs[k].record.stream := by
  have hself : writeJob (abortedTo s k .flushing) n k := by
    unfold writeJob
    rw [abortedTo_self]
    exact ⟨rfl, hj.2⟩
  have hother : ∃ i, writeJob (abortedTo s k .flushing) n i ∧ i ≠ k ∧ (abortedTo s k .flushing).jt.jobs[i].record.state ≠ .draining := by
    refine ⟨j, ?_, hne, by rw [abortedTo_other _ hne]; exact hst⟩
    unfold writeJob
    rw [abortedTo_other _ hne]
    exact hjw
  have hidle (b : Fin 2) : (abortedTo s k .flushing).bufferBusy s.jt.jobs[k].record.stream b = false :=
    leftClosing_idle (hn b).1 (hn b).2
  rw [jobSignals_flushTest_ends hself (by rw [abortedTo_self]; rfl) (by rw [abortedTo_self]; exact hidle) hw hfree
    (by rw [abortedTo_self]; exact he) hother hroom, drainingJob_abortedTo,
    show (abortedTo s k .flushing).jt.jobs[k].record.pendingOutcome = .aborted by rw [abortedTo_self]; rfl]
  have hbufs : (abortedTo s k .draining).streams[s.jt.jobs[k].record.stream].buffers =
      s.streams[s.jt.jobs[k].record.stream].buffers.map (leftBuffer false) :=
    (congrArg Stream.buffers leftClosing_stream).trans (buffersLeft_eq _)
  have hce : compressorLeft (abortedTo s k .draining) (fun i => decide (i = s.jt.jobs[k].record.stream)) =
      compressorLeft s fun i => decide (i = s.jt.jobs[k].record.stream) := by
    refine (compressorLeft_or (stop := false) (s := s) rfl (fun i hi => ?_) fun i hi => ?_).trans
      (congrArg (compressorLeft s) (funext fun i => Bool.or_self _))
    · rw [of_decide_eq_true hi]
      exact hbufs
    · have hne : i ≠ s.jt.jobs[k].record.stream := of_decide_eq_false hi
      exact congrArg Stream.buffers (Vector.getElem_set_ne s.jt.jobs[k].record.stream.isLt i.isLt fun e => hne (Fin.ext e.symm))
  unfold writeEnded streamFreed
  rw [abortedTo_self]
  dsimp only
  have hi : (abortedRecord s k .draining).stream = s.jt.jobs[k].record.stream := rfl
  rw [hi, buffersLeft_twice hbufs, hbufs, ← buffersLeft_eq, hce]
  unfold abortedTo leftClosing
  simp only [Vector.set_set]
  rfl

end Writing

end Sys2Proof.Proofs.Aborts
end

section
/-! PROOFS. Settling JOB_ABORT: a VERIFY or RESTORE job ends (R42, R124, R127, R132). -/
namespace Sys2Proof.Proofs.Aborts
open Sys2Proof Sys2Proof.Machine Sys2Proof.Safety Sys2Proof.Laws
open Sys2Proof.Proofs.JobEnds Sys2Proof.Proofs.Requests Sys2Proof.Proofs.CutOffs Sys2Proof.Proofs.Framers
open Sys2Proof.Proofs.Decoding

/-! ## What a Framer's stop changes -/

/-- The state with one Framer and its return-ring aperture as given. -/
def framerSet (s : State) (n : LaneId) (f : Framer) (a : Aperture) : State := { s with
  framers := s.framers.set n f
  wd := { s.wd with ringAperture := s.wd.ringAperture.set n a } }

section Framer
variable {s : State} {n : LaneId}

theorem framerSet_self {f : Framer} {a : Aperture} : (framerSet s n f a).framers[n] = f := Vector.getElem_set_self n.isLt

theorem framerSet_twice {f g : Framer} {a b : Aperture} : framerSet (framerSet s n f a) n g b = framerSet s n g b := by
  unfold framerSet
  simp only [Vector.set_set]

theorem recomputeConsumed_framerSet : ∃ f a, f.phase = s.framers[n].phase ∧ recomputeConsumed n s = framerSet s n f a := by
  unfold recomputeConsumed
  dsimp only
  split
  · refine ⟨s.framers[n], s.wd.ringAperture[n], rfl, ?_⟩
    unfold framerSet
    simp only [Fin.getElem_fin, Vector.set_getElem_self]
  · generalize (s.framers[n].assemblyPieces ++ s.de.piecesOf n).foldl (earlier s.framers[n].consumed) s.framers[n].retained = c
    exact ⟨{ s.framers[n] with consumed := c },
      { s.wd.ringAperture[n] with limit := c + BitVec.ofNat 32 (s.returnRing n).size }, rfl, rfl⟩

/-- A bound Framer is STOPPED, and nothing else changes but its aperture. -/
theorem stopFramer_framerSet (hh : s.de.holding = []) (hp : s.framers[n].phase ≠ .unbound) :
    ∃ f a, f.phase = .stopped ∧ stopFramer n s = framerSet s n f a := by
  by_cases ht : s.framers[n].phase = .taking
  · rw [stopFramer_taking ht]
    obtain ⟨f, a, hf, h⟩ := recomputeConsumed_framerSet (s := { s with
      framers := s.framers.set n (stoppedFramer s.wd.ringAperture[n].expected s.framers[n])
      de := { s.de with holding := s.de.holding.filter fun m => decide (m ≠ n) } }) (n := n)
    refine ⟨f, a, hf.trans ?_, h.trans ?_⟩
    · exact congrArg Framer.phase (Vector.getElem_set_self n.isLt)
    · unfold framerSet
      simp only [Vector.set_set, hh, List.filter_nil]
      rw [← hh]
  · refine ⟨s.framers[n], s.wd.ringAperture[n], ?_, ?_⟩
    · cases h : s.framers[n].phase with
      | unbound => exact absurd h hp
      | taking => exact absurd h ht
      | stopped => rfl
    · unfold framerSet stopFramer
      simp only [Fin.getElem_fin, Vector.set_getElem_self]
      exact if_neg ht

/-- A STOPPED Framer that has lost its segments recomputes its marks. -/
theorem segmentRead_framerSet {f : Framer} {a : Aperture} (hw : s.waiting (.framer n) = false) (hp : f.phase = .stopped) :
    ∃ g b, segmentRead n (framerSet s n f a) = framerSet s n g b := by
  have hset := framerSettle_stopped (u := framerSet s n f a) (n := n) hw (by rw [framerSet_self]; exact hp)
  obtain ⟨g, b, -, h⟩ := recomputeConsumed_framerSet (s := (framerSet s n f a).modFramer n fun x =>
    { x with scan := (framerSet s n f a).wd.ringAperture[n].expected }) (n := n)
  refine ⟨g, b, ?_⟩
  unfold segmentRead
  rw [hset, h]
  unfold framerSet State.modFramer
  simp only [Vector.set_set]

/-- The decode in flight once the Decode Engine has given up what it holds for some entries and jobs. -/
theorem unlinked_discardDecoding (entry : DecodeEntry → Bool) (job : SlotId → Bool) (s : State) :
    unlinked n (discardDecoding entry job s).de.operation = operationLeft s.de n entry job := by
  unfold discardDecoding operationLeft
  dsimp only
  cases s.de.operation with
  | none => rfl
  | some o =>
    cases o with
    | evaluation k => cases h : job k <;> simp [unlinked, h]
    | decode d =>
      cases he : entry d.entry <;> cases hr : d.result <;> by_cases hn : d.entry.lane = n <;> simp [unlinked, he, hr, hn] <;> rw [← hr]

theorem discardDecoding_framerSet (entry : DecodeEntry → Bool) (job : SlotId → Bool) (f : Framer) (a : Aperture) :
    discardDecoding entry job (framerSet s n f a) = framerSet (discardDecoding entry job s) n f a := rfl

/-- A job's decodes are given up and its Framer stops, and no Framer that holds goes on. -/
theorem abortReading_eq {k : SlotId} (hn : s.jt.jobs[k].record.lane = n) (hh : s.de.holding = [])
    (hp : s.framers[n].phase ≠ .unbound) (hw : s.waiting (.framer n) = false) :
    ∃ f a, abortReading k s
      = framerSet (discardDecoding (fun e => decide (e.slot = k)) (fun j => decide (j = k)) s) n f a := by
  subst hn
  obtain ⟨f, a, hf, hstop⟩ := stopFramer_framerSet hh hp
  obtain ⟨g, b, hread⟩ := segmentRead_framerSet
    (s := discardDecoding (fun e => decide (e.slot = k)) (fun j => decide (j = k)) s) (a := a) hw hf
  refine ⟨g, b, ?_⟩
  unfold abortReading
  dsimp only
  rw [hstop, discardDecoding_framerSet, hread]
  exact freedPlaces_none hh

/-- A VERIFY or RESTORE job that is aborted ends. -/
theorem abortReading_ends {k : SlotId} (hfree : jobTableFree s) (hl : s.jt.jobs[k].live = true)
    (hk : s.jt.jobs[k].record.kind ≠ .write) (hn : s.jt.jobs[k].record.lane = n) (hh : s.de.holding = [])
    (hp : s.framers[n].phase ≠ .unbound) (hw : s.waiting (.framer n) = false) (hroom : s.re.hasRoom = true) :
    ∃ t, jobSignals [.ending k .aborted] (abortReading k s) = t ∧ t.mem = s.mem
      ∧ t.re.backlog = s.re.backlog ++ [.jobDone k s.jt.jobs[k].record .aborted]
      ∧ t.jt = { s.jt with
          jobs := s.jt.jobs.set k { live := false, record := { s.jt.jobs[k].record with state := .free } } }
      ∧ t.lanes[n].role = .idle ∧ t.framers[n].phase = .unbound ∧ (∀ m : LaneId, m ≠ n → t.framers[m] = s.framers[m])
      ∧ t.de = { s.de with
          queue := s.de.queue.filter fun e => decide (e.slot ≠ k), due := s.de.due.filter fun j => decide (j ≠ k)
          operation := operationLeft s.de n (fun e => decide (e.slot = k)) fun j => decide (j = k) }
      ∧ t.streams = s.streams ∧ t.cd = s.cd ∧ t.lc = s.lc ∧ t.ce = s.ce := by
  obtain ⟨f, a, hread⟩ := abortReading_eq hn hh hp hw
  rw [hread]
  generalize hu : discardDecoding (fun e => decide (e.slot = k)) (fun j => decide (j = k)) s = u
  obtain ⟨w, c, -, hend⟩ := jobSignals_endReading (s := framerSet u n f a) (k := k) (n := n) .aborted
    (by subst hu; exact hfree) (by subst hu; exact hl) (by subst hu; exact hk) (by subst hu; exact hn)
    (by subst hu; exact hw) (by subst hu; exact hroom)
  have hset (m : LaneId) (hm : m ≠ n) : n.val ≠ m.val := fun e => hm (Fin.ext e.symm)
  refine ⟨_, hend, ?_, ?_, ?_, ?_, ?_, fun m hm => ?_, ?_, ?_, ?_, ?_, ?_⟩ <;> subst hu
  · rfl
  · rfl
  · rfl
  · exact congrArg Lane.role (Vector.getElem_set_self n.isLt)
  · exact congrArg Framer.phase (Vector.getElem_set_self n.isLt)
  · exact (Vector.getElem_set_ne n.isLt m.isLt (hset m hm)).trans (Vector.getElem_set_ne n.isLt m.isLt (hset m hm))
  · have hop := unlinked_discardDecoding (n := n) (fun e => decide (e.slot = k)) (fun j => decide (j = k)) s
    unfold readingEnded framerSet
    dsimp only
    rw [hop]
    unfold discardDecoding
    simp only [hh, List.filter_nil, decide_not]
  · rfl
  · rfl
  · rfl
  · rfl

end Framer

/-- Settles O33. -/
theorem jobAborted : Obligations.JobAborted := by
  intro s r h hfree
  refine ⟨fun hnone => ?_, ?_⟩
  · have htag : s.jobByTag (recordTag r) = none := jobByTag_eq_none hnone
    exact request_refused (c := .jobAbort) (u := s) rfl rfl h rfl
      (by simp [State.ownerReady, State.jobFramerWaits, htag, hfree.1]) (by simp [State.decision, jobAbortDecision, htag])
  intro k hk a job i n aborted closing
  have htag := jobByTag_liveOnly hk
  have ho (hw : job.kind = .write ∨ s.waiting (.framer n) = false) : s.ownerReady .jobAbort r = true := by
    have hwait : s.jobFramerWaits (recordTag r) = false := by
      unfold State.jobFramerWaits
      rw [htag]
      rcases hw with hw | hw
      · have hw : s.jt.jobs[k].record.kind = .write := hw
        simp only [hw, ne_eq, not_true_eq_false, decide_false, Bool.false_and]
      · have hw : s.waiting (.framer s.jt.jobs[k].record.lane) = false := hw
        simp only [hw, Bool.and_false]
    simp only [State.ownerReady, hfree.1, hwait, Bool.not_false, Bool.and_true]
  have hwriting (hkind : job.kind = .write) {v : State} (hv : abortWriting k job a = v) :
      ∃ b, exec .jobAbort s = .next (withStale b v) := by
    have hd : s.decision .jobAbort r = .ok (abortWriting k job) := by
      have hkind' : s.jt.jobs[k].record.kind = .write := hkind
      simp only [State.decision, jobAbortDecision, htag, hkind']
      rfl
    have := request_accepted (c := .jobAbort) (u := s) (by decide) rfl rfl h rfl (ho (.inl hkind)) hd
    rwa [hv] at this
  refine ⟨fun hkind hst => hwriting hkind (abortWriting_cut (s := a) hk.1 hst), fun hkind hst => ⟨fun ⟨f, hf⟩ => ?_, ?_⟩, ?_⟩
  · exact hwriting hkind ((abortWriting_packs (s := a) hk.1 hst).trans (abort_flushes (s := a) hfree hf))
  · intro j hn hne hj hsj
    have hjob : writeJob a n k := ⟨hk.1, rfl, hkind⟩
    refine ⟨fun e x hw he hx hle => ?_, fun he hroom => ?_⟩
    · exact hwriting hkind ((abortWriting_packs (s := a) hk.1 hst).trans
        (abort_drains (s := a) hfree hjob hn hw hne hj hsj he hx hle))
    · have hw : a.waiting (.laneUnit n) = false := by simp [State.waiting, a, answered, hroom.1]
      exact hwriting hkind ((abortWriting_packs (s := a) hk.1 hst).trans
        (abort_ends (s := a) hfree hjob hn hw hne hj hsj he (answered_hasRoom .done r hroom)))
  · intro hkind hw hroom hh hp
    have hd : s.decision .jobAbort r = .ok fun s => jobSignals [.ending k .aborted] (abortReading k s) := by
      have hkind' : s.jt.jobs[k].record.kind ≠ .write := hkind
      simp only [State.decision, jobAbortDecision, htag]
    obtain ⟨b, hx⟩ := request_accepted (c := .jobAbort) (u := s) (by decide) rfl rfl h rfl (ho (.inr hw)) hd
    obtain ⟨v, hv, hmem, hback, hjt, hrole, hphase, hothers, hde, hst, hcd, hlc, hce⟩ := abortReading_ends (s := a)
      hfree hk.1 hkind rfl hh hp hw (answered_hasRoom .done r hroom)
    rw [hv] at hx
    exact ⟨_, hx, hmem, hback, hjt, hrole, hphase, hothers, hde, hst, hcd, hlc, hce⟩

end Sys2Proof.Proofs.Aborts
end

section
/-! PROOFS. LANE_RESET (R49, R87, R117): what the lane, its streams and the Decode Engine give up, and its jobs' endings. -/
namespace Sys2Proof.Proofs.Resets
open Sys2Proof Sys2Proof.Machine Sys2Proof.Safety Sys2Proof.Laws
open Sys2Proof.Proofs.JobEnds Sys2Proof.Proofs.Requests Sys2Proof.Proofs.CutOffs Sys2Proof.Proofs.Framers
open Sys2Proof.Proofs.WriteEnds Sys2Proof.Proofs.Aborts Sys2Proof.Proofs.Catalog

/-- Whether a stream belongs to one of the WRITE jobs listed. -/
def ofJobs (s : State) (ks : List SlotId) (i : StreamId) : Bool :=
  ks.any fun k => decide (s.jt.jobs[k].record.kind = .write) && decide (s.jt.jobs[k].record.stream = i)

/-! ## The streams give up their chunks (R49) -/

/-- The streams that `lost` names have given up every chunk; nothing else has changed but their accept limits. -/
structure GivenUp (lost : StreamId → Bool) (s v : State) : Prop where
  rest : ∃ st ap, v = { s with streams := st, ce := compressorLeft s lost, wd := { s.wd with streamAperture := ap } }
  gone : ∀ i, lost i = true → v.streams[i] = { s.streams[i] with buffers := s.streams[i].buffers.map (leftBuffer true) }
  kept : ∀ i, lost i = false → v.streams[i] = s.streams[i] ∧ v.wd.streamAperture[i] = s.wd.streamAperture[i]

section GivenUp
variable {lost : StreamId → Bool} {s v : State}

theorem GivenUp.compressor (h : GivenUp lost s v) (more : StreamId → Bool) :
    compressorLeft v more = compressorLeft s fun i => lost i || more i :=
  compressorLeft_or (by obtain ⟨_, _, e⟩ := h.rest; rw [e]) (fun i hi => congrArg Stream.buffers (h.gone i hi))
    fun i hi => congrArg Stream.buffers (h.kept i hi).1

theorem givenUp_none (s : State) : GivenUp (fun _ => false) s s where
  rest := by
    have : compressorLeft s (fun _ => false) = s.ce := by
      unfold compressorLeft
      simp
    rw [this]
    exact ⟨_, _, rfl⟩
  gone := nofun
  kept _ _ := ⟨rfl, rfl⟩

theorem leftBuffer_stopped (b : Buffer) : leftBuffer true (leftBuffer true b) = leftBuffer true b := by
  unfold leftBuffer
  cases h : b.state <;> simp [h]

/-- One more stream gives up its chunks. -/
theorem GivenUp.more (h : GivenUp lost s v) (i : StreamId) :
    GivenUp (fun j => lost j || decide (j = i)) s (recomputeLimit i (giveUpStream i true v)) := by
  rw [giveUpStream_eq, gaveUp_both, h.compressor]
  refine ⟨?_, fun j hj => ?_, fun j hj => ?_⟩
  · obtain ⟨st, ap, e⟩ := h.rest
    rw [e]
    exact ⟨_, _, rfl⟩
  · by_cases hji : j = i
    · subst hji
      refine (Vector.getElem_set_self j.isLt).trans ?_
      rcases Bool.eq_false_or_eq_true (lost j) with hl | hl
      · rw [h.gone j hl]
        dsimp only
        rw [Vector.map_map]
        exact congrArg (fun f => ({ s.streams[j] with buffers := s.streams[j].buffers.map f } : Stream)) (funext leftBuffer_stopped)
      · rw [(h.kept j hl).1]
    · have hl : lost j = true := by simpa [hji] using hj
      exact (Vector.getElem_set_ne i.isLt j.isLt fun e => hji (Fin.ext e.symm)).trans (h.gone j hl)
  · obtain ⟨hl, hji⟩ : lost j = false ∧ j ≠ i := by simpa using hj
    have hne : i.val ≠ j.val := fun e => hji (Fin.ext e.symm)
    exact ⟨(Vector.getElem_set_ne i.isLt j.isLt hne).trans (h.kept j hl).1,
      (Vector.getElem_set_ne i.isLt j.isLt hne).trans (h.kept j hl).2⟩

theorem GivenUp.jobs (h : GivenUp lost s v) : v.jt = s.jt := by
  obtain ⟨st, ap, e⟩ := h.rest
  rw [e]

/-- The streams of some WRITE jobs give up their chunks, one after another. -/
theorem givenUp_fold (ks : List SlotId) (hk : ∀ k ∈ ks, s.jt.jobs[k].record.kind = .write) (h : GivenUp lost s v) :
    GivenUp (fun i => lost i || ofJobs s ks i) s (ks.foldl (fun s k =>
      let i := s.jt.jobs[k].record.stream
      recomputeLimit i (giveUpStream i true s)) v) := by
  induction ks generalizing lost v with
  | nil =>
    have : (fun i => lost i || ofJobs s [] i) = lost := funext fun i => Bool.or_false _
    rw [this]
    exact h
  | cons k ks ih =>
    have hstep := h.more v.jt.jobs[k].record.stream
    have hlost : (fun i => lost i || ofJobs s (k :: ks) i) =
        fun i => (lost i || decide (i = v.jt.jobs[k].record.stream)) || ofJobs s ks i := by
      funext i
      unfold ofJobs
      rw [List.any_cons, hk k List.mem_cons_self, h.jobs, Bool.or_assoc]
      simp only [decide_true, Bool.true_and, eq_comm]
    rw [hlost]
    exact ih (fun j hj => hk j (List.mem_cons_of_mem _ hj)) hstep

/-- The streams of a lane's WRITE jobs give up their chunks. -/
theorem resetStreams_givenUp (n : LaneId) (s : State) : GivenUp (ofJobs s (s.jobsOnLane n)) s (resetStreams n s) := by
  have h := givenUp_fold (s.writeJobsOnLane n) (fun k hk => (mem_writeJobsOnLane.mp hk).2.2) (givenUp_none s)
  have hlost : (fun i => false || ofJobs s (s.writeJobsOnLane n) i) = ofJobs s (s.jobsOnLane n) := by
    funext i
    unfold ofJobs State.writeJobsOnLane
    rw [Bool.false_or, List.any_filter]
    refine congrArg (List.any (s.jobsOnLane n)) (funext fun k => ?_)
    rw [← Bool.and_assoc, Bool.and_self]
  rw [hlost] at h
  exact h

end GivenUp

end Sys2Proof.Proofs.Resets
end

section
/-! PROOFS. The endings of a reset lane's jobs (R46, R49). -/
namespace Sys2Proof.Proofs.Resets
open Sys2Proof Sys2Proof.Machine Sys2Proof.Safety Sys2Proof.Laws
open Sys2Proof.Proofs.JobEnds Sys2Proof.Proofs.Requests Sys2Proof.Proofs.CutOffs Sys2Proof.Proofs.Framers
open Sys2Proof.Proofs.WriteEnds Sys2Proof.Proofs.Aborts

/-! ## A lane that has nothing left but its jobs -/

/-- The chunks of a stream have been given up: what frees it changes no buffer and no entry. -/
def settled (s : State) (i : StreamId) : Prop :=
  buffersLeft s.streams[i] = s.streams[i].buffers ∧ compressorLeft s (fun j => decide (j = i)) = s.ce

/-- The lane is IDLE, its Framer UNBOUND, and nothing that its jobs' endings do waits. -/
structure Cleared (n : LaneId) (s : State) : Prop where
  lane : idleLane s.lanes[n] = s.lanes[n]
  list : n ∉ s.sc.waitList
  phase : s.framers[n].phase = .unbound
  ring : s.wd.ringAperture[n] = {}
  holding : s.de.holding = []
  operation : unlinked n s.de.operation = s.de.operation
  waiters : s.re.waiters = []

/-- The slot of job `k` is free in `t`. -/
def slotFreed (s : State) (k : SlotId) : JobSlot := { live := false, record := { s.jt.jobs[k].record with state := .free } }

/-- The state `t` once jobs of lane `n` have ended by a LANE_RESET in state `s`. -/
structure JobsEnded (n : LaneId) (ks : List SlotId) (s t : State) : Prop where
  re : t.re = { s.re with backlog := s.re.backlog ++ ks.map fun k => .jobDone k s.jt.jobs[k].record .laneReset }
  jobs : ∀ k, t.jt.jobs[k] = if ks.contains k then slotFreed s k else s.jt.jobs[k]
  held : t.jt.held = s.jt.held
  lanes : t.lanes = s.lanes
  catalog : t.sc.producer = s.sc.producer ∧ t.sc.consumer = s.sc.consumer ∧ n ∉ t.sc.waitList
  framers : t.framers[n].phase = .unbound ∧ ∀ m : LaneId, m ≠ n → t.framers[m] = s.framers[m]
  ring : t.wd.ringAperture[n] = {}
  streams : ∀ i, t.streams[i] = if ofJobs s ks i then { phase := .free, slot := none, buffers := s.streams[i].buffers }
    else s.streams[i]
  apertures : ∀ i, t.wd.streamAperture[i] = if ofJobs s ks i then {} else s.wd.streamAperture[i]
  ce : t.ce = s.ce
  de : t.de = s.de
  rest : t.mem = s.mem ∧ t.cd = s.cd ∧ t.lc = s.lc

section Steps
variable {n : LaneId} {s t u : State} {ks : List SlotId}

theorem settled_congr {i : StreamId} (hb : t.streams[i].buffers = s.streams[i].buffers) (hc : t.ce = s.ce) (h : settled s i) :
    settled t i := by
  unfold settled at h ⊢
  rw [compressorLeft_eq] at h ⊢
  unfold buffersLeft at h ⊢
  rw [hb, hc]
  exact h

theorem JobsEnded.buffers (h : JobsEnded n ks s t) (i : StreamId) : t.streams[i].buffers = s.streams[i].buffers := by
  rw [h.streams i]
  split <;> rfl

theorem JobsEnded.cleared (h : JobsEnded n ks s t) (hs : Cleared n s) : Cleared n t where
  lane := by rw [h.lanes]; exact hs.lane
  list := h.catalog.2.2
  phase := h.framers.1
  ring := h.ring
  holding := by rw [h.de]; exact hs.holding
  operation := by rw [h.de]; exact hs.operation
  waiters := by rw [h.re]; exact hs.waiters

theorem jobsEnded_none (hs : Cleared n s) : JobsEnded n [] s s where
  re := by simp
  jobs _ := rfl
  held := rfl
  lanes := rfl
  catalog := ⟨rfl, rfl, hs.list⟩
  framers := ⟨hs.phase, fun _ _ => rfl⟩
  ring := hs.ring
  streams _ := rfl
  apertures _ := rfl
  ce := rfl
  de := rfl
  rest := ⟨rfl, rfl, rfl⟩

theorem JobsEnded.cons {k : SlotId} (h : JobsEnded n [k] s t) (hks : JobsEnded n ks t u) (hk : k ∉ ks) :
    JobsEnded n (k :: ks) s u := by
  have hother {j : SlotId} (hj : j ∈ ks) : t.jt.jobs[j] = s.jt.jobs[j] := by
    rw [h.jobs j, if_neg]
    intro e
    rw [List.mem_singleton.mp (List.contains_iff_mem.mp e)] at hj
    exact hk hj
  have hof (i : StreamId) : ofJobs s (k :: ks) i = (ofJobs s [k] i || ofJobs t ks i) := by
    unfold ofJobs
    rw [List.any_cons, List.any_cons, List.any_nil, Bool.or_false]
    refine congrArg (decide (s.jt.jobs[k].record.kind = .write) && decide (s.jt.jobs[k].record.stream = i) || ·)
      (Bool.eq_iff_iff.mpr ?_)
    simp only [List.any_eq_true]
    exact exists_congr fun j => and_congr_right fun hj => by rw [hother hj]
  refine ⟨?_, fun j => ?_, hks.held.trans h.held, hks.lanes.trans h.lanes, ?_, ?_, hks.ring, fun i => ?_, fun i => ?_,
    hks.ce.trans h.ce, hks.de.trans h.de, ?_⟩
  · have hmap : ks.map (fun j => Report.jobDone j t.jt.jobs[j].record .laneReset) =
        ks.map fun j => Report.jobDone j s.jt.jobs[j].record .laneReset :=
      List.map_congr_left fun j hj => by rw [hother hj]
    rw [hks.re, h.re, hmap, List.append_assoc]
    rfl
  · rw [hks.jobs j, List.contains_cons]
    by_cases hj : j ∈ ks
    · rw [if_pos (List.contains_iff_mem.mpr hj), if_pos (by rw [List.contains_iff_mem.mpr hj, Bool.or_true])]
      unfold slotFreed
      rw [hother hj]
    · rw [if_neg (mt List.contains_iff_mem.mp hj), h.jobs j]
      have : ks.contains j = false := Bool.not_eq_true _ ▸ mt List.contains_iff_mem.mp hj
      rw [List.contains_cons, this]
      rfl
  · exact ⟨hks.catalog.1.trans h.catalog.1, hks.catalog.2.1.trans h.catalog.2.1, hks.catalog.2.2⟩
  · exact ⟨hks.framers.1, fun m hm => (hks.framers.2 m hm).trans (h.framers.2 m hm)⟩
  · rw [hks.streams, h.buffers, h.streams, hof]
    cases ofJobs s [k] i <;> cases ofJobs t ks i <;> rfl
  · rw [hks.apertures, h.apertures, hof]
    cases ofJobs s [k] i <;> cases ofJobs t ks i <;> rfl
  · exact ⟨hks.rest.1.trans h.rest.1, hks.rest.2.1.trans h.rest.2.1, hks.rest.2.2.trans h.rest.2.2⟩

end Steps

/-! ## One ending -/

theorem slotsFreed_one {s : State} {j k : SlotId} :
    (s.jt.jobs.set k (slotFreed s k))[j] = if [k].contains j then slotFreed s j else s.jt.jobs[j] := by
  by_cases h : j = k
  · subst h
    rw [if_pos (List.contains_iff_mem.mpr List.mem_cons_self)]
    exact Vector.getElem_set_self j.isLt
  · rw [if_neg fun e => h (List.mem_singleton.mp (List.contains_iff_mem.mp e))]
    exact Vector.getElem_set_ne k.isLt j.isLt fun e => h (Fin.ext e.symm)

section One
variable {n : LaneId} {s : State} {k : SlotId} (hs : Cleared n s) (hl : s.jt.jobs[k].live = true)
  (hn : s.jt.jobs[k].record.lane = n) (hroom : s.re.hasRoom = true)
include hs hl hn hroom

/-- A WRITE job ends: its stream is FREE. -/
theorem takeEnding_writing (hk : s.jt.jobs[k].record.kind = .write) (hi : settled s s.jt.jobs[k].record.stream) :
    ∃ t, takeJobSignal (.ending k .laneReset) s = (t, []) ∧ JobsEnded n [k] s t := by
  have hwait : s.waiting (.laneUnit n) = false := by simp [State.waiting, hs.waiters]
  have hrole : s.lanes[n].role ≠ .write := by
    rw [← hs.lane]
    exact nofun
  have hidle : idleTest n (writeEnded s k .laneReset) = writeEnded s k .laneReset := if_neg fun h => hrole h.1
  refine ⟨writeEnded s k .laneReset, ?_, ?_⟩
  · rw [takeEnding_write ⟨hl, hn, hk⟩ hwait hroom, hidle]
  · have hof (i : StreamId) : ofJobs s [k] i = decide (s.jt.jobs[k].record.stream = i) := by
      unfold ofJobs
      rw [List.any_cons, List.any_nil, Bool.or_false, hk]
      rfl
    refine ⟨rfl, fun j => slotsFreed_one, rfl, rfl, ⟨rfl, rfl, hs.list⟩, ⟨hs.phase, fun _ _ => rfl⟩, hs.ring, fun i => ?_,
      fun i => ?_, hi.2, rfl, rfl, rfl, rfl⟩
    · rw [hof]
      by_cases h : s.jt.jobs[k].record.stream = i
      · subst h
        rw [decide_eq_true rfl, if_pos rfl, ← hi.1]
        exact Vector.getElem_set_self (s.jt.jobs[k].record.stream).isLt
      · rw [decide_eq_false h]
        exact Vector.getElem_set_ne (s.jt.jobs[k].record.stream).isLt i.isLt fun e => h (Fin.ext e)
    · rw [hof]
      by_cases h : s.jt.jobs[k].record.stream = i
      · subst h
        rw [decide_eq_true rfl, if_pos rfl]
        exact Vector.getElem_set_self (s.jt.jobs[k].record.stream).isLt
      · rw [decide_eq_false h]
        exact Vector.getElem_set_ne (s.jt.jobs[k].record.stream).isLt i.isLt fun e => h (Fin.ext e)

/-- A VERIFY or RESTORE job ends. -/
theorem takeEnding_readingLane (hk : s.jt.jobs[k].record.kind ≠ .write) :
    ∃ t, takeJobSignal (.ending k .laneReset) s = (t, []) ∧ JobsEnded n [k] s t := by
  have hwait : s.waiting (.framer n) = false := by simp [State.waiting, hs.waiters]
  obtain ⟨w, c, hw, he⟩ := takeEnding_reading .laneReset hl hk hn hwait hroom
  have hof (i : StreamId) : ofJobs s [k] i = false := by
    unfold ofJobs
    rw [List.any_cons, List.any_nil, Bool.or_false, decide_eq_false hk, Bool.false_and]
  refine ⟨_, he, rfl, fun j => slotsFreed_one, rfl, ?_, ⟨rfl, rfl, hw⟩, ⟨?_, fun m hm => ?_⟩, ?_, fun i => ?_,
    fun i => ?_, rfl, ?_, rfl, rfl, rfl⟩
  · unfold readingEnded
    dsimp only
    rw [hs.lane]
    exact Vector.set_getElem_self n.isLt
  · exact congrArg Framer.phase (Vector.getElem_set_self n.isLt)
  · exact Vector.getElem_set_ne n.isLt m.isLt fun e => hm (Fin.ext e.symm)
  · exact Vector.getElem_set_self n.isLt
  · rw [hof]; rfl
  · rw [hof]; rfl
  · unfold readingEnded
    dsimp only
    rw [hs.operation, hs.holding, List.filter_nil, ← hs.holding]

end One

/-! ## All the lane's jobs -/

/-- With room for its report a job of the lane ends. -/
theorem takeEnding_cleared {n : LaneId} {s : State} {k : SlotId} (hs : Cleared n s) (hl : s.jt.jobs[k].live = true)
    (hn : s.jt.jobs[k].record.lane = n) (hroom : s.re.hasRoom = true)
    (hi : s.jt.jobs[k].record.kind = .write → settled s s.jt.jobs[k].record.stream) :
    ∃ t, takeJobSignal (.ending k .laneReset) s = (t, []) ∧ JobsEnded n [k] s t := by
  by_cases hk : s.jt.jobs[k].record.kind = .write
  · exact takeEnding_writing hs hl hn hroom hk (hi hk)
  · exact takeEnding_readingLane hs hl hn hroom hk

theorem JobsEnded.withHeld {n : LaneId} {ks : List SlotId} {s t : State} (h : JobsEnded n ks s t) (xs : List JobSignal) :
    JobsEnded n ks (withHeld xs s) (withHeld xs t) :=
  ⟨h.re, h.jobs, rfl, h.lanes, h.catalog, h.framers, h.ring, h.streams, h.apertures, h.ce, h.de, h.rest⟩

theorem Cleared.withHeld {n : LaneId} {s : State} (h : Cleared n s) (xs : List JobSignal) : Cleared n (withHeld xs s) :=
  ⟨h.lane, h.list, h.phase, h.ring, h.holding, h.operation, h.waiters⟩

theorem JobsEnded.other {n : LaneId} {j k : SlotId} {s t : State} (h : JobsEnded n [k] s t) (hj : j ≠ k) :
    t.jt.jobs[j] = s.jt.jobs[j] :=
  (h.jobs j).trans (if_neg fun e => hj (List.mem_singleton.mp (List.contains_iff_mem.mp e)))

/-- The jobs end in turn, with room for all their reports. -/
theorem takeJobSignals_endings {n : LaneId} (ks : List SlotId) (m : Nat) {s : State} (hm : ks.length ≤ m) (hs : Cleared n s)
    (hlive : ∀ k ∈ ks, s.jt.jobs[k].live = true ∧ s.jt.jobs[k].record.lane = n)
    (hi : ∀ k ∈ ks, s.jt.jobs[k].record.kind = .write → settled s s.jt.jobs[k].record.stream)
    (hd : ks.Nodup) (hres : s.re.reservation = false) (hroom : s.re.backlog.length + ks.length ≤ 64) :
    JobsEnded n ks (withHeld [] s) (takeJobSignals m (withHeld (ks.map fun k => .ending k .laneReset) s)) := by
  induction ks generalizing m s with
  | nil =>
    rw [takeJobSignals_none m _ rfl]
    exact jobsEnded_none (hs.withHeld [])
  | cons k ks ih =>
    obtain ⟨m, rfl⟩ : ∃ p, m = p + 1 := ⟨m - 1, by rw [List.length_cons] at hm; omega⟩
    obtain ⟨hk, hd⟩ := List.nodup_cons.mp hd
    obtain ⟨hl, hn⟩ := hlive k List.mem_cons_self
    rw [List.length_cons] at hm hroom
    obtain ⟨t, ht, he⟩ := takeEnding_cleared (s := JobEnds.withHeld (ks.map fun k => .ending k .laneReset) s)
      (hs.withHeld _) hl hn (by simp [RequestEngine.hasRoom, RequestEngine.used, JobEnds.withHeld, hres, hs.waiters]; omega)
      fun hw => hi k List.mem_cons_self hw
    have hne {j : SlotId} (hj : j ∈ ks) : j ≠ k := fun e => hk (e ▸ hj)
    have hwithHeld : JobEnds.withHeld (ks.map fun k => .ending k .laneReset) t = t := by
      have h : t.jt.held = ks.map fun k => .ending k .laneReset := he.held
      unfold JobEnds.withHeld
      rw [← h]
    rw [List.map_cons, takeJobSignals_cons (u := t) (ys := []) (zs := ks.map fun k => .ending k .laneReset) m
      (by simp [State.waiting, hs.waiters]) (by rw [ht, hwithHeld]), List.nil_append]
    refine (he.withHeld []).cons (ih m (s := t) (by omega) (he.cleared (hs.withHeld _)) (fun j hj => ?_) (fun j hj hw => ?_) hd
      ?_ ?_) hk
    · rw [he.other (hne hj)]
      exact hlive j (List.mem_cons_of_mem _ hj)
    · rw [he.other (hne hj)] at hw ⊢
      exact settled_congr (s := s) (he.buffers _) he.ce (hi j (List.mem_cons_of_mem _ hj) hw)
    · rw [he.re]
      exact hres
    · rw [he.re]
      simp only [List.length_append, List.map_cons, List.map_nil, List.length_cons, List.length_nil]
      exact (Nat.add_right_comm ..).trans_le (by rw [Nat.add_assoc]; exact hroom)

end Sys2Proof.Proofs.Resets
end

section
/-! PROOFS. Settling LANE_RESET (R49, R87, R96, R117). -/
namespace Sys2Proof.Proofs.Resets
open Sys2Proof Sys2Proof.Machine Sys2Proof.Safety Sys2Proof.Laws
open Sys2Proof.Proofs.JobEnds Sys2Proof.Proofs.Requests Sys2Proof.Proofs.CutOffs Sys2Proof.Proofs.Framers
open Sys2Proof.Proofs.WriteEnds Sys2Proof.Proofs.Aborts Sys2Proof.Proofs.Catalog Sys2Proof.Proofs.Decoding

/-! ## The lane and its catalog records (R87, R96) -/

/-- A lane that has been reset, its next group number as given. -/
def resetTo (l : Lane) (g : Word) : Lane := { l with
  role := .idle, full := false, slots := l.slots.map fun _ => .free, nextSlot := 0, position := none
  openedAt := none, packing := none, closePending := none, lastRelease := none, interval := none, heldReads := []
  heldSignals := [], nextGroup := g }

/-- The next group number of a lane that has been reset. -/
def resetGroup (s : State) (n : LaneId) : Word :=
  if s.lanes[n].role = .write then ((s.driveRecord n).map fun c => c.written).getD s.lanes[n].nextGroup else s.lanes[n].nextGroup

section Lane
variable {s : State} {n : LaneId} {l : Layout}

theorem resetLane_eq (hl : s.wd.layout = some l) (hb : catalogBounded s l) : ∃ m w c, n ∉ w
    ∧ recordsSet s l (fun y => if fieldNat y 9 1 = n.val ∧ fieldNat y 11 1 = 1 then some 6 else none) m
    ∧ resetLane n s = { s with
        mem := m
        lanes := s.lanes.set n (resetTo s.lanes[n] (resetGroup s n))
        sc := { s.sc with waitList := w, claims := c } } := by
  unfold resetLane
  dsimp only
  generalize hu : s.modLane n _ = u
  have hul : u.wd.layout = some l := by rw [← hu]; exact hl
  have hub : catalogBounded u l := by rw [← hu]; exact hb
  obtain ⟨m, hm, hset⟩ := catalogSweep_spec (fun r => if recLane r = n.val ∧ recState r = 1 then some .discarded else none) hul hub
  obtain ⟨w, c, -, hleave⟩ := leaveCatalog_eq n { u with mem := m }
  obtain ⟨w', c', hw, hidle⟩ := laneIdle_eq n { u with mem := m, sc := { u.sc with waitList := w, claims := c } }
  refine ⟨m, w', c', hw, ?_, ?_⟩
  · have hf (y : List Byte) : (if recLane y = n.val ∧ recState y = 1 then some RecordState.discarded else none).map
        RecordState.value = if fieldNat y 9 1 = n.val ∧ fieldNat y 11 1 = 1 then some 6 else none :=
      (apply_ite (Option.map RecordState.value) ..).trans rfl
    simp only [hf] at hset
    subst hu
    exact hset
  · unfold discardLane
    rw [hm, hleave, hidle]
    subst hu
    unfold State.modLane resetTo resetGroup idleLane
    simp only [Fin.getElem_fin, Vector.getElem_set_self, Vector.set_set]

/-! ## The reading side (R117) -/

theorem resetReading_eq (hh : s.de.holding = []) : resetReading n s = { s with
    framers := s.framers.set n (unboundFramer s.framers[n])
    wd := { s.wd with ringAperture := s.wd.ringAperture.set n {} }
    de := { s.de with
      queue := s.de.queue.filter fun e => decide (e.lane ≠ n)
      due := s.de.due.filter fun k => decide (s.jt.jobs[k].record.lane ≠ n)
      operation := operationLeft s.de n (fun e => decide (e.lane = n)) fun k => decide (s.jt.jobs[k].record.lane = n) } } := by
  have hop : operationLeft s.de n (fun e => decide (e.lane = n)) (fun k => decide (s.jt.jobs[k].record.lane = n)) =
      (discardDecoding (fun e => decide (e.lane = n)) (fun k => decide (s.jt.jobs[k].record.lane = n))
        { s with de := { s.de with operation := unlinked n s.de.operation } }).de.operation := by
    unfold discardDecoding operationLeft unlinked
    dsimp only
    cases s.de.operation with
    | none => rfl
    | some o =>
      cases o with
      | evaluation k => rfl
      | decode d =>
        by_cases hn : d.entry.lane = n
        · cases hr : d.result <;> simp [hn, hr]
        · simp [hn]
  unfold resetReading
  dsimp only
  rw [freedPlaces_none, unbindFramer_eq, hop]
  · unfold discardDecoding
    simp only [hh, List.filter_nil, decide_not]
  · rw [unbindFramer_eq]
    unfold discardDecoding
    simp only [hh, List.filter_nil]

theorem unlinked_operationLeft (de : DecodeEngine) (entry : DecodeEntry → Bool) (job : SlotId → Bool) :
    unlinked n (operationLeft de n entry job) = operationLeft de n entry job := by
  unfold operationLeft
  cases de.operation with
  | none => rfl
  | some o =>
    cases o with
    | evaluation k => cases h : job k <;> simp [unlinked, h]
    | decode d =>
      by_cases hn : d.entry.lane = n
      · cases he : entry d.entry <;> cases hr : d.result <;> simp [unlinked, he, hr, hn]
      · cases he : entry d.entry <;> cases hr : d.result <;> simp [unlinked, he, hr, hn]

end Lane

/-! ## The reset -/

/-- The lane's streams have given up their chunks, and lane, catalog, Framer and Decode Engine are reset. -/
def resetSides (n : LaneId) (s : State) : State := resetReading n (resetLane n (resetStreams n s))

/-- What LANE_RESET changes before the lane's jobs end. -/
structure SidesReset (n : LaneId) (l : Layout) (s v : State) : Prop where
  jt : v.jt = s.jt
  re : v.re = s.re
  lanes : v.lanes = s.lanes.set n (resetTo s.lanes[n] (resetGroup s n))
  records : recordsSet s l (fun y => if fieldNat y 9 1 = n.val ∧ fieldNat y 11 1 = 1 then some 6 else none) v.mem
  catalog : v.sc.producer = s.sc.producer ∧ v.sc.consumer = s.sc.consumer ∧ n ∉ v.sc.waitList
  framers : v.framers = s.framers.set n (unboundFramer s.framers[n])
  ring : v.wd.ringAperture[n] = {}
  de : v.de = { s.de with
    queue := s.de.queue.filter fun e => decide (e.lane ≠ n)
    due := s.de.due.filter fun k => decide (s.jt.jobs[k].record.lane ≠ n)
    operation := operationLeft s.de n (fun e => decide (e.lane = n)) fun k => decide (s.jt.jobs[k].record.lane = n) }
  ce : v.ce = compressorLeft s (ofJobs s (s.jobsOnLane n))
  gone : ∀ i, ofJobs s (s.jobsOnLane n) i = true →
    settled v i ∧ v.streams[i].buffers = s.streams[i].buffers.map (leftBuffer true)
  kept : ∀ i, ofJobs s (s.jobsOnLane n) i = false →
    v.streams[i] = s.streams[i] ∧ v.wd.streamAperture[i] = s.wd.streamAperture[i]
  rest : v.cd = s.cd ∧ v.lc = s.lc

section Reset
variable {s : State} {n : LaneId} {l : Layout}

theorem GivenUp.settled {lost : StreamId → Bool} {v : State} (h : GivenUp lost s v) {i : StreamId} (hi : lost i = true) :
    settled v i := by
  have hb := congrArg Stream.buffers (h.gone i hi)
  refine ⟨buffersLeft_twice hb, (h.compressor _).trans ?_⟩
  obtain ⟨_, _, e⟩ := h.rest
  have hlost : (fun j => lost j || decide (j = i)) = lost := by
    funext j
    by_cases hj : j = i
    · rw [hj, hi]; rfl
    · rw [decide_eq_false hj, Bool.or_false]
  rw [hlost, e]

theorem resetSides_spec (hl : s.wd.layout = some l) (hb : catalogBounded s l) (hh : s.de.holding = []) :
    SidesReset n l s (resetSides n s) := by
  have hg := resetStreams_givenUp n s
  unfold resetSides
  generalize resetStreams n s = v at hg
  obtain ⟨st, ap, e⟩ := hg.rest
  obtain ⟨m, w, c, hw, hset, hlane⟩ := resetLane_eq (s := v) (n := n) (l := l) (by rw [e]; exact hl) (by rw [e]; exact hb)
  rw [hlane, resetReading_eq (by rw [e]; exact hh)]
  refine ⟨?_, ?_, ?_, ?_, ?_, ?_, ?_, ?_, ?_, fun i hi => ⟨?_, ?_⟩, fun i hi => hg.kept i hi, ?_⟩
  · rw [e]
  · rw [e]
  · rw [e]; rfl
  · subst e; exact hset
  · rw [e]; exact ⟨rfl, rfl, hw⟩
  · rw [e]
  · exact Vector.getElem_set_self n.isLt
  · rw [e]
  · rw [e]
  · exact settled_congr rfl rfl (hg.settled hi)
  · exact congrArg Stream.buffers (hg.gone i hi)
  · rw [e]; exact ⟨rfl, rfl⟩

theorem SidesReset.cleared {v : State} (h : SidesReset n l s v) (hh : s.de.holding = []) (hw : s.re.waiters = []) :
    Cleared n v where
  lane := by
    rw [h.lanes]
    unfold resetTo
    simp only [Fin.getElem_fin, Vector.getElem_set_self]
    rfl
  list := h.catalog.2.2
  phase := by rw [h.framers]; exact congrArg Framer.phase (Vector.getElem_set_self n.isLt)
  ring := h.ring
  holding := by rw [h.de]; exact hh
  operation := by
    have e := congrArg DecodeEngine.operation h.de
    dsimp only at e
    rw [e, unlinked_operationLeft]
  waiters := by rw [h.re]; exact hw

theorem laneReset_eq : laneReset n s = jobSignals ((s.jobsOnLane n).map fun k => .ending k .laneReset) (resetSides n s) := rfl

end Reset

theorem leftBuffer_both (b : Buffer) :
    leftBuffer true b = (fun b : Buffer => if b.state = .packing then {} else b) (leftBuffer false b) := by
  unfold leftBuffer
  cases h : b.state <;> simp [h]

theorem jobsOnLane_nodup (s : State) (n : LaneId) : (s.jobsOnLane n).Nodup := by
  unfold State.jobsOnLane finFilter
  exact (List.nodup_finRange 8).filter _

theorem mem_jobsOnLane {s : State} {n : LaneId} {k : SlotId} :
    k ∈ s.jobsOnLane n ↔ s.jt.jobs[k].live = true ∧ s.jt.jobs[k].record.lane = n := by
  unfold State.jobsOnLane finFilter
  simp

/-- The lane is reset, and then its jobs end. -/
theorem laneReset_ends {s : State} {n : LaneId} {l : Layout} (hfree : jobTableFree s) (hl : s.wd.layout = some l)
    (hb : catalogBounded s l) (hh : s.de.holding = []) (hw : s.re.waiters = []) (hres : s.re.reservation = false)
    (hroom : s.re.backlog.length + 8 ≤ 64) :
    ∃ v, SidesReset n l s v ∧ JobsEnded n (s.jobsOnLane n) v (laneReset n s) := by
  have hs := resetSides_spec (n := n) hl hb hh
  refine ⟨resetSides n s, hs, ?_⟩
  rw [laneReset_eq]
  generalize resetSides n s = v at hs
  have hheld : v.jt.held = [] := by rw [hs.jt]; exact hfree.2
  have hfuel : jobSignals ((s.jobsOnLane n).map fun k => .ending k .laneReset) v =
      takeJobSignals (20 * (s.jobsOnLane n).length) (withHeld ((s.jobsOnLane n).map fun k => .ending k .laneReset) v) := by
    unfold jobSignals State.jobFuel
    simp only [hheld, List.nil_append, List.length_map]
    rfl
  have hlen : (s.jobsOnLane n).length ≤ 8 := by
    unfold State.jobsOnLane finFilter
    exact (List.length_filter_le _ _).trans (List.length_finRange).le
  have hend := takeJobSignals_endings (s.jobsOnLane n) (20 * (s.jobsOnLane n).length) (s := v) (by omega) (hs.cleared hh hw)
    (fun k hk => by rw [hs.jt]; exact mem_jobsOnLane.mp hk)
    (fun k hk hkind => ?_) (jobsOnLane_nodup s n) (by rw [hs.re]; exact hres) (by rw [hs.re]; omega)
  · rw [withHeld_none hheld] at hend
    rw [hfuel]
    exact hend
  · rw [hs.jt] at hkind ⊢
    refine (hs.gone _ (List.any_eq_true.mpr ⟨k, hk, ?_⟩)).1
    rw [hkind, decide_eq_true rfl, decide_eq_true rfl]
    rfl

/-- What LANE_RESET leaves, said of the state before it. -/
def resetOutcome (n : LaneId) (l : Layout) (s t : State) : Prop :=
  t.lanes[n] = resetTo s.lanes[n] t.lanes[n].nextGroup
  ∧ (s.lanes[n].role ≠ .write → t.lanes[n].nextGroup = s.lanes[n].nextGroup)
  ∧ (∀ (c : CartId) (x : CartRecord), s.lanes[n].role = .write → s.cd.places[drivePlace n].state = .occupied c →
      s.cd.records[c] = some x → t.lanes[n].nextGroup = x.written)
  ∧ (∀ m : LaneId, m ≠ n → t.lanes[m] = s.lanes[m])
  ∧ recordsSet s l (fun y => if fieldNat y 9 1 = n.val ∧ fieldNat y 11 1 = 1 then some 6 else none) t.mem
  ∧ t.framers[n].phase = .unbound ∧ t.wd.ringAperture[n] = {} ∧ (∀ m : LaneId, m ≠ n → t.framers[m] = s.framers[m])
  ∧ t.de = { s.de with
      queue := s.de.queue.filter fun e => decide (e.lane ≠ n)
      due := s.de.due.filter fun k => decide (s.jt.jobs[k].record.lane ≠ n)
      operation := operationLeft s.de n (fun e => decide (e.lane = n)) fun k => decide (s.jt.jobs[k].record.lane = n) }
  ∧ (∀ i : StreamId,
      (ofJobs s (s.jobsOnLane n) i = true → t.wd.streamAperture[i] = {} ∧ t.streams[i] = {
        phase := .free, slot := none
        buffers := (buffersLeft s.streams[i]).map fun b => if b.state = .packing then {} else b })
      ∧ (ofJobs s (s.jobsOnLane n) i = false →
        t.wd.streamAperture[i] = s.wd.streamAperture[i] ∧ t.streams[i] = s.streams[i]))
  ∧ t.ce = compressorLeft s (ofJobs s (s.jobsOnLane n))
  ∧ (∀ k : SlotId, t.jt.jobs[k] = if (s.jobsOnLane n).contains k then slotFreed s k else s.jt.jobs[k])
  ∧ t.re.backlog = s.re.backlog ++ ((s.jobsOnLane n).map fun k => Report.jobDone k s.jt.jobs[k].record .laneReset)
  ∧ t.sc.producer = s.sc.producer ∧ t.sc.consumer = s.sc.consumer ∧ n ∉ t.sc.waitList
  ∧ t.cd = s.cd ∧ t.lc = s.lc

theorem resetOutcome_of {s v t : State} {n : LaneId} {l : Layout} (hs : SidesReset n l s v)
    (he : JobsEnded n (s.jobsOnLane n) v t) : resetOutcome n l s t := by
  have hlane : t.lanes[n] = resetTo s.lanes[n] (resetGroup s n) := by
    rw [he.lanes, hs.lanes]
    exact Vector.getElem_set_self n.isLt
  have hgroup : t.lanes[n].nextGroup = resetGroup s n := by rw [hlane]; rfl
  have hof : ofJobs v (s.jobsOnLane n) = ofJobs s (s.jobsOnLane n) := by
    unfold ofJobs
    rw [hs.jt]
  have hne {m : LaneId} (hm : m ≠ n) : n.val ≠ m.val := fun e => hm (Fin.ext e.symm)
  refine ⟨by rw [hgroup, hlane], fun hrole => ?_, fun c x hrole hocc hcart => ?_, fun m hm => ?_, ?_, he.framers.1, he.ring,
    fun m hm => ?_, he.de.trans hs.de, fun i => ⟨fun hi => ⟨?_, ?_⟩, fun hi => ⟨?_, ?_⟩⟩, he.ce.trans hs.ce, fun k => ?_, ?_,
    he.catalog.1.trans hs.catalog.1, he.catalog.2.1.trans hs.catalog.2.1, he.catalog.2.2, he.rest.2.1.trans hs.rest.1,
    he.rest.2.2.trans hs.rest.2⟩
  · rw [hgroup]
    exact if_neg hrole
  · rw [hgroup]
    refine (if_pos hrole).trans ?_
    unfold State.driveRecord State.driveCart
    rw [hocc]
    exact congrArg (fun y => (Option.map (fun c => CartRecord.written c) y).getD _) hcart
  · rw [he.lanes, hs.lanes]
    exact Vector.getElem_set_ne n.isLt m.isLt (hne hm)
  · rw [he.rest.1]
    exact hs.records
  · rw [he.framers.2 m hm, hs.framers]
    exact Vector.getElem_set_ne n.isLt m.isLt (hne hm)
  · rw [he.apertures, hof, hi]
    rfl
  · have hbuf : (buffersLeft s.streams[i]).map (fun b : Buffer => if b.state = .packing then {} else b) =
        s.streams[i].buffers.map (leftBuffer true) := by
      rw [buffersLeft_eq, Vector.map_map]
      exact congrArg (fun f => s.streams[i].buffers.map f) (funext fun b => (leftBuffer_both b).symm)
    rw [he.streams, hof, hi, hbuf, ← (hs.gone i hi).2]
    rfl
  · rw [he.apertures, hof, hi]
    exact (hs.kept i hi).2
  · rw [he.streams, hof, hi]
    exact (hs.kept i hi).1
  · rw [he.jobs k]
    unfold slotFreed
    rw [hs.jt]
  · rw [he.re, hs.re, hs.jt]

/-- Settles O35. -/
theorem laneResets : Obligations.LaneResets := by
  intro s r n l h hlane hfree hwl hwf hl hb hroom hh jobs ended
  obtain ⟨hbyte, hdrive⟩ := hlane
  have hn : laneOf (argByte r 4) = n := by rw [hbyte, laneOf_val]
  have hp : s.preCheck .laneReset r = true := by
    simp [State.preCheck, RequestKind.namesLane, RequestKind.namesTag, recordLane, hbyte, hdrive]
  obtain ⟨b, hx⟩ := request_laneReset h hp (by
    simp only [State.ownerReady, hn, hfree.1, hwl, hwf, Bool.not_false, Bool.and_self])
  rw [hn] at hx
  obtain ⟨v, hs, he⟩ := laneReset_ends (s := answered .done r s) (n := n) (l := l) hfree hl hb hh hroom.1 rfl (by
    have := hroom.2
    simp only [answered, List.length_append, List.length_cons, List.length_nil]
    omega)
  have hout := resetOutcome_of hs he
  generalize laneReset n (answered .done r s) = t at hx hout
  exact ⟨_, hx, hout⟩

end Sys2Proof.Proofs.Resets
end

section
/-! PROOFS. Orders (10.2): the places an order names, its pending-order fields, and the refusals of R152 read as a table. -/
namespace Sys2Proof.Proofs.Orders
open Sys2Proof Sys2Proof.Machine Sys2Proof.Safety Sys2Proof.Laws
open Sys2Proof.Proofs.Requests Sys2Proof.Proofs.Places

/-! ## The places an order names -/

theorem doorOf_eq_iff {p : PlaceId} {d : Door} : doorOf p = some d ↔ behind d p := by
  unfold doorOf behind
  split
  · next h => cases d <;> simp [h]
  · split
    · next h => cases d <;> simp <;> omega
    · split
      · next h => cases d <;> simp <;> omega
      · next h => cases d <;> simp <;> omega

theorem mem_scopePlaces {drives : Nat} {sc : Scope} {p : PlaceId} : p ∈ scopePlaces drives sc ↔ match sc with
    | .a => 5 ≤ p.val ∧ p.val ≤ 16
    | .b => 17 ≤ p.val ∧ p.val ≤ 28
    | .mail => p.val = 4
    | .drives => p.val < drives ∧ p.val < 4 := by
  unfold scopePlaces
  rw [List.mem_filter]
  cases sc <;> simp [doorOf_eq_iff, behind]

section Names
variable {s : State} {o : Order} {p : PlaceId}

theorem mem_orderPlaces (h : orderFormed o) : p ∈ s.orderPlaces o ↔ orderNames s o p := by
  obtain ⟨hkind, hsource⟩ := h
  unfold State.orderPlaces orderNames
  cases hs : o.scope with
  | none => simp [Option.mem_toList]
  | some sc =>
    obtain ⟨h1, h2⟩ := hsource (hkind.mpr (by simp [hs]))
    rw [h1, h2, mem_scopePlaces]
    cases sc <;> simp

/-- The order names the same places whatever its activity. -/
theorem orderNames_active (b : Bool) : orderNames s { o with active := b } p ↔ orderNames s o p := Iff.rfl

theorem orderFormed_active (b : Bool) : orderFormed { o with active := b } ↔ orderFormed o := Iff.rfl

end Names

/-! ## Pending-order fields -/

/-- The places of a list with a pending-order field. -/
def pendingOn (tag : Option Byte) (ps : List PlaceId) (v : Vector PlaceRecord 30) : Vector PlaceRecord 30 :=
  ps.foldl (fun v (p : PlaceId) => v.set p { v[p] with pending := tag }) v

theorem pendingOn_get {tag : Option Byte} {ps : List PlaceId} {v : Vector PlaceRecord 30} (p : PlaceId) :
    (p ∈ ps → (pendingOn tag ps v)[p] = { v[p] with pending := tag }) ∧ (p ∉ ps → (pendingOn tag ps v)[p] = v[p]) := by
  induction ps generalizing v with
  | nil => exact ⟨nofun, fun _ => rfl⟩
  | cons q ps ih =>
    obtain ⟨hin, hout⟩ := ih (v := v.set q { v[q] with pending := tag })
    have hset (h : p ≠ q) : (v.set q { v[q] with pending := tag })[p] = v[p] :=
      Vector.getElem_set_ne q.isLt p.isLt fun e => h (Fin.ext e.symm)
    refine ⟨fun hm => ?_, fun hm => ?_⟩
    · by_cases hp : p ∈ ps
      · refine (hin hp).trans ?_
        by_cases hq : p = q
        · subst hq
          rw [show (v.set p { v[p] with pending := tag })[p] = { v[p] with pending := tag } from Vector.getElem_set_self p.isLt]
        · rw [hset hq]
      · have hq : p = q := (List.mem_cons.mp hm).resolve_right hp
        subst hq
        exact (hout hp).trans (Vector.getElem_set_self p.isLt)
    · obtain ⟨hq, hp⟩ := not_or.mp (mt List.mem_cons.mpr hm)
      exact (hout hp).trans (hset hq)

theorem setPending_fold (tag : Option Byte) (ps : List PlaceId) (s : State) :
    ps.foldl (fun s p => setPending p tag s) s = { s with cd := { s.cd with places := pendingOn tag ps s.cd.places } } := by
  induction ps generalizing s with
  | nil => rfl
  | cons q ps ih =>
    rw [List.foldl_cons, ih]
    rfl

theorem pendingOn_pendingSet {s : State} {o : Order} (h : orderFormed o) (tag : Option Byte) :
    pendingSet s o tag (pendingOn tag (s.orderPlaces o) s.cd.places) := by
  intro p
  obtain ⟨hin, hout⟩ := pendingOn_get (tag := tag) (ps := s.orderPlaces o) (v := s.cd.places) p
  exact ⟨fun hn => hin ((mem_orderPlaces h).mpr hn), fun hn => hout (mt (mem_orderPlaces h).mp hn)⟩

/-! ## Tables of refusals, where no refusal is an answer -/

/-- A check answers the first code of a table whose condition holds, and nothing when none holds. -/
def Tabled (x : Option Code) (table : List (Prop × Code)) : Prop :=
  (∀ code, firstHolds code table → x = some code) ∧ (noneHolds table → x = none)

theorem tabled_nil : Tabled none [] := ⟨fun _ h => h.elim, fun _ => rfl⟩

theorem tabled_cons {x : Option Code} {p : Prop} {b : Prop} [Decidable b] {c : Code} {table : List (Prop × Code)} (hb : b ↔ p)
    (h : Tabled x table) : Tabled (if b then some c else x) ((p, c) :: table) := by
  refine ⟨fun code hf => ?_, fun hn => ?_⟩
  · rcases hf with ⟨hp, rfl⟩ | ⟨hp, ht⟩
    · exact if_pos (hb.mpr hp)
    · exact (if_neg (mt hb.mp hp)).trans (h.1 code ht)
  · exact (if_neg (mt hb.mp hn.1)).trans (h.2 hn.2)

theorem tabled_or {x y : Option Code} {xs ys : List (Prop × Code)} (hx : Tabled x xs) (hy : Tabled y ys) :
    Tabled (x.or y) (xs ++ ys) := by
  refine ⟨fun code h => ?_, fun h => ?_⟩
  · rcases firstHolds_append.mp h with h | ⟨hn, h⟩
    · rw [hx.1 code h]; rfl
    · rw [hx.2 hn, hy.1 code h]; rfl
  · obtain ⟨h1, h2⟩ := noneHolds_append.mp h
    rw [hx.2 h1, hy.2 h2]
    rfl

/-! ## The checks of R152 -/

section Checks
variable {s : State} {o : Order}

theorem latched_iff {p : PlaceId} : s.latched p = true ↔ latchSet s p := by
  unfold State.latched latchSet
  cases h : doorOf p with
  | none =>
    have hno : ∀ d, ¬ behind d p := fun d hd => by rw [doorOf_eq_iff.mpr hd] at h; cases h
    have ha := hno .a
    have hb := hno .b
    have hm := hno .mail
    simp only [behind] at ha hb hm
    simp only [Option.any_none, Bool.false_eq_true, false_iff]
    omega
  | some d =>
    have hd := doorOf_eq_iff.mp h
    have hlt := p.isLt
    rw [Option.any_some]
    cases d <;> simp only [behind] at hd <;> unfold Directory.door <;> dsimp only
    · exact ⟨fun hl => .inr (.inl ⟨hd.1, hd.2, hl⟩), by rintro (⟨_, _⟩ | ⟨_, _, hl⟩ | ⟨_, _, _⟩) <;> first | exact hl | omega⟩
    · exact ⟨fun hl => .inr (.inr ⟨hd.1, hd.2, hl⟩), by rintro (⟨_, _⟩ | ⟨_, _, _⟩ | ⟨_, _, hl⟩) <;> first | exact hl | omega⟩
    · exact ⟨fun hl => .inl ⟨hd, hl⟩, by rintro (⟨_, hl⟩ | ⟨_, _, _⟩ | ⟨_, _, _⟩) <;> first | exact hl | omega⟩

theorem placeRecord_eq {p : PlaceId} {c : CartId} (h : s.cd.places[p].state = .occupied c) : s.placeRecord p = s.cd.records[c] := by
  unfold State.placeRecord State.placeState
  rw [h]

theorem placeRecord_free {p : PlaceId} (h : ∀ c, s.cd.places[p].state ≠ .occupied c) : s.placeRecord p = none := by
  unfold State.placeRecord State.placeState
  split
  · next c hc => exact absurd hc (h c)
  · rfl

theorem placeRecord_isSome {p : PlaceId} :
    (s.placeRecord p).isSome = true ↔ ∃ c x, s.cd.places[p].state = .occupied c ∧ s.cd.records[c] = some x := by
  cases h : s.cd.places[p].state with
  | occupied c =>
    rw [placeRecord_eq h, Option.isSome_iff_exists]
    exact ⟨fun ⟨x, hx⟩ => ⟨c, x, rfl, hx⟩, fun ⟨_, x, hc, hx⟩ => by cases hc; exact ⟨x, hx⟩⟩
  | empty => simp [placeRecord_free (s := s) (p := p) (fun c => by rw [h]; exact nofun)]
  | unknown => simp [placeRecord_free (s := s) (p := p) (fun c => by rw [h]; exact nofun)]

theorem orderRefusal_tabled (h : orderFormed o) (own : Option Byte) : Tabled (s.orderRefusal o own) (placeRefusals s o own) := by
  have hplace (p : PlaceId) : p ∈ s.orderPlaces o ↔ orderNames s o p := mem_orderPlaces h
  unfold State.orderRefusal placeRefusals
  dsimp only
  refine tabled_cons ?_ (tabled_cons ?_ (tabled_cons ?_ (tabled_cons ?_ (tabled_cons ?_ (tabled_cons ?_ tabled_nil)))))
  · simp only [List.any_eq_true, hplace, Option.any_eq_true, decide_eq_true_eq]
    exact ⟨fun ⟨p, hp, t, ht, hne⟩ => ⟨p, t, hp, ht, hne⟩, fun ⟨p, t, hp, ht, hne⟩ => ⟨p, hp, t, ht, hne⟩⟩
  · simp only [List.any_eq_true, List.mem_finRange, true_and, Bool.and_eq_true, List.contains_iff_mem, hplace, decide_eq_true_eq]
  · refine and_congr_right fun hk => ?_
    simp only [List.any_eq_true, Bool.or_eq_true, decide_eq_true_eq, latched_iff]
    have hnone : o.scope = none := by_contra fun hs => hk (h.1.mpr hs)
    have hnames (p : PlaceId) : p ∈ o.source.toList ++ o.target.toList ↔ orderNames s o p := by
      rw [← hplace p]
      unfold State.orderPlaces
      rw [hnone]
    simp only [hnames]
    rfl
  · simp only [Option.any_eq_true, decide_eq_true_eq]
    rfl
  · simp only [Option.any_eq_true, placeRecord_isSome]
    exact ⟨fun ⟨p, ht, c, x, hc, hx⟩ => ⟨p, c, x, ht, hc, hx⟩, fun ⟨p, c, x, ht, hc, hx⟩ => ⟨p, ht, c, x, hc, hx⟩⟩
  · cases hs : o.scope with
    | none => simp
    | some sc => cases sc <;> simp [scopeDoor, Directory.door]

theorem loadRefusal_tabled : Tabled (s.loadRefusal o) (loadRefusals s o) := by
  cases hs : s.placeState pickerPlace with
  | occupied c =>
    have hp : pickerLoaded s := ⟨c, hs⟩
    cases hk : o.kind <;> simp [State.loadRefusal, loadRefusals, Tabled, firstHolds, noneHolds, hs, hk, hp]
  | empty =>
    have hp : ¬ pickerLoaded s := fun ⟨c, hc⟩ => nomatch hs.symm.trans hc
    cases hk : o.kind <;> simp [State.loadRefusal, loadRefusals, Tabled, firstHolds, noneHolds, hs, hk, hp]
  | unknown =>
    have hp : ¬ pickerLoaded s := fun ⟨c, hc⟩ => nomatch hs.symm.trans hc
    cases hk : o.kind <;> simp [State.loadRefusal, loadRefusals, Tabled, firstHolds, noneHolds, hs, hk, hp]

end Checks

end Sys2Proof.Proofs.Orders
end

section
/-! PROOFS. The Loader Controller's own operations (10): posts, the end of an order, gripper steps and travels. -/
namespace Sys2Proof.Proofs.Orders
open Sys2Proof Sys2Proof.Machine Sys2Proof.Safety Sys2Proof.Laws
open Sys2Proof.Proofs.Requests Sys2Proof.Proofs.Places

/-! ## Posts (R153, R163) -/

theorem drainPosts_joins (rs : List Report) {s : State} (hp : s.lc.posts = rs) (hw : s.waiting .loader = false)
    (hroom : s.re.used + s.re.waiters.length + rs.length ≤ 64) :
    drainPosts rs.length s = { s with lc := { s.lc with posts := [] }, re := { s.re with backlog := s.re.backlog ++ rs } } := by
  induction rs generalizing s with
  | nil =>
    rw [List.append_nil]
    exact congrArg (fun x => ({ s with lc := { s.lc with posts := x } } : State)) hp
  | cons r rs ih =>
    rw [List.length_cons] at hroom ⊢
    have hpost : post .loader r { s with lc := { s.lc with posts := rs } } =
        { s with lc := { s.lc with posts := rs }, re := { s.re with backlog := s.re.backlog ++ [r] } } :=
      if_pos (decide_eq_true (show s.re.used + s.re.waiters.length < 64 by omega))
    have hstep : drainPosts (rs.length + 1) s = drainPosts rs.length (post .loader r { s with lc := { s.lc with posts := rs } }) := by
      conv_lhs => unfold drainPosts
      rw [hw, hp]
      rfl
    rw [hstep, hpost, ih (s := { s with
      lc := { s.lc with posts := rs }, re := { s.re with backlog := s.re.backlog ++ [r] } }) rfl hw (by
        unfold RequestEngine.used at hroom ⊢
        dsimp only
        rw [List.length_append, List.length_singleton]
        omega)]
    simp only [List.append_assoc, List.singleton_append]

/-- The loader's reports join, with room for all of them. -/
theorem loaderPost_joins (rs : List Report) {s : State} (hf : loaderFree s)
    (hroom : s.re.used + s.re.waiters.length + rs.length ≤ 64) :
    loaderPost rs s = { s with re := { s.re with backlog := s.re.backlog ++ rs } } := by
  obtain ⟨hw, hp⟩ := hf
  have hposts : loaderPost rs s = drainPosts rs.length { s with lc := { s.lc with posts := rs } } := by
    unfold loaderPost
    simp only [hp, List.nil_append]
  rw [hposts, drainPosts_joins rs (s := { s with lc := { s.lc with posts := rs } }) rfl hw hroom]
  exact congrArg (fun x => ({ s with lc := { s.lc with posts := x }, re := _ } : State)) hp.symm

theorem loaderPost_one (r : Report) {s : State} (hf : loaderFree s) (hroom : s.re.hasRoom = true) :
    loaderPost [r] s = { s with re := { s.re with backlog := s.re.backlog ++ [r] } } := by
  refine loaderPost_joins [r] hf ?_
  have : s.re.used + s.re.waiters.length < 64 := of_decide_eq_true hroom
  rw [List.length_singleton]
  omega

/-! ## The end of an order (R153) -/

/-- The loader once the order at the head of its queue has ended. -/
def endedLoader (l : Loader) (rest : List Order) (outcome : OrderOutcome) (state : LoaderState) (station : Option Int) : Loader :=
  { l.quiet with
    state := state, station := station, queue := rest, step := none, travelCount := 0
    outputs := if outcome = .done then { l.outputs with motorRun := false } else l.outputs.safe }

/-- The state once the order at the head of the queue has ended. -/
def endedState (s : State) (o : Order) (rest : List Order) (outcome : OrderOutcome) (state : LoaderState)
    (station : Option Int) : State := { s with
  cd := { s.cd with
    places := pendingOn none (s.orderPlaces o) s.cd.places
    held := s.cd.held.filter fun x => match x with | .label _ _ => false | .edge _ => true }
  lc := endedLoader s.lc rest outcome state station
  re := { s.re with backlog := s.re.backlog ++ [.orderDone o.tag o.kind outcome (s.lc.step.map fun x => x.kind)
    (s.lc.step.map fun x => x.station) state station] } }

section Ends
variable {s : State} {o : Order} {rest : List Order} {outcome : OrderOutcome} {state : LoaderState} {station : Option Int}

theorem endOrder_eq (hq : s.lc.queue = o :: rest) (hf : loaderFree s) (hroom : s.re.hasRoom = true) :
    endOrder outcome state station s = endedState s o rest outcome state station := by
  unfold endOrder
  split
  next h => cases h.symm.trans hq
  next o' rest' h =>
    cases h.symm.trans hq
    dsimp only
    unfold clearPending
    rw [setPending_fold]
    exact loaderPost_one _ hf hroom

theorem quiet_loaderQuiet (l : Loader) (f : Loader → Loader) (hm : (f l.quiet).markTimer = none) (hs : (f l.quiet).stepTimer = none)
    (hr : (f l.quiet).retryTimer = none) (ht : (f l.quiet).travelCount = 0) (he : (f l.quiet).exchange = l.quiet.exchange)
    (hx : (f l.quiet).exchanging = l.quiet.exchanging) (ha : (f l.quiet).attempt = l.quiet.attempt)
    (hb : (f l.quiet).received = l.quiet.received) : loaderQuiet l (f l.quiet) := by
  refine ⟨hm, hs, hr, ht, ?_⟩
  rw [he, hx, ha, hb]
  rcases quiet_link l with ⟨h0, h1, h2, h3, h4⟩ | ⟨e, h0, h1, h2, -, -⟩
  · rw [h0]; exact ⟨h1, h2, h3, h4⟩
  · rw [h0]; exact ⟨h1, h2⟩

theorem endedLoader_quiet (l : Loader) : loaderQuiet l (endedLoader l rest outcome state station) :=
  quiet_loaderQuiet l (fun q => { q with
    state := state, station := station, queue := rest, step := none, travelCount := 0
    outputs := if outcome = .done then { l.outputs with motorRun := false } else l.outputs.safe }) rfl rfl rfl rfl rfl rfl rfl rfl

theorem endedState_orderEnded (ho : orderFormed o) (b : Bool) :
    orderEnded s (withStale b (endedState s o rest outcome state station)) o rest outcome state station := by
  refine ⟨pendingOn_pendingSet ho none, rfl, rfl, rfl, rfl, rfl, endedLoader_quiet s.lc, ?_, fun hne => ?_, rfl, rfl, rfl, rfl, rfl,
    rfl, rfl, rfl, rfl, rfl⟩
  · unfold withStale endedState endedLoader
    dsimp only
    split <;> rfl
  · exact if_neg hne

end Ends

/-! ## Gripper steps and travels (R149, R155, R156) -/

theorem gripperStep_waits {part : StepPart} {f : State → State} {s : State} (h : stepInput s.lc.lines part = false) :
    gripperStep part f s = { s with lc := { s.lc with
      outputs := s.lc.outputs.drive part
      step := s.lc.step.map fun x => { x with part := part }
      stepTimer := some (s.startTimer s.re.loaderSettings.stepTimeout) } } :=
  if_neg (Bool.not_eq_true _ ▸ h)

theorem beginMotion_eq {s : State} {p : PlaceId} {i : Int} (h : s.lc.station = some i) :
    beginMotion (placeStation p) s = { s with lc := travelBegun s i p } := by
  unfold beginMotion travelBegun
  dsimp only
  cases hr : s.lc.lines.retracted with
  | true =>
    unfold startRail
    dsimp only
    rw [h]
    rfl
  | false =>
    exact gripperStep_waits (part := .retractFirst) (f := startRail (placeStation p)) (s := { s with lc := { s.lc with
      step := some { kind := .travel, station := placeStation p, part := .moving } } }) hr

theorem startTravel_eq {s : State} {p : PlaceId} {i : Int} (h : s.lc.station = some i) (hne : i ≠ p.val) :
    startTravel (placeStation p) s = { s with lc := travelBegun s i p } := by
  rw [← beginMotion_eq h]
  exact if_neg fun e => hne (Option.some.inj (h.symm.trans e))

theorem activeOrder_eq {s : State} {o : Order} {rest : List Order} (h : s.lc.queue = o :: rest) (ha : o.active = true) :
    s.activeOrder = some o := by
  unfold State.activeOrder
  rw [h]
  exact if_pos ha

theorem head?_filter_finRange {n : Nat} {q : Fin n → Bool} {p : Fin n} (hp : p ∈ (List.finRange n).filter q)
    (hfirst : ∀ x ∈ (List.finRange n).filter q, p.val ≤ x.val) : ((List.finRange n).filter q).head? = some p := by
  refine finFilter_head?_eq_some.mpr ⟨(List.mem_filter.mp hp).2, fun j hj => Bool.not_eq_true _ ▸ fun hq => ?_⟩
  have := hfirst j (List.mem_filter.mpr ⟨List.mem_finRange j, hq⟩)
  omega

theorem firstStation_eq {s : State} {o : Order} {p : PlaceId} (ho : orderFormed o) (h : firstPlace s o p) :
    s.firstStation o = placeStation p := by
  unfold State.firstStation
  unfold firstPlace at h
  cases hs : o.scope with
  | none =>
    rw [hs] at h
    dsimp only at h ⊢
    rcases h with h | ⟨h1, h2⟩
    · rw [h]; rfl
    · rw [h1, h2]; rfl
  | some sc =>
    rw [hs] at h
    obtain ⟨hp, hfirst⟩ := h
    have hmem (q : PlaceId) : q ∈ scopePlaces s.driveCount sc ↔ orderNames s o q := by
      rw [← mem_orderPlaces ho]
      unfold State.orderPlaces
      rw [hs]
    have hhead : (scopePlaces s.driveCount sc).head? = some p :=
      head?_filter_finRange ((hmem p).mpr hp) fun q hq => hfirst q ((hmem q).mp hq)
    dsimp only
    cases hl : scopePlaces s.driveCount sc with
    | nil => rw [hl] at hhead; cases hhead
    | cons q qs =>
      rw [hl] at hhead
      cases hhead
      rfl

end Sys2Proof.Proofs.Orders
end

section
/-! PROOFS. Settling ORDER_ACTIVATE (R153 to R155). -/
namespace Sys2Proof.Proofs.Orders
open Sys2Proof Sys2Proof.Machine Sys2Proof.Safety Sys2Proof.Laws
open Sys2Proof.Proofs.Requests

section Activates
variable {s : State} {o : Order} {rest : List Order}

/-- Homing, from a retracted gripper away from home (R154). -/
def homingBegun (s : State) (rest : List Order) : Loader := { s.lc with
  queue := rest, state := .homing, travelCount := 0
  step := some { kind := .homing, station := -1, part := .moving }
  outputs := { s.lc.outputs with motorRun := true, towardHome := true }
  markTimer := some { started := s.timebase, length := s.re.loaderSettings.markTimeout * 1000 } }

theorem activateOrder_idle (h1 : s.lc.state ≠ .idle) (h2 : s.lc.state ≠ .unhomed) : activateOrder s = s := by
  refine if_neg fun h => ?_
  unfold State.canActivate at h
  rw [Bool.and_eq_true, Bool.and_eq_true] at h
  exact (of_decide_eq_true h.1.1).elim h1 h2

theorem refusals_tabled (ho : orderFormed o) : Tabled ((s.orderRefusal o (some o.tag)).or (s.loadRefusal o))
    (placeRefusals s o (some o.tag) ++ loadRefusals s o) :=
  tabled_or (orderRefusal_tabled ho _) loadRefusal_tabled

theorem startHoming_eq (hr : s.lc.lines.retracted = true) (hh : s.lc.lines.home = false) :
    startHoming s = { s with lc := homingBegun s s.lc.queue } := by
  have hn : ¬ s.lc.lines.home = true := by rw [hh]; decide
  unfold startHoming
  dsimp only
  exact (if_pos hr).trans (if_neg hn)

variable (hst : s.lc.state = .idle ∨ s.lc.state = .unhomed) (hf : loaderFree s) (hq : s.lc.queue = o :: rest)
  (ha : o.active = false)
include hst hf hq ha

theorem canActivate_head : s.canActivate = true := by
  unfold State.canActivate
  rw [ownerReady_loader hf, hq, decide_eq_true hst, List.head?_cons, Option.any_some, ha]
  rfl

/-- A head order that is re-validated goes on as its loader does. -/
theorem activateOrder_eq : activateOrder s = match (s.orderRefusal o (some o.tag)).or (s.loadRefusal o) with
    | some c => endOrder (.refused c) s.lc.state s.lc.station s
    | none =>
      if s.lc.state = .unhomed then startHoming { s with lc := { s.lc with queue := { o with active := true } :: rest } }
      else beginSteps { s with lc := { s.lc with queue := { o with active := true } :: rest, state := .busy } } := by
  unfold activateOrder
  rw [if_pos (canActivate_head hst hf hq ha)]
  split
  next h => cases h.symm.trans hq
  next o' rest' h =>
    cases h.symm.trans hq
    rfl

variable (ho : orderFormed o)
include ho

theorem activateOrder_refused {code : Code} (h : firstHolds code (placeRefusals s o (some o.tag) ++ loadRefusals s o))
    (hroom : s.re.hasRoom = true) :
    activateOrder s = endedState s o rest (.refused code) s.lc.state s.lc.station := by
  rw [activateOrder_eq hst hf hq ha, (refusals_tabled ho).1 code h]
  exact endOrder_eq hq hf hroom

variable (h : noneHolds (placeRefusals s o (some o.tag) ++ loadRefusals s o))
include h

theorem activateOrder_homes (hu : s.lc.state = .unhomed) (hr : s.lc.lines.retracted = true) (hh : s.lc.lines.home = false) :
    activateOrder s = { s with lc := homingBegun s ({ o with active := true } :: rest) } := by
  rw [activateOrder_eq hst hf hq ha, (refusals_tabled ho).2 h]
  exact (if_pos hu).trans (startHoming_eq (s := { s with
    lc := { s.lc with queue := { o with active := true } :: rest } }) hr hh)

theorem activateOrder_begins (hi : s.lc.state = .idle) : activateOrder s = startTravel (s.firstStation o)
    { s with lc := { s.lc with queue := { o with active := true } :: rest, state := .busy } } := by
  rw [activateOrder_eq hst hf hq ha, (refusals_tabled ho).2 h]
  refine (if_neg (by rw [hi]; decide)).trans ?_
  unfold beginSteps
  rw [activeOrder_eq (o := { o with active := true }) (rest := rest) rfl rfl]
  rfl

end Activates

/-- Settles O55. -/
theorem orderActivates : Obligations.OrderActivates := by
  refine ⟨fun s x hs h1 h2 => runStep_next s _ _ hs (activateOrder_idle (s := s.observe x) h1 h2), ?_⟩
  intro s x o rest hs hf hst hq ha ho a
  refine ⟨fun code h hroom => ?_, fun h hu hr hh => ?_, fun p i h hi hsc hp hstn hne hr => ?_⟩
  · obtain ⟨b, hb⟩ := runStep_next s _ (orderActivate x) hs
      (activateOrder_refused (s := a) hst hf hq ha ho h hroom)
    exact ⟨_, hb, endedState_orderEnded ho b⟩
  · obtain ⟨b, hb⟩ := runStep_next s _ (orderActivate x) hs (activateOrder_homes (s := a) hst hf hq ha ho h hu hr hh)
    exact ⟨_, hb, rfl, rfl⟩
  · have hfirst : firstPlace a o p := by
      unfold firstPlace
      rw [hsc]
      exact hp
    have hbegin := (activateOrder_begins (s := a) hst hf hq ha ho h hi).trans
      (((congrArg (startTravel · _) (firstStation_eq ho hfirst))).trans (startTravel_eq (s := { a with
        lc := { a.lc with queue := { o with active := true } :: rest, state := .busy } }) hstn hne))
    have htravel : travelBegun { a with lc := { a.lc with queue := { o with active := true } :: rest, state := .busy } } i p = _ :=
      if_pos hr
    rw [htravel] at hbegin
    exact runStep_next s _ (orderActivate x) hs hbegin

end Sys2Proof.Proofs.Orders
end

section
/-! PROOFS. Settling LOADER_HALT (R160, R163), and the gripper step that an interruption leaves (R159, R162). -/
namespace Sys2Proof.Proofs.Orders
open Sys2Proof Sys2Proof.Machine Sys2Proof.Safety Sys2Proof.Laws
open Sys2Proof.Proofs.Requests Sys2Proof.Proofs.Places

/-! ## A place that loses its cartridge -/

/-- The records once the record of the cartridge at a place, if any, is free. -/
def recordsWithout (cd : Directory) (p : PlaceId) : Vector (Option CartRecord) 32 :=
  match cd.places[p].state with
  | .occupied c => cd.records.set c none
  | _ => cd.records

/-- The directory with a place that is no longer OCCUPIED. -/
def vacated (cd : Directory) (p : PlaceId) (x : PlaceState) : Directory := { cd with
  places := cd.places.set p { cd.places[p] with state := x }, records := recordsWithout cd p }

section Vacate
variable {s : State} {p q : PlaceId} {x : PlaceState}

theorem vacate_eq : vacate p x s = { s with cd := vacated s.cd p x } := by
  have h : ∀ y, s.cd.places[p].state = y → vacate p x s = { s with cd := vacated s.cd p x } := by
    intro y hy
    unfold vacate vacated recordsWithout State.placeState
    rw [hy]
    cases y <;> rfl
  exact h _ rfl

theorem vacated_place (h : q ≠ p) : (vacated s.cd p x).places[q] = s.cd.places[q] :=
  Vector.getElem_set_ne p.isLt q.isLt fun e => h (Fin.ext e.symm)

theorem vacated_self : (vacated s.cd p x).places[p] = { s.cd.places[p] with state := x } := Vector.getElem_set_self p.isLt

theorem recordsWithout_get {cd : Directory} (c : CartId) :
    (cd.places[p].state = .occupied c → (recordsWithout cd p)[c] = none)
      ∧ (cd.places[p].state ≠ .occupied c → (recordsWithout cd p)[c] = cd.records[c]) := by
  unfold recordsWithout
  cases h : cd.places[p].state with
  | occupied d =>
    dsimp only
    refine ⟨fun e => ?_, fun e => ?_⟩
    · cases e
      exact Vector.getElem_set_self c.isLt
    · exact Vector.getElem_set_ne d.isLt c.isLt fun hv => e (congrArg PlaceState.occupied (Fin.ext hv))
  | empty => exact ⟨nofun, fun _ => rfl⟩
  | unknown => exact ⟨nofun, fun _ => rfl⟩

theorem vacate_unknown (h : s.cd.places[p].state = .unknown) : vacate p .unknown s = s := by
  have hrec : recordsWithout s.cd p = s.cd.records := by
    unfold recordsWithout
    rw [h]
  have hplaces : s.cd.places.set p { s.cd.places[p] with state := .unknown } = s.cd.places := by
    rw [← h]
    exact Vector.set_getElem_self p.isLt
  rw [vacate_eq]
  unfold vacated
  rw [hrec, hplaces]

/-- A PICKER that agrees with its input still does when another place loses its cartridge. -/
theorem sensePicker_vacate (hq : p ≠ pickerPlace) (h : pickerLoaded s ↔ s.lc.lines.cartridgePresent = true) :
    sensePicker (vacate p x s) = vacate p x s := by
  refine sensePicker_agrees ?_
  rw [vacate_eq]
  unfold pickerLoaded at h ⊢
  rw [show ({ s with cd := vacated s.cd p x } : State).cd.places[pickerPlace] = s.cd.places[pickerPlace] from
    vacated_place (s := s) (Ne.symm hq)]
  exact h

end Vacate

/-! ## Interruptions -/

section Interrupt
variable {s : State} {o : Order} {rest : List Order} {y : ActiveStep} {p : PlaceId}

theorem interruptGripper_none (hy : ∀ y, s.lc.step = some y → y.kind ≠ .get ∧ y.kind ≠ .put) :
    interruptGripper s = sensePicker s := by
  have hplace : s.gripperPlace = none := by
    unfold State.gripperPlace
    split
    · next y o hs _ =>
      obtain ⟨h1, h2⟩ := hy y hs
      split
      · next h => exact absurd h h1
      · next h => exact absurd h h2
      · rfl
    · rfl
  unfold interruptGripper
  rw [hplace]

/-- The place that a gripper step works at loses its cartridge, and the PICKER is sensed. -/
theorem interruptGripper_works (hq : s.lc.queue = o :: rest) (ha : o.active = true) (hs : s.lc.step = some y)
    (hw : worksAt y o p) : interruptGripper s = sensePicker (vacate p .unknown s) := by
  have hplace : s.gripperPlace = some p := by
    unfold State.gripperPlace
    rw [hs, activeOrder_eq hq ha]
    rcases hw with ⟨hk, hp⟩ | ⟨hk, hp⟩ <;> simp only [hk, hp]
  unfold interruptGripper
  rw [hplace]
  dsimp only
  split
  · next hu => rw [vacate_unknown hu]
  · rfl

end Interrupt

/-! ## The halt -/

theorem clearPending_fold (os : List Order) (s : State) : os.foldl (fun s o => clearPending o s) s =
    { s with cd := { s.cd with places := pendingOn none (os.flatMap s.orderPlaces) s.cd.places } } := by
  induction os generalizing s with
  | nil => rfl
  | cons o os ih =>
    rw [List.foldl_cons, ih]
    unfold clearPending
    rw [setPending_fold]
    unfold pendingOn
    rw [List.flatMap_cons, List.foldl_append]
    rfl

/-- The report of an order that a halt ends. -/
def haltReport (step : Option ActiveStep) (o : Order) : Report :=
  if o.active then Report.orderDone o.tag o.kind (.fault .halted) (step.map fun y => y.kind)
    (step.map fun y => y.station) .halted none
  else Report.orderDone o.tag o.kind (.fault .cancelled) none none .halted none

/-- The state of a loader that has been halted, its gripper step interrupted in state `s`. -/
def haltedState (s : State) : State := { s with
  cd := { s.cd with
    places := pendingOn none (s.lc.queue.flatMap s.orderPlaces) s.cd.places
    held := s.cd.held.filter fun x => match x with | .label _ _ => false | .edge _ => true }
  lc := { s.lc.quiet with
    state := .halted, station := none, queue := [], step := none, travelCount := 0, outputs := s.lc.outputs.safe }
  re := { s.re with backlog := s.re.backlog ++ s.lc.queue.map (haltReport s.lc.step) } }

section Halt
variable {s : State}

theorem loaderHalt_halted (hf : loaderFree s) (h : s.lc.state = .halted) : loaderHalt s = s := by
  have hhalt : haltLoader s = (s, []) := if_pos h
  unfold loaderHalt
  rw [hhalt]
  unfold loaderPost
  dsimp only
  rw [hf.2]
  exact congrArg (fun x => ({ s with lc := { s.lc with posts := x } } : State)) hf.2.symm

theorem loaderHalt_eq {u : State} (h : s.lc.state ≠ .halted) (hu : interruptGripper s = u) (hf : loaderFree u)
    (hroom : u.re.used + u.re.waiters.length + u.lc.queue.length ≤ 64) : loaderHalt s = haltedState u := by
  subst hu
  unfold loaderHalt haltLoader
  rw [if_neg h]
  dsimp only
  rw [clearPending_fold]
  exact loaderPost_joins ((interruptGripper s).lc.queue.map (haltReport (interruptGripper s).lc.step)) hf
    (by rw [List.length_map]; exact hroom)

end Halt

/-- What a halt leaves of a directory in which the gripper step has been interrupted. -/
theorem haltedState_place {s : State} (p : PlaceId) :
    ((∃ o ∈ s.lc.queue, p ∈ s.orderPlaces o) → (haltedState s).cd.places[p] = { s.cd.places[p] with pending := none })
      ∧ ((∀ o ∈ s.lc.queue, p ∉ s.orderPlaces o) → (haltedState s).cd.places[p] = s.cd.places[p])
      ∧ (haltedState s).cd.places[p].state = s.cd.places[p].state := by
  obtain ⟨hin, hout⟩ := pendingOn_get (tag := none) (ps := s.lc.queue.flatMap s.orderPlaces) (v := s.cd.places) p
  refine ⟨fun h => hin (List.mem_flatMap.mpr h), fun h => hout fun hm => ?_, ?_⟩
  · obtain ⟨o, ho, hp⟩ := List.mem_flatMap.mp hm
    exact h o ho hp
  · by_cases hm : p ∈ s.lc.queue.flatMap s.orderPlaces
    · exact (congrArg PlaceRecord.state (hin hm)).trans rfl
    · exact (congrArg PlaceRecord.state (hout hm)).trans rfl

theorem haltedState_quiet (s : State) : loaderQuiet s.lc (haltedState s).lc :=
  quiet_loaderQuiet s.lc (fun q => { q with
    state := .halted, station := none, queue := [], step := none, travelCount := 0, outputs := s.lc.outputs.safe })
    rfl rfl rfl rfl rfl rfl rfl rfl

/-- Settles O53. -/
theorem loaderHalts : Obligations.LoaderHalts := by
  intro s r x h hf a
  have ho : s.ownerReady .loaderHalt r = true := by simp [State.ownerReady, ownerReady_loader hf]
  have hx := request_accepted (c := .loaderHalt x) (u := s.observe x) (f := loaderHalt) (by decide) rfl rfl h rfl ho rfl
  have hhalt {u : State} (hs : s.lc.state ≠ .halted) (hu : interruptGripper a = { a with cd := u.cd })
      (hroom : roomFor s s.lc.queue.length) :
      ∃ b, exec (.loaderHalt x) s = .next (withStale b (haltedState { a with cd := u.cd })) := by
    have heq := loaderHalt_eq (s := a) hs hu hf (by
      have h1 := hroom.1
      have h2 := hroom.2
      simp only [RequestEngine.used, a, answered, State.observe, h1, List.length_append, List.length_cons, List.length_nil,
        Bool.false_eq_true, if_false]
      omega)
    rwa [heq] at hx
  refine ⟨fun hh => ?_, fun hs hy hp hroom hformed => ?_, fun o rest y q hs hq ha hstep hw hne hp hroom => ?_⟩
  · rwa [loaderHalt_halted (s := a) hf hh] at hx
  · have hu : interruptGripper a = a := (interruptGripper_none (s := a) hy).trans (sensePicker_agrees hp)
    obtain ⟨b, hb⟩ := hhalt (u := a) hs hu hroom
    refine ⟨_, hb, fun p => ?_, rfl, rfl, rfl, rfl, rfl, haltedState_quiet a, rfl, rfl, rfl, rfl, rfl, rfl, rfl, rfl, rfl, rfl, rfl⟩
    obtain ⟨hin, hout, -⟩ := haltedState_place (s := a) p
    exact ⟨fun ⟨o, ho, hn⟩ => hin ⟨o, ho, (mem_orderPlaces (hformed o ho)).mpr hn⟩,
      fun hn => hout fun o ho => mt (mem_orderPlaces (hformed o ho)).mp (hn o ho)⟩
  · have hu : interruptGripper a = { a with cd := vacated a.cd q .unknown } :=
      ((interruptGripper_works (s := a) hq ha hstep hw).trans (sensePicker_vacate hne hp)).trans vacate_eq
    obtain ⟨b, hb⟩ := hhalt (u := { a with cd := vacated a.cd q .unknown }) hs hu hroom
    have hstate (p : PlaceId) := (haltedState_place (s := { a with cd := vacated a.cd q .unknown }) p).2.2
    refine ⟨_, hb, ?_, fun p hpq => ?_, recordsWithout_get (cd := a.cd), rfl, rfl, rfl, rfl, rfl, rfl, ?_⟩
    · exact (hstate q).trans (congrArg PlaceRecord.state (vacated_self (s := a)))
    · exact (hstate p).trans (congrArg PlaceRecord.state (vacated_place (s := a) hpq))
    · have hreports : s.lc.queue.map (haltReport s.lc.step) = .orderDone o.tag o.kind (.fault .halted) (some y.kind)
          (some y.station) .halted none :: rest.map (haltReport (some y)) := by
        rw [hq, hstep, List.map_cons]
        exact congrArg (· :: _) (if_pos ha)
      exact (congrArg (a.re.backlog ++ ·) hreports).trans rfl

end Sys2Proof.Proofs.Orders
end

section
/-! PROOFS. The arguments of order requests and the checks of an acceptance (R151, R152). -/
namespace Sys2Proof.Proofs.Orders
open Sys2Proof Sys2Proof.Machine Sys2Proof.Safety Sys2Proof.Laws
open Sys2Proof.Proofs.Requests Sys2Proof.Proofs.Places

/-! ## Place arguments -/

section Arguments
variable {s : State} {r : List Byte} {offset : Nat}

theorem presentPlace_val {drives : Nat} {p : PlaceId} (h : p.val < drives ∨ 4 ≤ p.val) : presentPlace drives p.val = some p := by
  unfold presentPlace
  rw [dif_pos p.isLt, if_neg (by omega)]

theorem isShelf_iff {p : PlaceId} : isShelf p = true ↔ shelf p := decide_eq_true_iff

theorem isDrive_iff {p : PlaceId} : isDrive p = true ↔ p.val < 4 := decide_eq_true_iff

theorem placeArg_shelf {p : PlaceId} (h : argByte r offset = p.val) (hp : shelf p) : s.placeArg r offset isShelf = some p := by
  unfold State.placeArg
  rw [h, presentPlace_val (.inr hp.1), Option.filter_some, if_pos (isShelf_iff.mpr hp)]

theorem placeArg_drive {p : PlaceId} (h : argByte r offset = p.val) (hd : p.val < s.driveCount) (hp : p.val < 4) :
    s.placeArg r offset isDrive = some p := by
  unfold State.placeArg
  rw [h, presentPlace_val (.inl hd), Option.filter_some, if_pos (isDrive_iff.mpr hp)]

theorem presentPlace_some {drives x : Nat} {p : PlaceId} (h : presentPlace drives x = some p) :
    p.val = x ∧ (x < drives ∨ 4 ≤ x) := by
  unfold presentPlace at h
  split at h
  · split at h
    · cases h
    · next hx =>
      cases h
      exact ⟨rfl, by omega⟩
  · cases h

theorem placeArg_some {ok : PlaceId → Bool} {p : PlaceId} (h : s.placeArg r offset ok = some p) :
    p.val = argByte r offset ∧ (argByte r offset < s.driveCount ∨ 4 ≤ argByte r offset) ∧ ok p = true := by
  unfold State.placeArg at h
  obtain ⟨h, hok⟩ := Option.filter_eq_some_iff.mp h
  obtain ⟨h1, h2⟩ := presentPlace_some h
  exact ⟨h1, h2, hok⟩

theorem placeArg_notShelf (h : ¬ shelfByte (argByte r offset)) : s.placeArg r offset isShelf = none := by
  refine Option.eq_none_iff_forall_ne_some.mpr fun p hp => h ?_
  obtain ⟨h1, -, hok⟩ := placeArg_some hp
  have := isShelf_iff.mp hok
  unfold shelf at this
  rwa [h1] at this

theorem placeArg_notDrive (h : ¬ driveByte s (argByte r offset)) : s.placeArg r offset isDrive = none := by
  refine Option.eq_none_iff_forall_ne_some.mpr fun p hp => h ?_
  obtain ⟨h1, h2, hok⟩ := placeArg_some hp
  have := isDrive_iff.mp hok
  rw [h1] at this
  exact ⟨by omega, this⟩

theorem exists_placeArg_shelf (h : shelfByte (argByte r offset)) :
    ∃ p : PlaceId, argByte r offset = p.val ∧ shelf p ∧ s.placeArg r offset isShelf = some p := by
  obtain ⟨h1, h2⟩ := h
  refine ⟨⟨argByte r offset, by omega⟩, rfl, ⟨h1, h2⟩, placeArg_shelf rfl ⟨h1, h2⟩⟩

theorem exists_placeArg_drive (h : driveByte s (argByte r offset)) :
    ∃ p : PlaceId, argByte r offset = p.val ∧ s.placeArg r offset isDrive = some p := by
  obtain ⟨h1, h2⟩ := h
  exact ⟨⟨argByte r offset, by omega⟩, rfl, placeArg_drive rfl h1 h2⟩

/-! ## Labels -/

theorem recordByLabel_labelled {l : Label} {c : CartId} {x : CartRecord} (h : labelled s l c x) :
    s.recordByLabel l = some c := by
  obtain ⟨hc, hl, hfirst⟩ := h
  refine finFilter_head?_eq_some.mpr ⟨by simp [hc, hl], fun j hj => ?_⟩
  cases hr : s.cd.records[j] with
  | none => rfl
  | some y =>
    rw [Option.any_some]
    exact decide_eq_false (hfirst j hj y hr)

theorem recordByLabel_none {l : Label} (h : ∀ c x, ¬ labelled s l c x) : s.recordByLabel l = none := by
  cases hr : s.recordByLabel l with
  | none => rfl
  | some c =>
    obtain ⟨hc, hfirst⟩ := finFilter_head?_eq_some.mp hr
    obtain ⟨x, hx, hl⟩ := Option.any_eq_true _ _ |>.mp hc
    refine absurd ⟨hx, of_decide_eq_true hl, fun d hd y hy => ?_⟩ (h c x)
    have := hfirst d hd
    rw [hy, Option.any_some] at this
    exact of_decide_eq_false this

theorem mountSource_labelled {c : CartId} {x : CartRecord} (hb : argByte r 4 = 0xFF) (h : labelled s (argLabel r 8) c x) :
    s.mountSource r = if isShelf x.place then .ok (x.place, some (argLabel r 8)) else .error .badArgument := by
  unfold State.mountSource
  rw [if_pos hb, recordByLabel_labelled h, Option.bind_some, h.1]

theorem mountSource_unknown (hb : argByte r 4 = 0xFF) (h : ∀ c x, ¬ labelled s (argLabel r 8) c x) :
    s.mountSource r = .error .placeUnknown := by
  unfold State.mountSource
  rw [if_pos hb, recordByLabel_none h]
  rfl

theorem mountSource_place (hb : argByte r 4 ≠ 0xFF) : s.mountSource r = match s.placeArg r 4 isShelf with
    | none => .error .badArgument
    | some p => .ok (p, none) := by
  unfold State.mountSource State.placeArg
  rw [if_neg hb]
  cases presentPlace s.driveCount (argByte r 4) with
  | none => rfl
  | some p =>
    rw [Option.filter_some]
    dsimp only
    by_cases h : isShelf p = true
    · rw [if_pos h, if_pos h]
    · rw [if_neg h, if_neg h]

end Arguments

/-! ## The order of a record (R151) -/

section Record
variable {s : State} {r : List Byte}

theorem recordOrder_describes {o : Order} (h : describes s r o) : s.recordOrder o.kind r = .ok o := by
  have htag (tag : Byte) (ht : tag.toNat = recordTag r) : BitVec.ofNat 8 (recordTag r) = tag := by rw [← ht]; simp
  unfold describes at h
  split at h
  next tag a b =>
    obtain ⟨ht, ha, hb, hsa, hsb, hne⟩ := h
    unfold State.recordOrder
    dsimp only
    rw [placeArg_shelf ha hsa, placeArg_shelf hb hsb, htag tag ht]
    exact if_neg hne
  next tag a b =>
    obtain ⟨ht, ha, hb, hsa, hd, hb4⟩ := h
    have hne : argByte r 4 ≠ 0xFF := by have := hsa.2; omega
    unfold State.recordOrder
    dsimp only
    rw [placeArg_drive hb hd hb4, mountSource_place hne, placeArg_shelf ha hsa, htag tag ht]
  next tag a b x =>
    obtain ⟨ht, ha, hb, hd, hb4, rfl, hsa, c, y, hl, rfl⟩ := h
    unfold State.recordOrder
    dsimp only
    rw [placeArg_drive hb hd hb4, mountSource_labelled ha hl, if_pos (isShelf_iff.mpr hsa), htag tag ht]
  next tag a b =>
    obtain ⟨ht, ha, hd, ha4, hor⟩ := h
    unfold State.recordOrder
    dsimp only
    rw [placeArg_drive ha hd ha4, htag tag ht]
    dsimp only
    rcases hor with ⟨hb, hsb⟩ | ⟨hb, c, y, hocc, hy, horig⟩
    · rw [if_neg (by have := hsb.2; omega), placeArg_shelf hb hsb]
    · rw [if_pos hb, placeRecord_eq hocc, hy]
      dsimp only
      rw [horig]
      rfl
  next tag x =>
    obtain ⟨ht, hx⟩ := h
    unfold State.recordOrder
    dsimp only
    rw [hx, htag tag ht]
    cases x <;> rfl
  next tag b =>
    obtain ⟨ht, hb, hlt, hd⟩ := h
    have harg : s.placeArg r 5 (fun p => decide (p ≠ pickerPlace)) = some b := by
      unfold State.placeArg
      rw [hb, presentPlace_val hd, Option.filter_some, if_pos]
      refine decide_eq_true fun e => ?_
      rw [e] at hlt
      exact absurd hlt (by decide)
    unfold State.recordOrder
    dsimp only
    rw [harg, htag tag ht]
  next => exact h.elim

theorem recordOrder_bad {kind : OrderKind} (h : orderArgumentBad s (orderRow kind) r) :
    s.recordOrder kind r = .error .badArgument := by
  cases kind with
  | move =>
    unfold State.recordOrder
    dsimp only
    by_cases h4 : shelfByte (argByte r 4)
    · by_cases h5 : shelfByte (argByte r 5)
      · obtain ⟨a, ha, -, hpa⟩ := exists_placeArg_shelf (s := s) h4
        obtain ⟨b, hb, -, hpb⟩ := exists_placeArg_shelf (s := s) h5
        have he : argByte r 4 = argByte r 5 := (h.resolve_left (not_not_intro h4)).resolve_left (not_not_intro h5)
        rw [hpa, hpb]
        exact if_pos (Fin.ext (ha.symm.trans (he.trans hb)))
      · obtain ⟨a, ha, -, hpa⟩ := exists_placeArg_shelf (s := s) h4
        rw [hpa, placeArg_notShelf h5]
    · rw [placeArg_notShelf h4]
  | mount =>
    unfold State.recordOrder
    dsimp only
    by_cases h5 : driveByte s (argByte r 5)
    · obtain ⟨b, -, hpb⟩ := exists_placeArg_drive h5
      have hbad : s.mountSource r = .error .badArgument := by
        rcases h.resolve_left (not_not_intro h5) with ⟨hff, hsh⟩ | ⟨hff, c, y, hl, hsh⟩
        · rw [mountSource_place hff, placeArg_notShelf hsh]
        · rw [mountSource_labelled hff hl, if_neg (mt isShelf_iff.mp hsh)]
      rw [hpb, hbad]
    · rw [placeArg_notDrive h5]
  | dismount =>
    unfold State.recordOrder
    dsimp only
    by_cases h4 : driveByte s (argByte r 4)
    · obtain ⟨a, ha, hpa⟩ := exists_placeArg_drive h4
      rw [hpa]
      dsimp only
      rcases h.resolve_left (not_not_intro h4) with ⟨hff, hsh⟩ | ⟨hff, a', c, y, ha', hocc, hy, horig⟩
      · rw [if_neg hff, placeArg_notShelf hsh]
      · have hsame : a' = a := Fin.ext (ha'.trans ha)
        subst hsame
        rw [if_pos hff, placeRecord_eq hocc, hy]
        dsimp only
        rw [horig]
        rfl
    · rw [placeArg_notDrive h4]
  | inventory =>
    have hscope : scopeOf (argByte r 4) = none := by
      have h : 3 < argByte r 4 := h
      unfold scopeOf
      split <;> first | omega | rfl
    unfold State.recordOrder
    dsimp only
    rw [hscope]
  | pickerPut =>
    have harg : s.placeArg r 5 (fun p => decide (p ≠ pickerPlace)) = none := by
      refine Option.eq_none_iff_forall_ne_some.mpr fun p hp => ?_
      obtain ⟨h1, h2, hok⟩ := placeArg_some hp
      have hne : p.val ≠ 29 := fun e => of_decide_eq_true hok (Fin.ext e)
      have := p.isLt
      rcases h with h | h <;> omega
    unfold State.recordOrder
    dsimp only
    rw [harg]

theorem recordOrder_unlabelled (hd : driveByte s (argByte r 5)) (hb : argByte r 4 = 0xFF)
    (h : ∀ c x, ¬ labelled s (argLabel r 8) c x) : s.recordOrder .mount r = .error .placeUnknown := by
  obtain ⟨b, -, hpb⟩ := exists_placeArg_drive hd
  unfold State.recordOrder
  dsimp only
  rw [hpb, mountSource_unknown hb h]

end Record

/-! ## The checks (R152) -/

theorem tabled_guard {x : Option Code} {table : List (Prop × Code)} {P : Prop} {b : Prop} [Decidable b] (hb : b ↔ P)
    (h : Tabled x table) : Tabled (if b then x else none) (table.map fun y => (P ∧ y.1, y.2)) := by
  have hout (code : Code) (hP : ¬ P) (l : List (Prop × Code)) : ¬ firstHolds code (l.map fun y => (P ∧ y.1, y.2)) := by
    induction l with
    | nil => exact id
    | cons y l ih => simpa only [List.map_cons, firstHolds, hP, false_and, not_false_eq_true, true_and, false_or] using ih
  by_cases hP : P
  · rw [if_pos (hb.mpr hP)]
    have hmap : table.map (fun y => (P ∧ y.1, y.2)) = table := by simp only [hP, true_and, Prod.mk.eta, List.map_id_fun', id]
    rw [hmap]
    exact h
  · rw [if_neg (mt hb.mp hP)]
    exact ⟨fun code hf => absurd hf (hout code hP table), fun _ => rfl⟩

section Decides
variable {s : State} {r : List Byte} {o : Order}

theorem describes_formed (h : describes s r o) : orderFormed o := by
  unfold describes at h
  split at h
  case h_7 => exact h.elim
  all_goals exact ⟨by simp, by simp⟩

/-- What the checks of R152 answer. -/
def orderCheck (s : State) (o : Order) : Option Code :=
  if s.lc.state = .halted then some .loaderHalted
  else if 16 ≤ s.lc.queue.length then some .queueFull
  else (s.orderRefusal o none).or (if s.lc.queue.isEmpty = true then s.loadRefusal o else none)

theorem orderCheck_tabled (h : orderFormed o) : Tabled (orderCheck s o) (orderRefusals s o) :=
  tabled_cons Iff.rfl (tabled_cons Iff.rfl (tabled_or (orderRefusal_tabled h none)
    (tabled_guard List.isEmpty_iff loadRefusal_tabled)))

theorem orderDecision_eq {kind : OrderKind} (h : s.recordOrder kind r = .ok o) :
    s.orderDecision kind r = match orderCheck s o with | some c => .error c | none => .ok o := by
  unfold State.orderDecision orderCheck
  rw [h]
  dsimp only
  split
  · rfl
  · split
    · rfl
    · cases s.orderRefusal o none with
      | some c => rfl
      | none =>
        dsimp only [Option.none_or]
        split <;> rfl

theorem decision_order (kind : OrderKind) : s.decision (orderRow kind) r = orderRequest kind r s := by cases kind <;> rfl

theorem orderDecision_refused {kind : OrderKind} {code : Code} (hd : s.orderDecision kind r = .error code) :
    s.decision (orderRow kind) r = .error code := by
  rw [decision_order]
  unfold orderRequest
  rw [hd]

theorem orderDecision_accepted {kind : OrderKind} (hd : s.orderDecision kind r = .ok o) :
    s.decision (orderRow kind) r = .ok (acceptOrder o) := by
  rw [decision_order]
  unfold orderRequest
  rw [hd]

end Decides

/-! ## The rows -/

section Rows
variable {c : Instr} {s : State} {r : List Byte} {kind : OrderKind}

theorem sampled_order (hc : requestRow c = some (orderRow kind)) : ∃ x, sampled c s = s.observe x := by
  cases kind <;> cases c <;> cases hc <;> exact ⟨_, rfl⟩

theorem preCheck_order (h1 : 1 ≤ recordTag r) (h2 : recordTag r ≤ 255) : s.preCheck (orderRow kind) r = true := by
  cases kind <;> simp [State.preCheck, orderRow, RequestKind.namesLane, RequestKind.namesTag, h1, h2]

theorem ownerReady_order (h : loaderFree s) : s.ownerReady (orderRow kind) r = true := by
  cases kind <;> simp [State.ownerReady, orderRow, ownerReady_loader h]

theorem order_refused {code : Code} (hc : requestRow c = some (orderRow kind)) (h : RequestNext s (some (orderRow kind)) r)
    (h1 : 1 ≤ recordTag r) (h2 : recordTag r ≤ 255) (hf : loaderFree s) (hd : s.orderDecision kind r = .error code) :
    ∃ b, exec c s = .next (withStale b (answered code r (sampled c s))) := by
  obtain ⟨x, hx⟩ := sampled_order (s := s) hc
  refine request_refused rfl hc h (preCheck_order h1 h2) (ownerReady_order hf) ?_
  rw [hx]
  exact orderDecision_refused (s := s.observe x) hd

/-- Settles O52. -/
theorem orderRefused : Obligations.OrderRefused := by
  intro c s r kind hc h h1 h2 hf
  refine ⟨fun hb => ?_, fun hk hd hb hl => ?_, fun o code hk hdesc hfirst => ?_⟩
  · refine order_refused hc h h1 h2 hf ?_
    unfold State.orderDecision
    rw [recordOrder_bad hb]
  · subst hk
    refine order_refused hc h h1 h2 hf ?_
    unfold State.orderDecision
    rw [recordOrder_unlabelled hd hb hl]
  · subst hk
    refine order_refused hc h h1 h2 hf ?_
    rw [orderDecision_eq (recordOrder_describes hdesc), (orderCheck_tabled (describes_formed hdesc)).1 code hfirst]

theorem order_accepted {o : Order} (hc : requestRow c = some (orderRow o.kind)) (h : RequestNext s (some (orderRow o.kind)) r)
    (h1 : 1 ≤ recordTag r) (h2 : recordTag r ≤ 255) (hf : loaderFree s) (hdesc : describes s r o)
    (hn : noneHolds (orderRefusals s o)) :
    ∃ b, exec c s = .next (withStale b (acceptOrder o (answered .done r (sampled c s)))) := by
  obtain ⟨x, hx⟩ := sampled_order (s := s) hc
  have hd : s.orderDecision o.kind r = .ok o := by
    rw [orderDecision_eq (recordOrder_describes hdesc), (orderCheck_tabled (describes_formed hdesc)).2 hn]
  refine request_accepted (by cases o.kind <;> decide) rfl hc h (preCheck_order h1 h2) (ownerReady_order hf) ?_
  rw [hx]
  exact orderDecision_accepted (s := s.observe x) hd

end Rows

end Sys2Proof.Proofs.Orders
end

section
/-! PROOFS. Arrivals (R155 to R158, R161), and settling the acceptance of an order (R150, R152, R153). -/
namespace Sys2Proof.Proofs.Orders
open Sys2Proof Sys2Proof.Machine Sys2Proof.Safety Sys2Proof.Laws
open Sys2Proof.Proofs.Requests Sys2Proof.Proofs.Places

/-! ## Arrivals -/

/-- A gripper step that a GET or PUT begins with, at the station where the picker stands. -/
def stepBegun (s : State) (kind : StepKind) (part : StepPart) (i : Int) : Loader := { s.lc with
  station := some i
  step := some { kind := kind, station := i, part := part }
  outputs := s.lc.outputs.drive part
  stepTimer := some { started := s.timebase, length := s.re.loaderSettings.stepTimeout * 1000 } }

/-- The label read of a survey at a station begins, the link being IDLE. -/
def surveyBegun (s : State) (i : Int) : Loader := { s.lc with
  station := some i
  step := some { kind := .survey, station := i, part := .reading }
  exchanging := true, attempt := 1, received := [], retryTimer := none
  exchange := some { sent := 0x4C, limit := { started := s.timebase, length := 5000 } } }

theorem stepBegun_here {s : State} {i : Int} (kind : StepKind) (part : StepPart) (h : s.lc.station = some i) :
    stepBegun s kind part i = { s.lc with
      step := some { kind := kind, station := i, part := part }
      outputs := s.lc.outputs.drive part
      stepTimer := some { started := s.timebase, length := s.re.loaderSettings.stepTimeout * 1000 } } := by
  unfold stepBegun
  rw [← h]

theorem surveyBegun_here {s : State} {i : Int} (h : s.lc.station = some i) : surveyBegun s i = { s.lc with
    step := some { kind := .survey, station := i, part := .reading }
    exchanging := true, attempt := 1, received := [], retryTimer := none
    exchange := some { sent := 0x4C, limit := { started := s.timebase, length := 5000 } } } := by
  unfold surveyBegun
  rw [← h]

/-- The state with a travel as the step of the active order. -/
def travelling (s : State) (i : Int) : State := { s with lc := { s.lc with
  step := some { kind := .travel, station := i, part := .moving } } }

/-- The state with the picker at a station. -/
def stationed (s : State) (i : Int) : State := { s with lc := { s.lc with station := some i } }

section Arrive
variable {s : State} {o : Order} {rest : List Order} {p : PlaceId}

theorem stationPlace_eq (h : s.lc.station = some (placeStation p)) : s.stationPlace = some p := by
  unfold State.stationPlace placeStation at *
  rw [h]
  dsimp only
  rw [dif_pos (by rw [Int.toNat_natCast]; exact p.isLt), if_pos (Int.natCast_nonneg _)]
  exact congrArg some (Fin.ext (Int.toNat_natCast _))

/-- A read begins on an IDLE link. -/
theorem startRead_eq (h : s.lc.exchange = none) : startRead s = { s with lc := { s.lc with
    step := s.lc.step.map fun x => { x with part := .reading }
    exchanging := true, attempt := 1, received := [], retryTimer := none
    exchange := some { sent := 0x4C, limit := { started := s.timebase, length := 5000 } } } } := by
  unfold startRead
  dsimp only
  exact if_neg (by simp [modLoader, h])

/-- A travel to the station where the picker stands is over at once. -/
theorem startTravel_here (h : s.lc.station = some (placeStation p)) : startTravel (placeStation p) s =
    arrive (placeStation p) (travelling s (placeStation p)) := if_pos h

theorem not_sourceStation (h : o.source ≠ some p) : ¬ o.source.map placeStation = some (placeStation p) := by
  cases hs : o.source with
  | none => exact nofun
  | some q =>
    rw [hs] at h
    intro e
    have hv : (q.val : Int) = (p.val : Int) := Option.some.inj e
    exact h (congrArg some (Fin.ext (Int.natCast_inj.mp hv)))

/-- A GET or PUT begins with the gripper step given. -/
theorem gripperStep_begins {kind : StepKind} {part : StepPart} {f : State → State} (h : stepInput s.lc.lines part = false) :
    gripperStep part f (setStep kind part (stationed s (placeStation p))) = { s with lc := stepBegun s kind part (placeStation p) } :=
  gripperStep_waits (s := setStep kind part (stationed s (placeStation p))) h

variable (hq : s.lc.queue = o :: rest) (ha : o.active = true)
include hq ha

/-- What begins at a station is said by the order. -/
theorem arrive_eq {i : Int} : arrive i s =
    if o.scope.isSome = true then startSurvey (stationed s i)
    else if o.source.map placeStation = some i then startGet (stationed s i)
    else startPut (stationed s i) := by
  have hact : (stationed s i).activeOrder = some o := activeOrder_eq hq ha
  unfold stationed at hact ⊢
  unfold arrive
  dsimp only at hact ⊢
  rw [hact]

theorem arrive_get (hsc : o.scope = none) (hs : o.source = some p) (hj : s.lc.lines.jawOpen = false) :
    arrive (placeStation p) s = { s with lc := stepBegun s .get .jawOpening (placeStation p) } := by
  have hn : ¬ s.lc.lines.jawOpen = true := by rw [hj]; decide
  rw [arrive_eq hq ha, if_neg (by rw [hsc]; decide), if_pos (by rw [hs]; rfl)]
  exact (if_neg hn).trans (gripperStep_begins hj)

theorem arrive_put (hsc : o.scope = none) (hs : o.source ≠ some p) (hp : s.lc.lines.slotPresence = false)
    (he : s.lc.lines.extended = false) :
    arrive (placeStation p) s = { s with lc := stepBegun s .put .extending (placeStation p) } := by
  have hn : ¬ s.lc.lines.slotPresence = true := by rw [hp]; decide
  rw [arrive_eq hq ha, if_neg (by rw [hsc]; decide), if_neg (not_sourceStation hs)]
  exact (if_neg hn).trans (gripperStep_begins he)

theorem arrive_survey {scope : Scope} (hsc : o.scope = some scope) (hp : s.lc.lines.slotPresence = true) (hx : s.lc.exchange = none) :
    arrive (placeStation p) s = { s with lc := surveyBegun s (placeStation p) } := by
  rw [arrive_eq hq ha, if_pos (by rw [hsc]; rfl)]
  unfold startSurvey
  rw [stationPlace_eq (p := p) rfl]
  dsimp only
  exact (if_pos hp).trans (startRead_eq (s := { s with lc := { s.lc with
    station := some (placeStation p), step := some { kind := .survey, station := placeStation p, part := .reading } } }) hx)

theorem startTravel_get (h : s.lc.station = some (placeStation p)) (hsc : o.scope = none) (hs : o.source = some p)
    (hj : s.lc.lines.jawOpen = false) : startTravel (placeStation p) s = { s with lc := { s.lc with
      step := some { kind := .get, station := placeStation p, part := .jawOpening }
      outputs := s.lc.outputs.openJaw
      stepTimer := some { started := s.timebase, length := s.re.loaderSettings.stepTimeout * 1000 } } } := by
  rw [startTravel_here h, arrive_get (s := travelling s _) hq ha hsc hs hj, stepBegun_here _ _ (by exact h)]
  rfl

theorem startTravel_put (h : s.lc.station = some (placeStation p)) (hsc : o.scope = none) (hs : o.source ≠ some p)
    (hp : s.lc.lines.slotPresence = false) (he : s.lc.lines.extended = false) :
    startTravel (placeStation p) s = { s with lc := { s.lc with
      step := some { kind := .put, station := placeStation p, part := .extending }
      outputs := s.lc.outputs.extend
      stepTimer := some { started := s.timebase, length := s.re.loaderSettings.stepTimeout * 1000 } } } := by
  rw [startTravel_here h, arrive_put (s := travelling s _) hq ha hsc hs hp he, stepBegun_here _ _ (by exact h)]
  rfl

theorem startTravel_survey {scope : Scope} (h : s.lc.station = some (placeStation p)) (hsc : o.scope = some scope)
    (hp : s.lc.lines.slotPresence = true) (hx : s.lc.exchange = none) :
    startTravel (placeStation p) s = { s with lc := { s.lc with
      step := some { kind := .survey, station := placeStation p, part := .reading }
      exchanging := true, attempt := 1, received := [], retryTimer := none
      exchange := some { sent := 0x4C, limit := { started := s.timebase, length := 5000 } } } } := by
  rw [startTravel_here h, arrive_survey (s := travelling s _) hq ha hsc hp hx, surveyBegun_here (by exact h)]
  rfl

end Arrive

/-! ## Acceptance (R152, R153) -/

/-- The state once an order has joined the queue. -/
def queuedState (o : Order) (s : State) : State := { s with
  cd := { s.cd with places := pendingOn (some o.tag) (s.orderPlaces o) s.cd.places }
  lc := { s.lc with queue := s.lc.queue ++ [o] } }

section Accept
variable {s : State} {o : Order} {p : PlaceId} {i : Int}

theorem queueOrder_eq : queueOrder o s = queuedState o s := by
  unfold queueOrder
  dsimp only
  rw [setPending_fold]
  rfl

theorem queuedState_place (p : PlaceId) : (queuedState o s).cd.places[p].state = s.cd.places[p].state := by
  obtain ⟨hin, hout⟩ := pendingOn_get (tag := some o.tag) (ps := s.orderPlaces o) (v := s.cd.places) p
  by_cases hm : p ∈ s.orderPlaces o
  · exact (congrArg PlaceRecord.state (hin hm)).trans rfl
  · exact (congrArg PlaceRecord.state (hout hm)).trans rfl

/-- An order that has just been accepted passes its re-validation. -/
theorem queued_revalidates (hf : orderFormed o) (hq : s.lc.queue = []) (h : noneHolds (orderRefusals s o)) :
    noneHolds (placeRefusals (queuedState o s) o (some o.tag) ++ loadRefusals (queuedState o s) o) := by
  unfold orderRefusals at h
  obtain ⟨h, hload⟩ := noneHolds_append.mp h
  obtain ⟨-, h⟩ := noneHolds_append.mp h
  obtain ⟨-, h2, h3, h4, h5, h6, -⟩ := h
  obtain ⟨h7, h8, -⟩ := hload
  have hpicker : pickerLoaded (queuedState o s) ↔ pickerLoaded s := by
    unfold pickerLoaded
    rw [queuedState_place]
  refine noneHolds_append.mpr ⟨⟨?_, h2, ?_, ?_, ?_, h6, trivial⟩, ?_, ?_, trivial⟩
  · rintro ⟨p, t, hn, hp, hne⟩
    have hset := (pendingOn_pendingSet (s := s) hf (some o.tag) p).1 hn
    exact hne ((congrArg PlaceRecord.pending hset).symm.trans hp)
  · rintro ⟨hk, p, hn, hs⟩
    rw [queuedState_place] at hs
    exact h3 ⟨hk, p, hn, hs⟩
  · rintro ⟨p, hp, hs⟩
    rw [queuedState_place] at hs
    exact h4 ⟨p, hp, hs⟩
  · rintro ⟨p, c, x, hp, hs, hx⟩
    rw [queuedState_place] at hs
    exact h5 ⟨p, c, x, hp, hs, hx⟩
  · rw [hpicker]
    exact fun hl => h7 ⟨hq, hl⟩
  · rw [hpicker]
    exact fun hl => h8 ⟨hq, hl⟩

theorem queuedState_queue (hq : s.lc.queue = []) : (queuedState o s).lc.queue = o :: [] := by
  unfold queuedState
  dsimp only
  rw [hq]
  rfl

theorem acceptOrder_queued (hq : s.lc.queue ≠ []) : acceptOrder o s = queuedState o s := by
  rw [← queueOrder_eq]
  exact if_neg (mt List.isEmpty_iff.mp hq)

theorem acceptOrder_active (hq : s.lc.queue = []) : acceptOrder o s = activateOrder (queuedState o s) := by
  rw [← queueOrder_eq]
  exact if_pos (List.isEmpty_iff.mpr hq)

/-- The state of an order that an idle loader accepts: ACTIVE at the head of its queue. -/
def busyState (o : Order) (s : State) : State := { s with
  cd := { s.cd with places := pendingOn (some o.tag) (s.orderPlaces o) s.cd.places }
  lc := { s.lc with queue := [{ o with active := true }], state := .busy } }

section Into
variable (hf : orderFormed o) (ha : o.active = false) (hfree : loaderFree s) (hq : s.lc.queue = [])
  (h : noneHolds (orderRefusals s o))
include hf ha hfree hq h

theorem acceptOrder_homes (hu : s.lc.state = .unhomed) (hr : s.lc.lines.retracted = true) (hh : s.lc.lines.home = false) :
    acceptOrder o s = { queuedState o s with lc := homingBegun s [{ o with active := true }] } := by
  rw [acceptOrder_active hq, activateOrder_homes (s := queuedState o s) (.inr hu) hfree (queuedState_queue hq) ha hf (queued_revalidates hf hq h) hu hr hh]
  rfl

theorem acceptOrder_begins (hi : s.lc.state = .idle) (hp : firstPlace s o p) :
    acceptOrder o s = startTravel (placeStation p) (busyState o s) := by
  rw [acceptOrder_active hq, activateOrder_begins (s := queuedState o s) (.inl hi) hfree (queuedState_queue hq) ha hf (queued_revalidates hf hq h) hi,
    firstStation_eq hf (s := queuedState o s) hp]
  rfl

end Into

end Accept

theorem describes_active {s : State} {r : List Byte} {o : Order} (h : describes s r o) : o.active = false := by
  unfold describes at h
  split at h
  case h_7 => exact h.elim
  all_goals rfl

/-- Settles O51. -/
theorem orderAccepted : Obligations.OrderAccepted := by
  intro c s r o hc h h1 h2 hf hdesc hn a
  have hform := describes_formed hdesc
  have hact := describes_active hdesc
  obtain ⟨z, hx⟩ := order_accepted hc h h1 h2 hf hdesc hn
  obtain ⟨y, hy⟩ := sampled_order (s := s) hc
  have ha : a = answered .done r (s.observe y) := congrArg (answered .done r) hy
  have hx : exec c s = .next (withStale z (acceptOrder o a)) := hx
  clear_value a
  subst ha
  have hset : pendingSet s o (some o.tag) (pendingOn (some o.tag) (s.orderPlaces o) s.cd.places) := pendingOn_pendingSet hform _
  refine ⟨fun hq => ?_, fun p i hq hi hst hp => ?_, fun hq hu hr hh => ?_⟩
  · rw [acceptOrder_queued (s := answered .done r (s.observe y)) hq] at hx
    exact ⟨_, hx, hset, rfl⟩
  · intro busy begins timer
    rw [acceptOrder_begins (s := answered .done r (s.observe y)) hform hact hf hq hn hi hp] at hx
    have hbegins {after : Loader} (e : startTravel (placeStation p) (busyState o (answered .done r (s.observe y))) =
        { busyState o (answered .done r (s.observe y)) with lc := after }) : begins after := by
      rw [e] at hx
      exact ⟨_, hx, hset, rfl⟩
    have hhere (hip : i = p.val) : s.lc.station = some (placeStation p) := hst.trans (congrArg some hip)
    refine ⟨fun hne => hbegins (startTravel_eq hst hne), fun hip hs hj => ?_, fun hip hs hsc hpres hext => ?_,
      fun hip hsc hpres hexch => ?_⟩
    · have hsc : o.scope = none := by_contra fun hsc => nomatch hs.symm.trans (hform.2 (hform.1.mpr hsc)).1
      subst hip
      exact hbegins (startTravel_get (s := busyState o (answered .done r (s.observe y))) rfl rfl (hhere rfl) hsc hs hj)
    · have hsource : o.source ≠ some p := by rw [hs]; exact nofun
      subst hip
      exact hbegins (startTravel_put (s := busyState o (answered .done r (s.observe y))) rfl rfl (hhere rfl) hsc hsource hpres hext)
    · obtain ⟨scope, hsc⟩ := Option.ne_none_iff_exists'.mp hsc
      subst hip
      exact hbegins (startTravel_survey (s := busyState o (answered .done r (s.observe y))) rfl rfl (hhere rfl) hsc hpres hexch)
  · rw [acceptOrder_homes (s := answered .done r (s.observe y)) hform hact hf hq hn hu hr hh] at hx
    exact ⟨_, hx, hset, rfl⟩

end Sys2Proof.Proofs.Orders
end

section
/-! PROOFS. Settling the events of the rail (R149, R153 to R158, R161). -/
namespace Sys2Proof.Proofs.Orders
open Sys2Proof Sys2Proof.Machine Sys2Proof.Safety Sys2Proof.Laws
open Sys2Proof.Proofs.Requests Sys2Proof.Proofs.Places

/-! ## Orders that end after a change -/

section Ended
variable {s u : State} {o : Order} {rest : List Order} {outcome : OrderOutcome} {state : LoaderState} {station : Option Int}

/-- An order ends in a state that differs from `s` in the loader and the doors. -/
theorem orderEnded_of (ho : orderFormed o) (hu : u = { s with lc := u.lc, cd := u.cd }) (hp : u.cd.places = s.cd.places)
    (hr : u.cd.records = s.cd.records) (hs : u.lc.step = s.lc.step) (hx : u.lc.exchange = s.lc.exchange)
    (hout : u.lc.outputs.safe = s.lc.outputs.safe) (b : Bool) :
    orderEnded s (withStale b (endedState u o rest outcome state station)) o rest outcome state station := by
  obtain ⟨h1, h2, h3, h4, h5, h6, h7, h8, h9, h10, h11⟩ :=
    endedState_orderEnded (s := u) (rest := rest) (outcome := outcome) (state := state) (station := station) ho b
  generalize withStale b (endedState u o rest outcome state station) = t at *
  refine ⟨?_, h2.trans hr, h3, h4, h5, h6, ?_, h8, fun hne => (h9 hne).trans hout, ?_, ?_⟩
  · unfold pendingSet orderNames at h1 ⊢
    rw [hp] at h1
    have hd : u.driveCount = s.driveCount := by rw [hu]
    rw [hd] at h1
    exact h1
  · unfold loaderQuiet at h7 ⊢
    rwa [hx] at h7
  · have hre : u.re = s.re := by rw [hu]
    rw [h10, hre, hs]
  · rw [hu] at h11
    exact h11

end Ended

/-! ## The end of an INVENTORY (R161) -/

/-- A door whose latch is cleared if it is CLOSED and the scope's own. -/
def doorCleared (scope y : Scope) (d : DoorState) : DoorState :=
  if scope = y ∧ d.isOpen = false then { d with latch := false } else d

/-- The directory with the latch of the scope's door cleared if that is CLOSED. -/
def latchCleared (scope : Scope) (cd : Directory) : Directory := { cd with
  doorA := doorCleared scope .a cd.doorA, doorB := doorCleared scope .b cd.doorB
  doorMail := doorCleared scope .mail cd.doorMail }

section Inventory
variable {s : State} {o : Order} {rest : List Order} {scope : Scope} {p : PlaceId}
  (hq : s.lc.queue = o :: rest) (ha : o.active = true) (hsc : o.scope = some scope)
include hq ha hsc

theorem inventoryDone_eq : inventoryDone s = orderDone { s with cd := latchCleared scope s.cd } := by
  unfold inventoryDone
  rw [activeOrder_eq hq ha, Option.bind_some, hsc, Option.bind_some]
  unfold latchCleared doorCleared
  cases scope with
  | drives => rfl
  | a =>
    cases hd : s.cd.doorA.isOpen <;> simp [scopeDoor, Directory.door, State.setDoor, hd]
  | b =>
    cases hd : s.cd.doorB.isOpen <;> simp [scopeDoor, Directory.door, State.setDoor, hd]
  | mail =>
    cases hd : s.cd.doorMail.isOpen <;> simp [scopeDoor, Directory.door, State.setDoor, hd]

variable (ho : orderFormed o) (hst : s.lc.station = some (placeStation p))
include ho hst

theorem mem_scopeRest {q : PlaceId} : q ∈ s.scopeRest ↔ orderNames s o q ∧ p.val < q.val := by
  have hmem : q ∈ scopePlaces s.driveCount scope ↔ orderNames s o q := by
    rw [← mem_orderPlaces ho]
    unfold State.orderPlaces
    rw [hsc]
  unfold State.scopeRest
  rw [activeOrder_eq hq ha, Option.bind_some, hsc]
  dsimp only
  rw [List.mem_filter, hmem, hst]
  simp [placeStation]

theorem surveyNext_done (hlast : ∀ q, orderNames s o q → q.val ≤ p.val) :
    surveyNext s = orderDone { s with cd := latchCleared scope s.cd } := by
  have hrest : s.scopeRest = [] := List.eq_nil_iff_forall_not_mem.mpr fun q hm => by
    obtain ⟨hn, hlt⟩ := (mem_scopeRest hq ha hsc ho hst).mp hm
    have := hlast q hn
    omega
  unfold surveyNext
  rw [hrest, inventoryDone_eq hq ha hsc]

end Inventory

end Sys2Proof.Proofs.Orders
end

section
/-! PROOFS. Settling the events of the rail (R149, R153 to R158, R161). -/
namespace Sys2Proof.Proofs.Orders
open Sys2Proof Sys2Proof.Machine Sys2Proof.Safety Sys2Proof.Laws
open Sys2Proof.Proofs.Requests Sys2Proof.Proofs.Places

/-! ## Arrivals that end the order -/

/-- The picker stands at a station with the step given, and the place there has lost its cartridge. -/
def arrivedAt (s : State) (kind : StepKind) (part : StepPart) (p : PlaceId) (x : PlaceState) : State := { s with
  lc := { s.lc with station := some (placeStation p), step := some { kind := kind, station := placeStation p, part := part } }
  cd := vacated s.cd p x }

section Arrive
variable {s : State} {o : Order} {rest : List Order} {p : PlaceId} (hq : s.lc.queue = o :: rest) (ha : o.active = true)
  (hf : loaderFree s) (hroom : s.re.hasRoom = true)
include hq ha hf hroom

/-- The target of a PUT is not free. -/
theorem arrive_occupied (hsc : o.scope = none) (hs : o.source ≠ some p) (ht : o.target = some p)
    (hp : s.lc.lines.slotPresence = true) : arrive (placeStation p) s =
      endedState (arrivedAt s .put .extending p .unknown) o rest (.fault .targetOccupied) .idle (some (placeStation p)) := by
  have hact : (setStep .put .extending (stationed s (placeStation p))).activeOrder = some o := activeOrder_eq hq ha
  rw [arrive_eq hq ha, if_neg (by rw [hsc]; decide), if_neg (not_sourceStation hs)]
  unfold startPut
  dsimp only
  refine (if_pos hp).trans ?_
  rw [hact, Option.bind_some, ht]
  dsimp only
  rw [vacate_eq]
  exact endOrder_eq (s := arrivedAt s .put .extending p .unknown) hq hf hroom

/-- The last station of a survey is EMPTY. -/
theorem arrive_empty {scope : Scope} (ho : orderFormed o) (hsc : o.scope = some scope) (hp : s.lc.lines.slotPresence = false)
    (hlast : ∀ q, orderNames s o q → q.val ≤ p.val) : arrive (placeStation p) s =
      endedState { arrivedAt s .survey .reading p .empty with cd := latchCleared scope (vacated s.cd p .empty) } o rest .done .idle
        (some (placeStation p)) := by
  have hn : ¬ s.lc.lines.slotPresence = true := by rw [hp]; decide
  rw [arrive_eq hq ha, if_pos (by rw [hsc]; rfl)]
  unfold startSurvey
  rw [stationPlace_eq (p := p) rfl]
  dsimp only
  refine (if_neg hn).trans ?_
  rw [vacate_eq]
  refine (surveyNext_done (s := arrivedAt s .survey .reading p .empty) hq ha hsc ho rfl hlast).trans ?_
  exact endOrder_eq (s := { arrivedAt s .survey .reading p .empty with cd := latchCleared scope (vacated s.cd p .empty) })
    hq hf hroom

end Arrive

/-! ## The events -/

section Events
variable {s : State} {x : Sample} {o : Order} {rest : List Order} {step : ActiveStep}

/-- The state at the last mark of a travel: the motor stops. -/
def markStopped (s : State) : State := { s with lc := { s.lc with
  markTimer := none, travelCount := 0, outputs := { s.lc.outputs with motorRun := false } } }

theorem stationMark_arrives (hm : s.lc.outputs.motorRun = true) (hx : x.lines.stationMark = true) (hs : s.lc.state = .busy)
    (hc : s.lc.travelCount = 1) (hstep : s.lc.step = some step) :
    stationMark x s = arrive step.station (markStopped (s.observe x)) := by
  have hst : ¬ s.lc.state = .homing := by rw [hs]; decide
  have hcount : s.lc.travelCount - 1 = 0 := by rw [hc]
  unfold stationMark
  dsimp only
  refine (if_pos ⟨hm, hx⟩).trans ((if_neg hst).trans ((if_pos hcount).trans ?_))
  split
  next h => cases h.symm.trans hstep
  next step' h =>
    cases h.symm.trans hstep
    refine congrArg (arrive step.station) ?_
    unfold modLoader markStopped State.observe
    dsimp only
    rw [hcount]

theorem homeInput_still (hm : s.lc.outputs.motorRun = false) : homeInput x s = s.observe x :=
  if_neg fun h => Bool.false_ne_true (hm.symm.trans h.1)

theorem stationMark_still (hm : s.lc.outputs.motorRun = false) : stationMark x s = s.observe x :=
  if_neg fun h => Bool.false_ne_true (hm.symm.trans h.1)

theorem homeInput_homed (hm : s.lc.outputs.motorRun = true) (hx : x.lines.home = true) (hs : s.lc.state = .homing) :
    homeInput x s = homingEnded (s.observe x) := (if_pos ⟨hm, hx⟩).trans (if_pos hs)

theorem homeInput_overtravels (hm : s.lc.outputs.motorRun = true) (hx : x.lines.home = true) (hs : s.lc.state = .busy) :
    homeInput x s = failOrder .overtravel .unhomed none (s.observe x) :=
  (if_pos ⟨hm, hx⟩).trans (if_neg (by rw [show (s.observe x).lc.state = .busy from hs]; decide))

theorem stationMark_homing (hm : s.lc.outputs.motorRun = true) (hx : x.lines.stationMark = true) (hs : s.lc.state = .homing) :
    stationMark x s = { s.observe x with lc := { (s.observe x).lc with
      markTimer := some ((s.observe x).startTimer s.re.loaderSettings.markTimeout) } } := (if_pos ⟨hm, hx⟩).trans (if_pos hs)

theorem stationMark_passes (hm : s.lc.outputs.motorRun = true) (hx : x.lines.stationMark = true) (hs : s.lc.state = .busy)
    (hc : 2 ≤ s.lc.travelCount) : stationMark x s = { s.observe x with lc := { (s.observe x).lc with
      markTimer := some ((s.observe x).startTimer s.re.loaderSettings.markTimeout), travelCount := s.lc.travelCount - 1 } } := by
  have hst : ¬ s.lc.state = .homing := by rw [hs]; decide
  have hcount : ¬ s.lc.travelCount - 1 = 0 := by omega
  exact (if_pos ⟨hm, hx⟩).trans ((if_neg hst).trans (if_neg hcount))

/-- Homing ends at the home input, and the travel to the first place starts. -/
theorem homingEnded_eq {p : PlaceId} (hq : s.lc.queue = o :: rest) (ha : o.active = true) (ho : orderFormed o)
    (hp : firstPlace s o p) (hr : s.lc.lines.retracted = true) : homingEnded s = { s with lc := { s.lc with
      state := .busy, station := some (-1), travelCount := p.val + 1
      step := some { kind := .travel, station := p.val, part := .moving }
      outputs := { s.lc.outputs with motorRun := true, towardHome := false }
      markTimer := some { started := s.timebase, length := s.re.loaderSettings.markTimeout * 1000 } } } := by
  unfold homingEnded
  generalize hu : modLoader _ s = u
  have hstep : beginSteps u = startTravel (placeStation p) u := by
    unfold beginSteps
    rw [activeOrder_eq (s := u) (o := o) (rest := rest) (by rw [← hu]; exact hq) ha]
    dsimp only
    rw [firstStation_eq ho (by rw [← hu]; exact hp)]
  have hne : (-1 : Int) ≠ p.val := by omega
  have hback : decide ((p.val : Int) < -1) = false := decide_eq_false (by omega)
  have hcount : ((p.val : Int) - -1).natAbs = p.val + 1 := by omega
  rw [hstep, startTravel_eq (i := -1) (by rw [← hu]; rfl) hne]
  subst hu
  unfold travelBegun modLoader
  dsimp only
  rw [if_pos hr, hback, hcount]

theorem markTimeout_waits {m : Timer} (h : s.lc.markTimer = some m) (ht : (s.observe x).timebase < m.started + m.length) :
    markTimeout x s = s.observe x := by
  have hexp : (s.observe x).expired (s.observe x).lc.markTimer = false := by
    rw [show (s.observe x).lc.markTimer = some m from h]
    exact decide_eq_false (by omega)
  exact if_neg (by rw [hexp]; decide)

theorem markTimeout_expires {m : Timer} (h : s.lc.markTimer = some m) (ht : m.started + m.length ≤ (s.observe x).timebase) :
    markTimeout x s = failOrder (if s.lc.state = .homing then .homeFail else .stall) .unhomed none (s.observe x) := by
  have hexp : (s.observe x).expired (s.observe x).lc.markTimer = true := by
    rw [show (s.observe x).lc.markTimer = some m from h]
    exact decide_eq_true ht
  exact if_pos hexp

end Events

end Sys2Proof.Proofs.Orders
end

section
/-! PROOFS. Settling the events of the rail (R149, R153 to R158, R161). -/
namespace Sys2Proof.Proofs.Orders
open Sys2Proof Sys2Proof.Machine Sys2Proof.Safety Sys2Proof.Laws
open Sys2Proof.Proofs.Requests Sys2Proof.Proofs.Places

/-- An event that ends the order at the head of the queue. -/
theorem next_fails {s a : State} {f : State → State} {o : Order} {rest : List Order} {fault : LoaderFault} {state : LoaderState}
    {station : Option Int} (hs : running s) (e : f s = failOrder fault state station a) (hq : a.lc.queue = o :: rest)
    (hf : loaderFree a) (hroom : a.re.hasRoom = true) (ho : orderFormed o) :
    ∃ t, runStep s f = .next t ∧ orderEnded a t o rest (.fault fault) state station := by
  obtain ⟨b, hb⟩ := runStep_next s _ f hs (e.trans (endOrder_eq hq hf hroom))
  exact ⟨_, hb, endedState_orderEnded ho b⟩

/-- Settles O56. -/
theorem railEventsTaken : Obligations.RailEventsTaken := by
  intro s x o rest step hs hf hroom hq ha hstep ho a timer
  refine ⟨fun hm c hc => ?_, fun p hm hh hr hst hsc hp => ?_, fun hm hh hst => ?_, fun hm hx hst => ?_, fun hm hx hst hc => ?_,
    fun p hm hx hst hc hk hp hsc hsrc hj => ?_, fun p hm hx hst hc hk hp hsc hsrc ht => ?_, fun p scope hm hx hst hc hk hp hsc hex => ?_,
    fun m hm ht => ?_, fun m hm ht => ?_, fun hm hr => ?_⟩
  · rcases List.mem_cons.mp hc with rfl | hc
    · exact runStep_next s _ _ hs (homeInput_still hm)
    · obtain rfl := List.mem_singleton.mp hc
      exact runStep_next s _ _ hs (stationMark_still hm)
  · have hfirst : firstPlace a o p := by
      unfold firstPlace
      rw [hsc]
      exact hp
    exact runStep_next s _ _ hs ((homeInput_homed hm hh hst).trans (homingEnded_eq (s := a) hq ha ho hfirst hr))
  · exact next_fails hs (homeInput_overtravels hm hh hst) hq hf hroom ho
  · exact runStep_next s _ _ hs (stationMark_homing hm hx hst)
  · exact runStep_next s _ _ hs (stationMark_passes hm hx hst hc)
  · have harrive := stationMark_arrives (x := x) hm hx hst hc hstep
    rw [hp] at harrive
    exact runStep_next s _ _ hs (harrive.trans (arrive_get (s := markStopped a) hq ha hsc hsrc hj))
  · have harrive := stationMark_arrives (x := x) hm hx hst hc hstep
    rw [hp] at harrive
    intro put
    refine ⟨fun hpres hext => ?_, ?_⟩
    · exact runStep_next s _ _ hs (harrive.trans (arrive_put (s := markStopped a) hq ha hsc hsrc hpres hext))
    · intro hpres sampled
      obtain ⟨b, hb⟩ := runStep_next s _ (stationMark x) hs
        (harrive.trans (arrive_occupied (s := markStopped a) hq ha hf hroom hsc hsrc ht hpres))
      exact ⟨_, hb, orderEnded_of (s := sampled) (u := arrivedAt (markStopped a) .put .extending p .unknown) ho rfl rfl rfl rfl rfl rfl b⟩
  · have harrive := stationMark_arrives (x := x) hm hx hst hc hstep
    rw [hp] at harrive
    intro survey
    refine ⟨fun hpres => ?_, ?_⟩
    · exact runStep_next s _ _ hs (harrive.trans (arrive_survey (s := markStopped a) hq ha hsc hpres hex))
    · intro hpres hlast sampled
      obtain ⟨b, hb⟩ := runStep_next s _ (stationMark x) hs
        (harrive.trans (arrive_empty (s := markStopped a) hq ha hf hroom ho hsc hpres hlast))
      exact ⟨_, hb, orderEnded_of (s := sampled) (u := { arrivedAt (markStopped a) .survey .reading p .empty with
        cd := latchCleared scope (vacated a.cd p .empty) }) ho rfl rfl rfl rfl rfl rfl b, rfl, rfl, rfl⟩
  · exact runStep_next s _ _ hs (markTimeout_waits hm ht)
  · exact next_fails hs (markTimeout_expires hm ht) hq hf hroom ho
  · have he : retractedDeassert x s = failOrder .stall .unhomed none a := if_pos ⟨hm, by rw [hr]; rfl⟩
    exact next_fails hs he hq hf hroom ho

end Sys2Proof.Proofs.Orders
end

section
/-! PROOFS. Gripper steps (R156 to R159): the step after a step, and the cartridge that a GET or PUT moves. -/
namespace Sys2Proof.Proofs.Orders
open Sys2Proof Sys2Proof.Machine Sys2Proof.Safety Sys2Proof.Laws
open Sys2Proof.Proofs.Requests Sys2Proof.Proofs.Places

/-! ## The next step -/

/-- The state in which a gripper step has been completed. -/
def stepEnded (s : State) : State := { s with lc := { s.lc with stepTimer := none } }

section Steps
variable {s : State} {x : Sample} {step : ActiveStep}

theorem gripperStepEnd_still (hs : s.lc.step = some step)
    (h : s.lc.stepTimer = none ∨ stepInput x.lines step.part = false) : gripperStepEnd x s = s.observe x := by
  unfold gripperStepEnd
  dsimp only
  split
  next hn => rfl
  next step' hs' =>
    cases hs'.symm.trans hs
    refine if_neg fun hc => ?_
    obtain ⟨ht, hi⟩ := hc
    rcases h with h | h
    · rw [show (s.observe x).lc.stepTimer = none from h] at ht
      cases ht
    · rw [h] at hi
      cases hi

theorem gripperStepEnd_done (hs : s.lc.step = some step) (ht : s.lc.stepTimer ≠ none) (h : stepInput x.lines step.part = true) :
    gripperStepEnd x s = gripperStepDone step (stepEnded (s.observe x)) := by
  unfold gripperStepEnd
  dsimp only
  split
  next hn => cases hn.symm.trans hs
  next step' hs' =>
    cases hs'.symm.trans hs
    exact if_pos ⟨Option.isSome_iff_ne_none.mpr ht, h⟩

/-- A gripper step follows another. -/
theorem gripperStep_follows {part : StepPart} {f : State → State} (hs : s.lc.step = some step)
    (h : stepInput s.lc.lines part = false) : gripperStep part f s = { s with lc := { s.lc with
      step := some { step with part := part }
      outputs := s.lc.outputs.drive part
      stepTimer := some { started := s.timebase, length := s.re.loaderSettings.stepTimeout * 1000 } } } := by
  rw [gripperStep_waits h, hs]
  rfl

/-- The motor starts once a retract step is over. -/
theorem startMotor_follows {towardHome : Bool} {count : Nat} (hs : s.lc.step = some step) :
    startMotor towardHome count s = { s with lc := { s.lc with
      step := some { step with part := .moving }
      travelCount := count
      outputs := { s.lc.outputs with motorRun := true, towardHome := towardHome }
      markTimer := some { started := s.timebase, length := s.re.loaderSettings.markTimeout * 1000 } } } := by
  unfold startMotor modLoader
  dsimp only
  rw [hs]
  rfl

end Steps

/-! ## A cartridge that moves (R137) -/

/-- The places with one in another state. -/
def placed (q : PlaceId) (y : PlaceState) (v : Vector PlaceRecord 30) : Vector PlaceRecord 30 :=
  v.set q { v[q] with state := y }

theorem placed_pending {p q : PlaceId} {y : PlaceState} {v : Vector PlaceRecord 30} : (placed q y v)[p].pending = v[p].pending := by
  by_cases h : p = q
  · subst h
    exact (congrArg PlaceRecord.pending (Vector.getElem_set_self (xs := v) (x := { v[p] with state := y }) p.isLt)).trans rfl
  · exact congrArg PlaceRecord.pending (Vector.getElem_set_ne q.isLt p.isLt fun e => h (Fin.ext e.symm))

section Move
variable {s : State} {p q : PlaceId} {c : CartId} {y : CartRecord}

theorem moveCartridge_eq {f : CartRecord → CartRecord} (h : s.cd.places[p].state = .occupied c) (hy : s.cd.records[c] = some y) :
    moveCartridge p q f s = { s with cd := { s.cd with
      places := placed q (.occupied c) (placed p .empty s.cd.places)
      records := s.cd.records.set c (some (f { y with place := q })) } } := by
  unfold moveCartridge State.placeState
  rw [h]
  dsimp only
  unfold State.modCart
  rw [hy]
  rfl

theorem vacated_occupied {x : PlaceState} (h : s.cd.places[p].state = .occupied c) :
    vacated s.cd p x = { s.cd with places := placed p x s.cd.places, records := s.cd.records.set c none } := by
  unfold vacated recordsWithout placed
  rw [h]

end Move

end Sys2Proof.Proofs.Orders
end

section
/-! PROOFS. What each gripper step of an order leads to (R156 to R159). -/
namespace Sys2Proof.Proofs.Orders
open Sys2Proof Sys2Proof.Machine Sys2Proof.Safety Sys2Proof.Laws
open Sys2Proof.Proofs.Requests Sys2Proof.Proofs.Places

/-! ## The PICKER is sensed (R143) -/

section Sensing
variable {s : State} {d : CartId} {p : PlaceId} {label : Option Label}

theorem freeRecord_eq_some : s.freeRecord = some d ↔ recordFree s.cd d := by
  unfold State.freeRecord recordFree
  rw [finFilter_head?_eq_some, Option.isNone_iff_eq_none]
  refine and_congr_right fun _ => forall₂_congr fun e _ => ?_
  rw [Option.isNone_eq_false_iff, Option.isSome_iff_ne_none]

theorem newCartridge_eq (h : recordFree s.cd d) : newCartridge p label s = { s with cd := { s.cd with
    places := placed p (.occupied d) s.cd.places
    records := s.cd.records.set d (some { label := label, place := p }) } } := by
  unfold newCartridge
  rw [freeRecord_eq_some.mpr h]
  rfl

theorem newCartridge_full (h : ∀ d, ¬ recordFree s.cd d) : newCartridge p label s = s := by
  have hn : s.freeRecord = none := Option.eq_none_iff_forall_ne_some.mpr fun d => mt freeRecord_eq_some.mp (h d)
  unfold newCartridge
  rw [hn]

theorem sensePicker_unloaded (h : ¬ pickerLoaded s) :
    sensePicker s = if s.lc.lines.cartridgePresent then newCartridge pickerPlace none s else s := by
  unfold sensePicker
  split
  · next c hc => exact absurd ⟨c, hc⟩ h
  · rfl

theorem sensePicker_gone (h : s.cd.places[pickerPlace].state = .occupied d) (hp : s.lc.lines.cartridgePresent = false) :
    sensePicker s = { s with cd := vacated s.cd pickerPlace .empty } := by
  unfold sensePicker State.placeState
  rw [h]
  dsimp only
  rw [hp]
  exact vacate_eq

/-- Sensing the PICKER changes the directory as R143 says, and nothing else. -/
theorem sensePicker_spec (s : State) : ∃ cd, sensePicker s = { s with cd := cd } ∧ pickerSensed s.lc.lines.cartridgePresent s.cd cd
    ∧ ∀ p : PlaceId, cd.places[p].pending = s.cd.places[p].pending := by
  unfold pickerSensed
  by_cases hl : pickerLoaded s
  · obtain ⟨c, hc⟩ := hl
    cases hp : s.lc.lines.cartridgePresent with
    | true => exact ⟨s.cd, sensePicker_agrees ⟨fun _ => hp, fun _ => ⟨c, hc⟩⟩, ⟨fun _ _ => rfl, fun h => absurd hc (h c)⟩, fun _ => rfl⟩
    | false =>
      refine ⟨_, sensePicker_gone hc hp, ⟨fun d hd => vacated_occupied hd, fun h => absurd hc (h c)⟩, fun p => placed_pending⟩
  · have hno : ∀ c, s.cd.places[pickerPlace].state ≠ .occupied c := fun c hc => hl ⟨c, hc⟩
    rw [sensePicker_unloaded hl]
    cases s.lc.lines.cartridgePresent with
    | false => exact ⟨s.cd, rfl, ⟨fun c hc => absurd hc (hno c), fun _ => ⟨fun _ => rfl, nofun⟩⟩, fun _ => rfl⟩
    | true =>
      by_cases hd : ∃ d, recordFree s.cd d
      · obtain ⟨d, hd⟩ := hd
        refine ⟨_, newCartridge_eq hd, ⟨fun c hc => absurd hc (hno c), fun _ => ⟨nofun, fun _ e he => ?_⟩⟩, fun p => placed_pending⟩
        cases Option.some.inj ((freeRecord_eq_some.mpr hd).symm.trans (freeRecord_eq_some.mpr he))
        rfl
      · have hd : ∀ d, ¬ recordFree s.cd d := not_exists.mp hd
        exact ⟨s.cd, newCartridge_full hd, ⟨fun c hc => absurd hc (hno c), fun _ => ⟨nofun, fun _ e he => absurd he (hd e)⟩⟩, fun _ => rfl⟩

end Sensing

/-! ## The steps of a GET and a PUT -/

section Next
variable {s : State} {x : Sample} {step : ActiveStep} {kind : StepKind} {part : StepPart}

/-- The state in which a gripper step has ended and the next one is under way. -/
def stepNext (s : State) (step : ActiveStep) (part : StepPart) : State := { s with lc := { s.lc with
  step := some { step with part := part }
  outputs := s.lc.outputs.drive part
  stepTimer := some { started := s.timebase, length := s.re.loaderSettings.stepTimeout * 1000 } } }

theorem getRetracts (hs : s.lc.step = some step) (hc : s.lc.lines.cartridgePresent = true) (h : s.lc.lines.retracted = false) :
    getGripped s = stepNext s step .retracting :=
  (if_pos hc).trans (gripperStep_follows hs h)

theorem gripperStepEnd_next {after : StepPart} {f : State → State} (hs : s.lc.step = some step) (ht : s.lc.stepTimer ≠ none)
    (h : stepInput x.lines step.part = true) (hf : ∀ t, gripperStepDone step t = gripperStep after f t)
    (hn : stepInput x.lines after = false) : gripperStepEnd x s = stepNext (s.observe x) step after := by
  rw [gripperStepEnd_done hs ht h, hf]
  exact gripperStep_follows (s := stepEnded (s.observe x)) hs hn

theorem gripperStepDone_eq (hk : step.kind = kind) (hp : step.part = part) :
    gripperStepDone step s = gripperStepDone { kind := kind, station := step.station, part := part } s := by
  subst hk hp
  rfl

theorem getRetracted_eq {o : Order} {rest : List Order} {p : PlaceId} {c : CartId} {y : CartRecord} {i : Int}
    (hq : s.lc.queue = o :: rest) (ha : o.active = true) (hp : o.source = some p) (hc : s.cd.places[p].state = .occupied c)
    (hy : s.cd.records[c] = some y) (hst : s.lc.station = some i) (hx : s.lc.exchange = none) :
    getRetracted s = { s with
      cd := { s.cd with
        places := placed pickerPlace (.occupied c) (placed p .empty s.cd.places)
        records := s.cd.records.set c (some { y with place := pickerPlace, origin := if p.val < 4 then none else y.origin }) }
      lc := { s.lc with
        step := some { kind := .labelRead, station := i, part := .reading }
        retryTimer := none, exchanging := true, attempt := 1, received := []
        exchange := some { sent := 0x4C, limit := { started := s.timebase, length := 5000 } } } } := by
  have horigin : (if isDrive p then { ({ y with place := pickerPlace } : CartRecord) with origin := none }
      else { y with place := pickerPlace }) = { y with place := pickerPlace, origin := if p.val < 4 then none else y.origin } := by
    by_cases h : p.val < 4
    · rw [if_pos h, if_pos (isDrive_iff.mpr h)]
    · rw [if_neg h, if_neg (mt isDrive_iff.mp h)]
  unfold getRetracted
  rw [activeOrder_eq hq ha, Option.bind_some, hp]
  dsimp only
  rw [moveCartridge_eq hc hy, horigin]
  unfold setStep
  dsimp only
  rw [hst]
  exact startRead_eq hx

theorem getGripped_nothing {o : Order} {rest : List Order} {p : PlaceId} {c : CartId}
    (hq : s.lc.queue = o :: rest) (ha : o.active = true) (hp : o.source = some p) (hc : s.cd.places[p].state = .occupied c)
    (hn : s.lc.lines.cartridgePresent = false) : getGripped s = failOrder .sourceEmpty .idle s.lc.station { s with
      cd := { s.cd with places := placed p .empty s.cd.places, records := s.cd.records.set c none } } := by
  have hl : ¬ s.lc.lines.cartridgePresent = true := by rw [hn]; decide
  unfold getGripped
  rw [if_neg hl, activeOrder_eq hq ha, Option.bind_some, hp]
  dsimp only
  rw [vacate_eq, vacated_occupied hc]

theorem putRetracted_eq {o : Order} {rest : List Order} {p : PlaceId} {c : CartId} {y : CartRecord}
    (hq : s.lc.queue = o :: rest) (ha : o.active = true) (hp : o.target = some p)
    (hc : s.cd.places[pickerPlace].state = .occupied c) (hy : s.cd.records[c] = some y) :
    putRetracted s = orderDone { s with cd := { s.cd with
      places := placed p (.occupied c) (placed pickerPlace .empty s.cd.places)
      records := s.cd.records.set c (some { y with
        place := p, origin := if o.kind = .mount then o.source else y.origin }) } } := by
  have horigin : (if o.kind = .mount then { ({ y with place := p } : CartRecord) with origin := o.source }
      else { y with place := p }) = { y with place := p, origin := if o.kind = .mount then o.source else y.origin } := by
    split <;> rfl
  unfold putRetracted
  rw [activeOrder_eq hq ha]
  dsimp only
  rw [hp]
  dsimp only
  rw [moveCartridge_eq hc hy, horigin]

end Next

/-! ## What is left of a state whose order has ended -/

section Over
variable {s v t : State} {o : Order} {rest : List Order} {outcome : OrderOutcome} {step : ActiveStep} {state : LoaderState}
  {station : Option Int}

/-- An order ends in a state that differs from `s` in the loader and the directory. -/
theorem orderEnded_parts (h : orderEnded v t o rest outcome state station) (hv : v = { s with lc := v.lc, cd := v.cd })
    (hx : v.lc.exchange = s.lc.exchange) (hs : v.lc.step = some step)
    (hp : ∀ q : PlaceId, v.cd.places[q].pending = s.cd.places[q].pending) :
    t.cd.records = v.cd.records ∧ t.lc.queue = rest ∧ t.lc.state = state ∧ t.lc.station = station
      ∧ t.lc.step = none ∧ loaderQuiet s.lc t.lc
      ∧ (∀ q : PlaceId, t.cd.places[q].state = v.cd.places[q].state
          ∧ (orderNames s o q → t.cd.places[q].pending = none)
          ∧ (¬ orderNames s o q → t.cd.places[q].pending = s.cd.places[q].pending))
      ∧ t.re.backlog = s.re.backlog ++ [.orderDone o.tag o.kind outcome (some step.kind) (some step.station) state station]
      ∧ t.mem = s.mem ∧ t.lanes = s.lanes ∧ t.jt = s.jt := by
  obtain ⟨hpend, hrec, hqueue, hstate, hstn, hstep, hquiet, -, -, hback, hmem, hjt, -, -, hlanes, -⟩ := h
  have hn (q : PlaceId) : orderNames v o q ↔ orderNames s o q := by
    rw [hv]; exact Iff.rfl
  refine ⟨hrec, hqueue, hstate, hstn, hstep, ?_, fun q => ?_, ?_, hmem.trans (by rw [hv]), hlanes.trans (by rw [hv]), hjt.trans (by rw [hv])⟩
  · unfold loaderQuiet at hquiet ⊢
    rwa [hx] at hquiet
  · obtain ⟨hin, hout⟩ := hpend q
    by_cases h : orderNames s o q
    · have e := hin ((hn q).mpr h)
      rw [e]
      exact ⟨rfl, fun _ => rfl, fun h' => absurd h h'⟩
    · have e := hout (mt (hn q).mp h)
      rw [e]
      exact ⟨rfl, fun h' => absurd h' h, fun _ => hp q⟩
  · have hre : v.re = s.re := by rw [hv]
    rw [hback, hre, hs]
    rfl

theorem orderEnded_safe (h : orderEnded v t o rest outcome state station) (hne : outcome ≠ .done) :
    t.lc.outputs = v.lc.outputs.safe := by
  obtain ⟨-, -, -, -, -, -, -, -, hsafe, -⟩ := h
  exact hsafe hne

end Over

end Sys2Proof.Proofs.Orders
end

section
/-! PROOFS. Settling the events of the gripper (R137, R143, R149, R153 to R160). -/
namespace Sys2Proof.Proofs.Orders
open Sys2Proof Sys2Proof.Machine Sys2Proof.Safety Sys2Proof.Laws
open Sys2Proof.Proofs.Requests Sys2Proof.Proofs.Places

section Timeout
variable {s : State} {x : Sample} {o : Order} {rest : List Order} {step : ActiveStep} {m : Timer} {p : PlaceId}
  (hq : s.lc.queue = o :: rest) (ha : o.active = true) (hs : s.lc.step = some step) (hm : s.lc.stepTimer = some m)
  (ht : m.started + m.length ≤ (s.observe x).timebase)

/-- The sampled state in which a gripper step's output has been released. -/
def stepReleased (s : State) (part : StepPart) : State := { s with lc := { s.lc with outputs := s.lc.outputs.release part } }

include hs hm ht

theorem stepTimeout_expires : stepTimeout x s =
    if step.kind = .homing then failOrder .gripTimeout .unhomed none (interruptGripper (stepReleased (s.observe x) step.part))
    else failOrder .gripTimeout .idle (interruptGripper (stepReleased (s.observe x) step.part)).lc.station
      (interruptGripper (stepReleased (s.observe x) step.part)) := by
  have he : (s.observe x).expired (s.observe x).lc.stepTimer = true := by
    rw [show (s.observe x).lc.stepTimer = some m from hm]
    exact decide_eq_true ht
  unfold stepTimeout
  dsimp only
  split
  next hn => cases hn.symm.trans hs
  next step' hs' =>
    cases hs'.symm.trans hs
    exact if_pos he

/-- A retract step before a travel or before homing that times out works at no place. -/
theorem stepTimeout_retractFirst (hp : step.part = .retractFirst) (hk : step.kind ≠ .get ∧ step.kind ≠ .put)
    (hl : pickerLoaded s ↔ x.lines.cartridgePresent = true) : stepTimeout x s =
    if step.kind = .homing then failOrder .gripTimeout .unhomed none (s.observe x)
    else failOrder .gripTimeout .idle s.lc.station (s.observe x) := by
  have hrel : stepReleased (s.observe x) step.part = s.observe x := by
    rw [hp]
    rfl
  have hint : interruptGripper (s.observe x) = s.observe x :=
    (interruptGripper_none fun y hy => by cases hy.symm.trans hs; exact hk).trans (sensePicker_agrees hl)
  rw [stepTimeout_expires hs hm ht, hrel, hint]
  rfl

include hq ha

theorem stepTimeout_works (hw : worksAt step o p) : ∃ cd,
    pickerSensed x.lines.cartridgePresent (vacated s.cd p .unknown) cd
      ∧ (∀ q : PlaceId, cd.places[q].pending = s.cd.places[q].pending)
      ∧ stepTimeout x s = failOrder .gripTimeout .idle s.lc.station { stepReleased (s.observe x) step.part with cd := cd } := by
  have hk : step.kind ≠ .homing := by
    rcases hw with ⟨hk, -⟩ | ⟨hk, -⟩ <;> rw [hk] <;> decide
  obtain ⟨cd, he, hsensed, hpend⟩ := sensePicker_spec { stepReleased (s.observe x) step.part with cd := vacated s.cd p .unknown }
  refine ⟨cd, hsensed, fun q => (hpend q).trans placed_pending, ?_⟩
  rw [stepTimeout_expires hs hm ht, if_neg hk, interruptGripper_works (s := stepReleased (s.observe x) step.part) hq ha hs hw,
    vacate_eq]
  exact congrArg (fun u : State => failOrder .gripTimeout .idle u.lc.station u) he

end Timeout

/-- Settles O57, case by case: each step's end is one lemma about what follows it, and an order that ends leaves the parts of
`orderEnded_parts`. -/
theorem gripperEventsTaken : Obligations.GripperEventsTaken := by
  intro s x o rest step hs hf hroom hq ha hstep ho a ended placedAt
  have hdone {after : StepPart} {f : State → State} (ht : s.lc.stepTimer ≠ none) (hi : stepInput x.lines step.part = true)
      (hn : stepInput x.lines after = false) (hg : ∀ t, gripperStepDone step t = gripperStep after f t) :
      ∃ b, exec (.gripperStepEnd x) s = .next (withStale b (stepNext a step after)) :=
    runStep_next s _ (gripperStepEnd x) hs (gripperStepEnd_next hstep ht hi hg hn)
  have hends {kind : StepKind} {part : StepPart} (hk : step.kind = kind) (hp : step.part = part) (ht : s.lc.stepTimer ≠ none)
      (hi : stepInput x.lines part = true) :
      gripperStepEnd x s = gripperStepDone { kind := kind, station := step.station, part := part } (stepEnded a) := by
    rw [gripperStepEnd_done hstep ht (hp ▸ hi), gripperStepDone_eq hk hp]
  refine ⟨fun h => ?_, fun ht => ?_, ?_, ?_, ?_, ?_⟩
  · refine runStep_next s _ _ hs (gripperStepEnd_still hstep (h.imp_right fun ⟨_, hp, hx⟩ => ?_))
    rw [hp]
    exact hx
  · intro out extending retracting goesOn
    refine ⟨⟨?_, ?_, ?_, ?_, ?_⟩, ?_, ?_, ?_⟩
    · exact fun hk hp hi hn => hdone ht (hp ▸ hi) hn fun t => gripperStepDone_eq hk hp
    · exact fun hk hp hi hn => hdone ht (hp ▸ hi) hn fun t => gripperStepDone_eq hk hp
    · intro hk hp hi hn
      obtain ⟨hg, hc⟩ := Bool.and_eq_true_iff.mp hi
      exact runStep_next s _ (gripperStepEnd x) hs ((hends hk hp ht hg).trans (getRetracts (s := stepEnded a) hstep hc hn))
    · exact fun hk hp hi hn => hdone ht (hp ▸ hi) hn fun t => gripperStepDone_eq hk hp
    · exact fun hk hp hi hn => hdone ht (hp ▸ hi) hn fun t => gripperStepDone_eq hk hp
    · intro i hk hp hi hst
      refine runStep_next s _ (gripperStepEnd x) hs ((hends hk hp ht hi).trans ?_)
      have hrail : startRail step.station (stepEnded a) =
          startMotor (decide (step.station < i)) (step.station - i).natAbs (stepEnded a) := by
        unfold startRail
        rw [show (stepEnded a).lc.station = some i from hst]
        rfl
      exact hrail.trans (startMotor_follows (s := stepEnded a) hstep)
    · intro hk hp hi hh
      have hn : ¬ (stepEnded a).lc.lines.home = true := by
        rw [show (stepEnded a).lc.lines.home = false from hh]
        decide
      exact runStep_next s _ (gripperStepEnd x) hs
        (((hends hk hp ht hi).trans (if_neg hn)).trans (startMotor_follows (s := stepEnded a) hstep))
    · intro p c y i hk hp hi hsrc _ hc hy hst hx
      exact runStep_next s _ (gripperStepEnd x) hs
        ((hends hk hp ht hi).trans (getRetracted_eq (s := stepEnded a) hq ha hsrc hc hy hst hx))
  · intro p c ht hk hp hg hn hsrc hc
    have he := (hends hk hp ht hg).trans (getGripped_nothing (s := stepEnded a) hq ha hsrc hc hn)
    obtain ⟨t, hnext, hover⟩ := next_fails hs he hq hf hroom ho
    exact ⟨t, hnext, orderEnded_parts hover rfl rfl hstep fun q => placed_pending⟩
  · intro p c y ht hk hp hi htgt _ hc hy
    have he := (hends hk hp ht hi).trans (putRetracted_eq (s := stepEnded a) hq ha htgt hc hy)
    obtain ⟨b, hb⟩ := runStep_next s _ (gripperStepEnd x) hs (he.trans (endOrder_eq hq hf hroom))
    exact ⟨_, hb, orderEnded_parts (endedState_orderEnded ho b) rfl rfl hstep fun q => placed_pending.trans placed_pending⟩
  · intro m hm ht hp hl
    refine ⟨fun hk => ?_, fun hk => ?_⟩
    · have he := stepTimeout_retractFirst hstep hm ht hp (by rw [hk]; decide) hl
      exact next_fails hs (he.trans (if_neg (by rw [hk]; decide))) hq hf hroom ho
    · have he := stepTimeout_retractFirst hstep hm ht hp (by rw [hk]; decide) hl
      exact next_fails hs (he.trans (if_pos hk)) hq hf hroom ho
  · intro p m hm ht hw _ left
    have hleft : vacated s.cd p .unknown = left := by
      unfold vacated recordsWithout
      rfl
    obtain ⟨cd, hsensed, hpend, he⟩ := stepTimeout_works hq ha hstep hm ht hw
    obtain ⟨t, hnext, hover⟩ := next_fails hs he hq hf hroom ho
    have hout := orderEnded_safe hover nofun
    refine ⟨t, cd, hleft ▸ hsensed, ⟨hnext, orderEnded_parts (s := a) (v := { stepReleased a step.part with cd := cd }) hover rfl rfl hstep hpend⟩, ?_⟩
    rw [hout]
    exact ⟨rfl, rfl, rfl⟩

end Sys2Proof.Proofs.Orders
end

section
/-! PROOFS. Doors (R144, R162): what opens with a door, and the order that it ends. -/
namespace Sys2Proof.Proofs.Orders
open Sys2Proof Sys2Proof.Machine Sys2Proof.Safety Sys2Proof.Laws
open Sys2Proof.Proofs.Requests Sys2Proof.Proofs.Places

/-! ## Places that are lost -/

/-- The places named are UNKNOWN, and the records of those that were OCCUPIED are free: `placesLost` of the directory alone. -/
def Lost (cd after : Directory) (lost : PlaceId → Prop) : Prop :=
  (∀ p : PlaceId, (lost p → after.places[p].state = .unknown) ∧ (¬ lost p → after.places[p].state = cd.places[p].state))
    ∧ ∀ c : CartId, ((∃ p, lost p ∧ cd.places[p].state = .occupied c) → after.records[c] = none)
      ∧ ((∀ p, lost p → cd.places[p].state ≠ .occupied c) → after.records[c] = cd.records[c])

theorem lost_iff {s t : State} {lost : PlaceId → Prop} : placesLost s t lost ↔ Lost s.cd t.cd lost := Iff.rfl

section Losses
variable {cd after : Directory} {lost : PlaceId → Prop} {p : PlaceId}

theorem lost_nothing : Lost cd cd fun _ => False :=
  ⟨fun _ => ⟨False.elim, fun _ => rfl⟩, fun _ => ⟨fun ⟨_, h, _⟩ => h.elim, fun _ => rfl⟩⟩

theorem vacated_get {x : PlaceState} (q : PlaceId) :
    (vacated cd p x).places[q].state = if q = p then x else cd.places[q].state := by
  by_cases h : q = p
  · subst h
    rw [if_pos rfl]
    exact (congrArg PlaceRecord.state (Vector.getElem_set_self (xs := cd.places)
      (x := { cd.places[q] with state := x }) q.isLt)).trans rfl
  · rw [if_neg h]
    exact congrArg PlaceRecord.state (Vector.getElem_set_ne p.isLt q.isLt fun e => h (Fin.ext e.symm))

/-- One more place is lost. -/
theorem lost_vacated (h : Lost cd after lost) : Lost cd (vacated after p .unknown) fun q => lost q ∨ q = p := by
  obtain ⟨hplaces, hrecords⟩ := h
  refine ⟨fun q => ⟨fun hq => ?_, fun hq => ?_⟩, fun c => ⟨fun ⟨q, hq, hc⟩ => ?_, fun hc => ?_⟩⟩
  · rw [vacated_get]
    split
    · rfl
    · next hne => exact (hplaces q).1 (hq.resolve_right hne)
  · rw [vacated_get, if_neg fun e => hq (.inr e)]
    exact (hplaces q).2 fun e => hq (.inl e)
  · obtain ⟨hfreed, hkept⟩ := recordsWithout_get (p := p) (cd := after) c
    by_cases hp : after.places[p].state = .occupied c
    · exact hfreed hp
    · refine (hkept hp).trans ((hrecords c).1 ⟨q, ?_, hc⟩)
      by_contra hl
      obtain rfl := hq.resolve_left hl
      exact hp (((hplaces q).2 hl).trans hc)
  · obtain ⟨-, hkept⟩ := recordsWithout_get (p := p) (cd := after) c
    refine (hkept fun hp => ?_).trans ((hrecords c).2 fun q hq => hc q (.inl hq))
    by_cases hl : lost p
    · rw [(hplaces p).1 hl] at hp
      cases hp
    · exact hc p (.inr rfl) (((hplaces p).2 hl).symm.trans hp)

theorem lost_congr {other : PlaceId → Prop} (h : Lost cd after lost) (e : ∀ p, lost p ↔ other p) : Lost cd after other := by
  obtain rfl : lost = other := funext fun p => propext (e p)
  exact h

theorem lost_of_states {other : Directory} (h : Lost cd after lost) (hr : other.records = after.records)
    (hs : ∀ p : PlaceId, other.places[p].state = after.places[p].state) : Lost cd other lost := by
  unfold Lost at h ⊢
  simpa only [hr, hs] using h

/-- Every place of a list is lost. -/
def withoutPlaces (ps : List PlaceId) (cd : Directory) : Directory := ps.foldl (fun cd p => vacated cd p .unknown) cd

theorem lost_withoutPlaces (ps : List PlaceId) (h : Lost cd after lost) :
    Lost cd (withoutPlaces ps after) fun q => lost q ∨ q ∈ ps := by
  induction ps generalizing after lost with
  | nil => exact lost_congr h fun p => by simp
  | cons p ps ih => exact lost_congr (ih (lost_vacated (p := p) h)) fun q => by simp [or_assoc]

/-- The loss of places changes nothing of the directory but the states of places and the records. -/
theorem withoutPlaces_rest (ps : List PlaceId) (cd : Directory) : withoutPlaces ps cd = { cd with
    places := (withoutPlaces ps cd).places, records := (withoutPlaces ps cd).records } := by
  induction ps generalizing cd with
  | nil => rfl
  | cons p ps ih => exact ih (vacated cd p .unknown)

theorem withoutPlaces_pending (ps : List PlaceId) (cd : Directory) (q : PlaceId) :
    (withoutPlaces ps cd).places[q].pending = cd.places[q].pending := by
  induction ps generalizing cd with
  | nil => rfl
  | cons p ps ih => exact (ih (vacated cd p .unknown)).trans placed_pending

theorem vacate_fold (ps : List PlaceId) (s : State) :
    ps.foldl (fun s p => vacate p .unknown s) s = { s with cd := withoutPlaces ps s.cd } := by
  induction ps generalizing s with
  | nil => rfl
  | cons p ps ih =>
    rw [List.foldl_cons, vacate_eq]
    exact ih _

end Losses

/-! ## A door opens (R144) -/

theorem mem_placesBehind {d : Door} {p : PlaceId} : p ∈ placesBehind d ↔ behind d p := by
  unfold placesBehind
  rw [List.mem_filter, decide_eq_true_iff, doorOf_eq_iff]
  exact and_iff_right (List.mem_finRange p)

/-- The places behind a door that are OCCUPIED, counted. -/
theorem occupiedCount_behind (s : State) (d : Door) : occupiedBehind s d (s.occupiedCount (placesBehind d)) := by
  refine ⟨(placesBehind d).filter fun p => (s.placeRecord p).isSome, ?_, List.countP_eq_length_filter, fun p => ?_⟩
  · exact ((List.nodup_finRange 30).filter _).filter _
  · rw [List.mem_filter, mem_placesBehind]
    exact and_congr_right fun _ => placeRecord_isSome

/-- The directory with a door open and its latch set. -/
def doorOpened (d : Door) (cd : Directory) : Directory := { cd with
  doorA := if d = .a then { isOpen := true, latch := true } else cd.doorA
  doorB := if d = .b then { isOpen := true, latch := true } else cd.doorB
  doorMail := if d = .mail then { isOpen := true, latch := true } else cd.doorMail }

/-- The state once the directory has taken a door's opening edge. -/
def behindOpened (d : Door) (s : State) : State := { s with cd := withoutPlaces (placesBehind d) (doorOpened d s.cd) }

theorem openDoor_eq (d : Door) (s : State) :
    openDoor d (s.setDoor d { s.cd.door d with isOpen := true }) = behindOpened d s := by
  unfold openDoor behindOpened
  rw [vacate_fold]
  cases d <;> rfl

theorem behindOpened_lost (d : Door) (s : State) : Lost s.cd (behindOpened d s).cd (behind d) :=
  lost_congr (lost_withoutPlaces (placesBehind d) (after := doorOpened d s.cd) lost_nothing) fun p => by
    rw [false_or, mem_placesBehind]

end Sys2Proof.Proofs.Orders
end

section
/-! PROOFS. Settling the edges of the doors (R144, R149, R153, R160, R162). -/
namespace Sys2Proof.Proofs.Orders
open Sys2Proof Sys2Proof.Machine Sys2Proof.Safety Sys2Proof.Laws
open Sys2Proof.Proofs.Requests Sys2Proof.Proofs.Places

section Signal
variable {s : State} {d : Door} {o : Order} {rest : List Order} {step : ActiveStep} {p : PlaceId}

/-- An order names each place that carries its field, formed or not. -/
theorem orderPlaces_named (h : p ∈ s.orderPlaces o) : orderNames s o p := by
  unfold State.orderPlaces at h
  unfold orderNames
  cases hs : o.scope with
  | none =>
    rw [hs] at h
    rcases List.mem_append.mp h with h | h
    · exact .inl (Option.mem_toList.mp h)
    · exact .inr (.inl (Option.mem_toList.mp h))
  | some sc =>
    rw [hs] at h
    refine .inr (.inr ?_)
    cases sc <;> exact mem_scopePlaces.mp h

/-- A door that concerns no active order. -/
theorem signalDoor_ignored (hf : loaderFree s)
    (h : ∀ o rest, s.lc.queue = o :: rest → o.active = true → ∀ p ∈ s.orderPlaces o, ¬ behind d p) : signalDoor d s = s := by
  have hw : ¬ s.loaderWaits = true := by rw [ownerReady_loader hf]; decide
  refine (if_neg hw).trans ?_
  unfold loaderDoor State.activeOrder
  cases hq : s.lc.queue with
  | nil => rfl
  | cons o rest =>
    dsimp only
    cases ha : o.active with
    | false => rfl
    | true =>
      refine if_neg fun hany => ?_
      obtain ⟨p, hp, hd⟩ := List.any_eq_true.mp hany
      exact h o rest hq ha p hp (doorOf_eq_iff.mp (of_decide_eq_true hd))

/-- A gripper step's place is lost when the step is interrupted; without one nothing changes. -/
theorem interruptGripper_lost (hq : s.lc.queue = o :: rest) (ha : o.active = true) (hs : s.lc.step = some step)
    (hw : ¬ worksAt step o pickerPlace) (hl : pickerLoaded s ↔ s.lc.lines.cartridgePresent = true) : ∃ ps,
    interruptGripper s = { s with cd := withoutPlaces ps s.cd } ∧ ∀ q, q ∈ ps ↔ worksAt step o q := by
  by_cases h : ∃ p, worksAt step o p
  · obtain ⟨p, hp⟩ := h
    have hne : p ≠ pickerPlace := fun e => hw (e ▸ hp)
    refine ⟨[p], ((interruptGripper_works hq ha hs hp).trans (sensePicker_vacate hne hl)).trans vacate_eq, fun q => ?_⟩
    rw [List.mem_singleton]
    refine ⟨fun e => e ▸ hp, fun hq => ?_⟩
    rcases hp with ⟨hk, hp⟩ | ⟨hk, hp⟩ <;> rcases hq with ⟨hk', hq⟩ | ⟨hk', hq⟩
    · exact Option.some.inj (hq.symm.trans hp)
    · cases hk.symm.trans hk'
    · cases hk.symm.trans hk'
    · exact Option.some.inj (hq.symm.trans hp)
  · have hplace : s.gripperPlace = none := by
      refine Option.eq_none_iff_forall_ne_some.mpr fun p hp => h ⟨p, ?_⟩
      unfold State.gripperPlace at hp
      rw [hs, activeOrder_eq hq ha] at hp
      dsimp only at hp
      split at hp
      · next hk => exact .inl ⟨hk, hp⟩
      · next hk => exact .inr ⟨hk, hp⟩
      · cases hp
    refine ⟨[], ?_, fun q => ⟨nofun, fun hq => absurd ⟨q, hq⟩ h⟩⟩
    unfold interruptGripper
    rw [hplace]
    exact sensePicker_agrees hl

/-- The state that an order which a door ends leaves the loader in. -/
def doorState (step : ActiveStep) : LoaderState := if step.kind = .homing ∨ step.kind = .travel then .unhomed else .idle

def doorStation (step : ActiveStep) (station : Option Int) : Option Int :=
  if step.kind = .homing ∨ step.kind = .travel then none else station

theorem signalDoor_ends (hf : loaderFree s) (hq : s.lc.queue = o :: rest) (ha : o.active = true) (hs : s.lc.step = some step)
    (hp : p ∈ s.orderPlaces o) (hd : behind d p) :
    signalDoor d s =
      failOrder .doorOpened (doorState step) (doorStation step (interruptGripper s).lc.station) (interruptGripper s) := by
  have hw : ¬ s.loaderWaits = true := by rw [ownerReady_loader hf]; decide
  have hany : ((s.orderPlaces o).any fun p => decide (doorOf p = some d)) = true :=
    List.any_eq_true.mpr ⟨p, hp, decide_eq_true (doorOf_eq_iff.mpr hd)⟩
  refine (if_neg hw).trans ?_
  unfold loaderDoor
  rw [activeOrder_eq hq ha]
  dsimp only
  rw [if_pos hany, hs]
  obtain ⟨kind, target, part⟩ := step
  cases kind <;> rfl

end Signal

/-! ## The edge -/

section Edge
variable {s : State} {d : Door} {o : Order} {rest : List Order} {step : ActiveStep} {p : PlaceId}

theorem takeEdge_opens (d : Door) (s : State) : takeEdge d (s.setDoor d { s.cd.door d with isOpen := true }) =
    post .directory (.doorOpened d (s.occupiedCount (placesBehind d))) (signalDoor d (behindOpened d s)) := by
  unfold takeEdge
  rw [openDoor_eq]
  cases d <;> rfl

theorem doorOpeningEdge_closed {x : Sample} (h : (s.cd.door d).isOpen = false) (hw : s.waiting .directory = false) :
    doorOpeningEdge d x s = post .directory (.doorOpened d ((s.observe x).occupiedCount (placesBehind d)))
      (signalDoor d (behindOpened d (s.observe x))) := by
  have hn : ¬ ((s.observe x).cd.door d).isOpen = true := by
    rw [show (s.observe x).cd.door d = s.cd.door d from rfl, h]; decide
  have hw' : ¬ ((s.observe x).setDoor d { (s.observe x).cd.door d with isOpen := true }).waiting .directory = true := by
    have e : ((s.observe x).setDoor d { (s.observe x).cd.door d with isOpen := true }).waiting .directory = s.waiting .directory := by
      cases d <;> rfl
    rw [e, hw]; decide
  rw [← takeEdge_opens]
  exact (if_neg hn).trans (if_neg hw')

theorem not_behind_picker : ¬ behind d pickerPlace := by
  cases d <;> simp [behind, pickerPlace]

/-- The PICKER is as it was when a door has opened. -/
theorem behindOpened_picker : pickerLoaded (behindOpened d s) ↔ pickerLoaded s := by
  have h := ((behindOpened_lost d s).1 pickerPlace).2 not_behind_picker
  unfold pickerLoaded
  rw [h]

end Edge

/-! ## The statement -/

section Settled
variable {s : State} {d : Door} {o : Order} {rest : List Order} {step : ActiveStep} {x : Sample}

/-- A door opens that concerns no active order. -/
theorem doorOpens_ignored (hopen : (s.cd.door d).isOpen = false) (hw : s.waiting .directory = false) (hf : loaderFree s)
    (h : ∀ o rest, s.lc.queue = o :: rest → o.active = false ∨ ∀ p, behind d p → ¬ orderNames s o p)
    (hroom : s.re.hasRoom = true) : doorOpeningEdge d x s = { behindOpened d (s.observe x) with
      re := { s.re with backlog := s.re.backlog ++ [.doorOpened d ((s.observe x).occupiedCount (placesBehind d))] } } := by
  have hsignal : signalDoor d (behindOpened d (s.observe x)) = behindOpened d (s.observe x) := by
    refine signalDoor_ignored hf fun o rest hq ha p hp hd => ?_
    rcases h o rest hq with h | h
    · rw [h] at ha
      cases ha
    · exact h p hd (orderPlaces_named hp)
  rw [doorOpeningEdge_closed hopen hw, hsignal]
  exact post_room hroom

/-- The directory once a door has opened and the places of `ps` have been lost too. -/
def openedWithout (d : Door) (ps : List PlaceId) (cd : Directory) : Directory :=
  withoutPlaces ps (withoutPlaces (placesBehind d) (doorOpened d cd))

theorem openedWithout_lost (ps : List PlaceId) (cd : Directory) :
    Lost cd (openedWithout d ps cd) fun p => behind d p ∨ p ∈ ps :=
  lost_congr (lost_withoutPlaces ps (lost_withoutPlaces (placesBehind d) (after := doorOpened d cd) lost_nothing)) fun p => by
    rw [false_or, mem_placesBehind]

theorem openedWithout_pending (ps : List PlaceId) (cd : Directory) (q : PlaceId) :
    (openedWithout d ps cd).places[q].pending = cd.places[q].pending :=
  (withoutPlaces_pending ps _ q).trans (withoutPlaces_pending (placesBehind d) _ q)

theorem openedWithout_rest (ps : List PlaceId) (cd : Directory) : openedWithout d ps cd = { doorOpened d cd with
    places := (openedWithout d ps cd).places, records := (openedWithout d ps cd).records } := by
  unfold openedWithout
  rw [withoutPlaces_rest, withoutPlaces_rest (placesBehind d)]

/-- A door opens and ends the active order: the state that the end of the order leaves, and the post of DOOR_OPENED. -/
theorem doorOpens_ends (hopen : (s.cd.door d).isOpen = false) (hw : s.waiting .directory = false) (hf : loaderFree s)
    (hq : s.lc.queue = o :: rest) (ha : o.active = true) (ho : orderFormed o) (hs : s.lc.step = some step)
    (hnames : ∃ p, orderNames s o p ∧ behind d p) (hworks : ¬ worksAt step o pickerPlace)
    (hl : pickerLoaded s ↔ x.lines.cartridgePresent = true) (hroom : roomFor s 2) : ∃ ps, (∀ q, q ∈ ps ↔ worksAt step o q) ∧
    doorOpeningEdge d x s = post .directory (.doorOpened d ((s.observe x).occupiedCount (placesBehind d)))
      (endedState { s.observe x with cd := openedWithout d ps s.cd } o rest (.fault .doorOpened) (doorState step)
        (doorStation step s.lc.station)) := by
  obtain ⟨p, hn, hb⟩ := hnames
  have hp : p ∈ (behindOpened d (s.observe x)).orderPlaces o :=
    (mem_orderPlaces (s := behindOpened d (s.observe x)) ho).mpr hn
  obtain ⟨ps, hint, hps⟩ := interruptGripper_lost (s := behindOpened d (s.observe x)) hq ha hs hworks
    ((behindOpened_picker (s := s.observe x)).trans hl)
  have hhas : s.re.hasRoom = true := by
    obtain ⟨hwait, hback⟩ := hroom
    simp only [RequestEngine.hasRoom, RequestEngine.used, hwait, List.length_nil, decide_eq_true_iff]
    split <;> omega
  refine ⟨ps, hps, ?_⟩
  rw [doorOpeningEdge_closed hopen hw, signalDoor_ends (s := behindOpened d (s.observe x)) hf hq ha hs hp hb, hint]
  exact congrArg (post .directory _) (endOrder_eq (s := { s.observe x with cd := openedWithout d ps s.cd }) hq hf hhas)

/-- The end of an order keeps the doors, and what the directory holds of them. -/
theorem endedState_doors {ps : List PlaceId} {outcome : OrderOutcome} {state : LoaderState} {station : Option Int} {t : State}
    (ht : t = endedState { s.observe x with cd := openedWithout d ps s.cd } o rest outcome state station)
    (hheld : s.cd.held = []) :
    t.cd = { doorOpened d s.cd with places := t.cd.places, records := t.cd.records } := by
  have hrest := congrArg (fun cd : Directory => { cd with
    places := t.cd.places
    held := cd.held.filter fun x => match x with | .label _ _ => false | .edge _ => true }) (openedWithout_rest (d := d) ps s.cd)
  have hnone : (doorOpened d s.cd).held = [] := hheld
  rw [ht] at hrest ⊢
  refine hrest.trans ?_
  dsimp only
  rw [hnone]
  rfl

/-- The state once a door has ended an order and DOOR_OPENED has joined, with the doors spelled out. -/
theorem doorEnded_eq {ps : List PlaceId} {freed : Nat} {state : LoaderState} {station : Option Int} {t : State}
    (ht : t = endedState { s.observe x with cd := openedWithout d ps s.cd } o rest (.fault .doorOpened) state station)
    (hs : s.lc.step = some step) (hheld : s.cd.held = []) :
    ({ t with re := { t.re with backlog := t.re.backlog ++ [.doorOpened d freed] } } : State) = { s.observe x with
      re := { s.re with backlog := s.re.backlog ++ [
        .orderDone o.tag o.kind (.fault .doorOpened) (some step.kind) (some step.station) state station,
        .doorOpened d freed] }
      cd := { doorOpened d s.cd with places := t.cd.places, records := t.cd.records }
      lc := t.lc } := by
  rw [← endedState_doors ht hheld]
  subst ht
  unfold endedState
  dsimp only
  rw [List.append_assoc, show (s.observe x).lc.step = some step from hs]
  rfl

theorem endedState_hasRoom {u : State} {outcome : OrderOutcome} {state : LoaderState} {station : Option Int}
    (h : roomFor u 2) : (endedState u o rest outcome state station).re.hasRoom = true := by
  obtain ⟨hwait, hback⟩ := h
  simp only [RequestEngine.hasRoom, RequestEngine.used, endedState, hwait, List.length_append, List.length_singleton, List.length_nil,
    decide_eq_true_iff]
  split <;> omega

end Settled

/-- Settles O50: the directory's own changes are `behindOpened`; a door that concerns the active order ends it in between. -/
theorem doorEdgesTaken : Obligations.DoorEdgesTaken := by
  refine ⟨fun s d hs => ?_, fun s d x hs hopen => ?_, fun s d x hs hopen hw hf => ?_⟩
  · have he : doorClosingEdge d s = { s with cd := match d with
        | .a => { s.cd with doorA := { s.cd.doorA with isOpen := false } }
        | .b => { s.cd with doorB := { s.cd.doorB with isOpen := false } }
        | .mail => { s.cd with doorMail := { s.cd.doorMail with isOpen := false } } } := by
      cases d <;> rfl
    exact runStep_next s _ (doorClosingEdge d) hs he
  · have hopen : (s.cd.door d).isOpen = true := by cases d <;> exact hopen
    exact runStep_next s _ (doorOpeningEdge d x) hs (if_pos hopen)
  · have hopen : (s.cd.door d).isOpen = false := by cases d <;> exact hopen
    intro doors
    refine ⟨fun h hroom => ?_, ?_⟩
    · obtain ⟨b, hb⟩ := runStep_next s _ (doorOpeningEdge d x) hs (doorOpens_ignored hopen hw hf h hroom)
      refine ⟨_, _, hb, ?_, ?_, occupiedCount_behind _ d, fun p => withoutPlaces_pending _ _ p⟩
      · have hrest := withoutPlaces_rest (placesBehind d) (doorOpened d s.cd)
        exact congrArg (fun cd : Directory => withStale b { s.observe x with
          re := { s.re with backlog := s.re.backlog ++ [.doorOpened d ((s.observe x).occupiedCount (placesBehind d))] }
          cd := cd }) hrest
      · exact behindOpened_lost d (s.observe x)
    · intro o rest step hq ha ho hstep hworks hnames hl hheld hroom moving state station
      obtain ⟨ps, hps, he⟩ := doorOpens_ends (x := x) hopen hw hf hq ha ho hstep hnames hworks hl hroom
      have hposted := post_room (unit := .directory) (r := .doorOpened d ((s.observe x).occupiedCount (placesBehind d)))
        (s := endedState { s.observe x with cd := openedWithout d ps s.cd } o rest (.fault .doorOpened) (doorState step)
          (doorStation step s.lc.station)) (endedState_hasRoom hroom)
      obtain ⟨b, hb⟩ := runStep_next s _ (doorOpeningEdge d x) hs (he.trans hposted)
      let u : State := { s.observe x with cd := openedWithout d ps s.cd }
      have hended := endedState_orderEnded (s := u) (rest := rest) (outcome := .fault .doorOpened) (state := doorState step)
        (station := doorStation step s.lc.station) ho b
      have hout := orderEnded_safe hended nofun
      obtain ⟨hrec, hqueue, hstate, hstn, hstp, hquiet, hplaces, -⟩ :=
        orderEnded_parts (s := s.observe x) hended rfl rfl hstep fun q => openedWithout_pending ps s.cd q
      have hlost : Lost s.cd (withStale b (endedState u o rest (.fault .doorOpened) (doorState step)
          (doorStation step s.lc.station))).cd fun p => behind d p ∨ worksAt step o p := by
        refine lost_of_states (lost_congr (openedWithout_lost ps s.cd) fun p => or_congr_right (hps p)) hrec fun q => ?_
        obtain ⟨hst, -⟩ := hplaces q
        exact hst
      refine ⟨_, _, hb, hlost, occupiedCount_behind (s.observe x) d, fun q => ?_, hqueue, hstate, hstn, hstp, hquiet, hout, ?_⟩
      · obtain ⟨-, hin, hnot⟩ := hplaces q
        exact ⟨hin, hnot⟩
      · exact congrArg (withStale b) (doorEnded_eq (d := d) (x := x) (ps := ps) rfl hstep hheld)

end Sys2Proof.Proofs.Orders
end

section
/-! PROOFS. The label link (R160): what each byte, timeout and retry leads to. -/
namespace Sys2Proof.Proofs.Orders
open Sys2Proof Sys2Proof.Machine Sys2Proof.Safety Sys2Proof.Laws
open Sys2Proof.Proofs.Requests Sys2Proof.Proofs.Places

/-! ## The check byte -/

/-- The sum of bytes modulo 256. -/
theorem byteSum_toNat (bs : List Byte) : (byteSum bs).toNat = (bs.map fun b => b.toNat).sum % 256 := by
  have h (c : Byte) : (bs.foldl (· + ·) c).toNat = (c.toNat + (bs.map fun b => b.toNat).sum) % 256 := by
    induction bs generalizing c with
    | nil => simp [Nat.mod_eq_of_lt c.isLt]
    | cons b bs ih =>
      rw [List.foldl_cons, ih, BitVec.toNat_add, List.map_cons, List.sum_cons]
      omega
  exact (h 0).trans (by simp)

theorem byteSum_eq_iff {bs : List Byte} {b : Byte} : byteSum bs = b ↔ b.toNat = (bs.map fun u => u.toNat).sum % 256 := by
  rw [← byteSum_toNat, ← BitVec.toNat_inj, eq_comm]

theorem label_ofFn (label : Label) : (Vector.ofFn fun i : Fin 8 => label.toList.getD i.val 0) = label := by
  refine Vector.ext fun i hi => ?_
  simp

/-! ## Bytes received -/

section Bytes
variable {s : State} {x : Sample} {b : Byte} {m : Exchange} {label : Label}

theorem labelExchange_open (h : s.lc.exchange = some m) (hs : m.stopped = false) :
    labelExchange b x s = receiveByte b (s.observe x) := by
  unfold labelExchange
  dsimp only
  rw [show (s.observe x).lc.exchange = some m from h]
  exact if_neg (by rw [hs]; decide)

theorem labelExchange_stopped (h : s.lc.exchange = some m) (hs : m.stopped = true) :
    labelExchange b x s = stoppedExchangeOver (s.observe x) := by
  unfold labelExchange
  dsimp only
  rw [show (s.observe x).lc.exchange = some m from h]
  exact if_pos hs

theorem labelExchange_none (h : s.lc.exchange = none) : labelExchange b x s = s.observe x := by
  unfold labelExchange
  dsimp only
  rw [show (s.observe x).lc.exchange = none from h]

theorem exchangeTimeout_expires (h : s.lc.exchange = some m)
    (ht : m.limit.started + m.limit.length ≤ (s.observe x).timebase) :
    exchangeTimeout x s = if m.stopped then stoppedExchangeOver (s.observe x) else attemptFailed (s.observe x) := by
  have he : (s.observe x).expired (some m.limit) = true := decide_eq_true ht
  unfold exchangeTimeout
  dsimp only
  rw [show (s.observe x).lc.exchange = some m from h]
  exact if_pos he

theorem retryTimer_expires {m : Timer} (h : s.lc.retryTimer = some m) (ht : m.started + m.length ≤ (s.observe x).timebase) :
    retryTimer x s = startAttempt (s.observe x) := by
  have he : (s.observe x).expired (s.observe x).lc.retryTimer = true := by
    rw [show (s.observe x).lc.retryTimer = some m from h]
    exact decide_eq_true ht
  exact if_pos he

theorem receiveByte_status (h : s.lc.received = []) : receiveByte b s =
    if b = 1 then startExchange labelByte { s with lc := { s.lc with received := [b] } }
    else if b = 2 then readEnded none s else attemptFailed s := by
  unfold receiveByte
  dsimp only
  rw [h]
  rfl

theorem receiveByte_character (h : s.lc.received ≠ []) (hn : s.lc.received.length < 9) :
    receiveByte b s = startExchange labelByte { s with lc := { s.lc with received := s.lc.received ++ [b] } } := by
  have hlen : (s.lc.received ++ [b]).length < 10 := by
    rw [List.length_append, List.length_singleton]
    omega
  unfold receiveByte
  dsimp only
  rw [if_neg (mt List.isEmpty_iff.mp h), if_pos hlen]

theorem receiveByte_check (h : s.lc.received = 1 :: label.toList) : receiveByte b s =
    if b.toNat = (label.toList.map fun u => u.toNat).sum % 256 then readEnded (if labelOk label then some label else none) s
    else attemptFailed s := by
  have hchars : ((s.lc.received ++ [b]).drop 1).take 8 = label.toList := by
    rw [h, List.cons_append, List.drop_succ_cons, List.drop_zero]
    exact List.take_left' (by simp)
  have hlen : ¬ (s.lc.received ++ [b]).length < 10 := by
    rw [h]
    simp
  unfold receiveByte
  dsimp only
  rw [if_neg (by rw [h]; exact Bool.false_ne_true), if_neg hlen, hchars, label_ofFn]
  exact if_congr byteSum_eq_iff rfl rfl

theorem attemptFailed_retries (h : s.lc.attempt < 5) : attemptFailed s = { s with lc := { s.lc with
    received := [], exchange := none, retryTimer := some { started := s.timebase, length := 20000 } } } :=
  if_neg (Nat.not_le.mpr h)

theorem attemptFailed_last (h : 5 ≤ s.lc.attempt) : attemptFailed s = readEnded none s := if_pos h

theorem labelOk_iff : labelOk label = true ↔ ∀ u ∈ label.toList, 0x20 ≤ u.toNat ∧ u.toNat ≤ 0x7E := by
  unfold labelOk
  simp only [List.all_eq_true, decide_eq_true_iff]

/-- The label that a good check byte gives. -/
theorem readable_result {result : Option Label}
    (hgood : (∀ u ∈ label.toList, 0x20 ≤ u.toNat ∧ u.toNat ≤ 0x7E) → result = some label)
    (hbad : (∃ u ∈ label.toList, u.toNat < 0x20 ∨ 0x7E < u.toNat) → result = none) :
    (if labelOk label then some label else none) = result := by
  by_cases h : labelOk label = true
  · rw [if_pos h, hgood (labelOk_iff.mp h)]
  · rw [if_neg h, hbad]
    by_contra hno
    refine h (labelOk_iff.mpr fun u hu => ?_)
    by_contra hout
    exact hno ⟨u, hu, by omega⟩

/-- The end of a stopped exchange leaves the link IDLE when no read waits for it. -/
theorem stoppedExchangeOver_idle (h : ∀ y, s.lc.step = some y → y.part ≠ .reading) : stoppedExchangeOver s = { s with
    lc := { s.lc with exchange := none, exchanging := false, attempt := 0, received := [] } } := by
  rcases stoppedExchangeOver_spec s with ⟨hr, -⟩ | ⟨-, he⟩
  · obtain ⟨y, hy, hr⟩ := (Option.any_eq_true _ _).mp hr
    exact absurd (of_decide_eq_true hr) (h y hy)
  · exact he

/-- The end of a stopped exchange begins the read that waits for it. -/
theorem stoppedExchangeOver_reads (h : ∃ y, s.lc.step = some y ∧ y.part = .reading) : stoppedExchangeOver s = startAttempt s := by
  obtain ⟨y, hy, hr⟩ := h
  refine if_pos ?_
  rw [hy]
  exact decide_eq_true hr

end Bytes

end Sys2Proof.Proofs.Orders
end

section
/-! PROOFS. Label reads handed to the directory (R142, R143, R145), and how the order goes on. -/
namespace Sys2Proof.Proofs.Orders
open Sys2Proof Sys2Proof.Machine Sys2Proof.Safety Sys2Proof.Laws
open Sys2Proof.Proofs.Requests Sys2Proof.Proofs.Places

/-! ## What the directory takes -/

section Taken
variable {s : State} {p : PlaceId} {label : Option Label} {cd : Directory} {reports : List Report}

/-- The state once the directory has taken a label. -/
def labelled (s : State) (cd : Directory) (reports : List Report) : State := { s with
  cd := cd, re := { s.re with backlog := s.re.backlog ++ reports } }

theorem takeLabel_record {c : CartId} {y : CartRecord} (hp : s.cd.places[p].state = .occupied c) (hy : s.cd.records[c] = some y) :
    takeLabel p label s = if y.label = label then s
      else post .directory (.labelChanged p c y.label label) { s with cd := { s.cd with
        records := s.cd.records.set c (some (y.relabel label)) } } := by
  have hlabel : s.cartLabel c = y.label := by
    unfold State.cartLabel
    rw [hy]
    rfl
  unfold takeLabel State.placeState
  rw [hp]
  dsimp only
  rw [hlabel]
  unfold State.modCart
  rw [hy]
  rfl

theorem takeLabel_new (hp : ∀ c, s.cd.places[p].state ≠ .occupied c) : takeLabel p label s = newCartridge p label s := by
  unfold takeLabel State.placeState
  split
  · next c hc => exact absurd hc (hp c)
  · rfl

/-- The directory takes a label as `labelTakenBy` says, when what it posts has room. -/
theorem takeLabel_eq (h : labelTakenBy s.cd p label cd reports) (hroom : s.re.hasRoom = true) :
    takeLabel p label s = labelled s cd reports := by
  have hnone : labelled s s.cd [] = s := by
    unfold labelled
    rw [List.append_nil]
  rcases h with ⟨c, y, hp, hy, ⟨hl, rfl, rfl⟩ | ⟨hl, rfl, rfl⟩⟩ | ⟨hp, rfl, d, hd, rfl⟩
  · rw [takeLabel_record hp hy, if_pos hl, hnone]
  · rw [takeLabel_record hp hy, if_neg hl]
    exact post_room hroom
  · rw [takeLabel_new hp, newCartridge_eq hd]
    unfold labelled
    rw [List.append_nil]
    rfl

theorem labelTakenBy_posts (h : labelTakenBy s.cd p label cd reports) : reports.length ≤ 1 := by
  rcases h with ⟨c, y, -, -, ⟨-, -, rfl⟩ | ⟨-, rfl, -⟩⟩ | ⟨-, rfl, -⟩
  · exact Nat.zero_le 1
  · exact Nat.le_refl 1
  · exact Nat.zero_le 1

/-- A label leaves the doors as they are. -/
theorem labelTakenBy_doors (h : labelTakenBy s.cd p label cd reports) :
    cd.doorA = s.cd.doorA ∧ cd.doorB = s.cd.doorB ∧ cd.doorMail = s.cd.doorMail := by
  rcases h with ⟨c, y, -, -, ⟨-, rfl, -⟩ | ⟨-, -, rfl⟩⟩ | ⟨-, -, d, -, rfl⟩ <;> exact ⟨rfl, rfl, rfl⟩

end Taken

/-! ## The read that ends -/

section Read
variable {s : State} {o : Order} {rest : List Order} {step : ActiveStep} {p q : PlaceId} {i : Int} {label : Option Label}

/-- The state once a read's result has been handed to the directory: the link is IDLE. -/
def handedOver (s : State) (step : ActiveStep) : State := { s with lc := { s.lc with
  step := some { step with part := .labelHanded }
  exchange := none, exchanging := false, attempt := 0, received := [], retryTimer := none } }

theorem readEnded_eq (hs : s.lc.step = some step) (hst : s.lc.station = some i)
    (hp : (step.kind = .labelRead ∧ p = pickerPlace) ∨ (step.kind = .survey ∧ i = p.val)) :
    readEnded label s = if s.waiting .directory then
        { handedOver s step with cd := { s.cd with held := s.cd.held ++ [.label p label] } }
      else labelTaken p label (handedOver s step) := by
  unfold readEnded
  rw [hs]
  obtain ⟨kind, target, part⟩ := step
  rcases hp with ⟨hk, rfl⟩ | ⟨hk, rfl⟩
  · obtain rfl : kind = .labelRead := hk
    rw [Option.map_some]
    unfold modLoader
    dsimp only
    rw [hs]
    rfl
  · obtain rfl : kind = .survey := hk
    rw [Option.map_some]
    unfold modLoader
    dsimp only
    rw [hs, stationPlace_eq hst]
    rfl

/-- The order that waited for a label goes on: the part of `labelDone` that a kind of step decides. -/
theorem labelDone_eq (hs : s.lc.step = some step) (hp : step.part = .labelHanded) :
    (∀ q, step.kind = .labelRead → s.activeOrder.bind (fun o => o.target) = some q →
      labelDone s = startTravel (placeStation q) s) ∧ (step.kind = .survey → labelDone s = surveyNext s) := by
  unfold labelDone
  rw [hs]
  dsimp only
  rw [if_pos hp]
  refine ⟨fun q hk ht => ?_, fun hk => ?_⟩
  · rw [hk]
    dsimp only
    rw [ht]
  · rw [hk]

/-- The survey goes on to the next station of the scope. -/
theorem surveyNext_travels {scope : Scope} (hq : s.lc.queue = o :: rest) (ha : o.active = true) (hsc : o.scope = some scope)
    (ho : orderFormed o) (hst : s.lc.station = some (placeStation p)) (hn : orderNames s o q) (hlt : p.val < q.val)
    (hfirst : ∀ r, orderNames s o r → p.val < r.val → q.val ≤ r.val) :
    surveyNext s = { s with lc := travelBegun s (placeStation p) q } := by
  have hmem {r : PlaceId} := mem_scopeRest (q := r) hq ha hsc ho hst
  have hhead : s.scopeRest.head? = some q := by
    obtain ⟨f, hf⟩ : ∃ f, s.scopeRest = (List.finRange 30).filter f := by
      unfold State.scopeRest
      rw [activeOrder_eq hq ha, Option.bind_some, hsc]
      unfold scopePlaces
      exact ⟨_, List.filter_filter⟩
    rw [hf] at hmem ⊢
    refine head?_filter_finRange (hmem.mpr ⟨hn, hlt⟩) fun r hr => ?_
    obtain ⟨hr, hlr⟩ := hmem.mp hr
    exact hfirst r hr hlr
  obtain ⟨tail, htail⟩ : ∃ tail, s.scopeRest = q :: tail := by
    cases h : s.scopeRest with
    | nil => rw [h] at hhead; cases hhead
    | cons r tail => rw [h] at hhead; exact ⟨tail, by rw [Option.some.inj hhead]⟩
  unfold surveyNext
  rw [htail]
  exact beginMotion_eq hst

end Read

/-! ## The statement -/

section Results
variable {s : State} {o : Order} {rest : List Order} {step : ActiveStep} {p : PlaceId} {i : Int} {label : Option Label}
  {cd : Directory} {reports : List Report}

/-- The result of a read is held while the directory's post waits. -/
theorem readEnded_held (hs : s.lc.step = some step) (hst : s.lc.station = some i)
    (hp : (step.kind = .labelRead ∧ p = pickerPlace) ∨ (step.kind = .survey ∧ i = p.val)) (hw : s.waiting .directory = true) :
    readEnded label s = { handedOver s step with cd := { s.cd with held := s.cd.held ++ [.label p label] } } := by
  rw [readEnded_eq hs hst hp, if_pos hw]

variable (hs : s.lc.step = some step) (hst : s.lc.station = some i)
  (hp : (step.kind = .labelRead ∧ p = pickerPlace) ∨ (step.kind = .survey ∧ i = p.val)) (hw : s.waiting .directory = false)
  (ht : labelTakenBy s.cd p label cd reports) (hroom : s.re.hasRoom = true)
include hs hst hp hw ht hroom

/-- The directory takes the result of a read, and the order goes on. -/
theorem readEnded_taken : readEnded label s = labelDone (labelled (handedOver s step) cd reports) := by
  have hn : ¬ s.waiting .directory = true := by rw [hw]; decide
  rw [readEnded_eq hs hst hp, if_neg hn]
  unfold labelTaken
  rw [takeLabel_eq (s := handedOver s step) ht hroom]
  exact if_neg hn

variable (hq : s.lc.queue = o :: rest) (ha : o.active = true) (ho : orderFormed o)
include hq ha ho

theorem readEnded_travels {q : PlaceId} (hne : i ≠ q.val)
    (hgo : (step.kind = .labelRead ∧ o.target = some q) ∨ (step.kind = .survey ∧ o.scope ≠ none ∧ orderNames s o q ∧ p.val < q.val
      ∧ ∀ r, orderNames s o r → p.val < r.val → q.val ≤ r.val)) :
    readEnded label s = { labelled (handedOver s step) cd reports with
      lc := travelBegun (labelled (handedOver s step) cd reports) i q } := by
  obtain ⟨hget, hsurvey⟩ := labelDone_eq (s := labelled (handedOver s step) cd reports)
    (step := { step with part := .labelHanded }) rfl rfl
  rw [readEnded_taken hs hst hp hw ht hroom]
  rcases hgo with ⟨hk, htgt⟩ | ⟨hk, hsc, hn, hlt, hfirst⟩
  · have hbind : (labelled (handedOver s step) cd reports).activeOrder.bind (fun o => o.target) = some q := by
      rw [activeOrder_eq (s := labelled (handedOver s step) cd reports) hq ha]
      exact htgt
    exact (hget q hk hbind).trans (startTravel_eq (s := labelled (handedOver s step) cd reports) hst hne)
  · obtain ⟨scope, hsc⟩ := Option.ne_none_iff_exists'.mp hsc
    have hi : i = placeStation p := by
      rcases hp with ⟨hk', -⟩ | ⟨-, hi⟩
      · cases hk.symm.trans hk'
      · exact hi
    subst hi
    exact (hsurvey hk).trans (surveyNext_travels (s := labelled (handedOver s step) cd reports) hq ha hsc ho hst hn hlt hfirst)

omit hroom in
theorem readEnded_ends {scope : Scope} (hk : step.kind = .survey) (hsc : o.scope = some scope)
    (hlast : ∀ r, orderNames s o r → r.val ≤ p.val) (hf : loaderFree s) (hroom : roomFor s 2) :
    readEnded label s = endedState { labelled (handedOver s step) cd reports with cd := latchCleared scope cd } o rest .done .idle
      (some i) := by
  obtain ⟨-, hsurvey⟩ := labelDone_eq (s := labelled (handedOver s step) cd reports)
    (step := { step with part := .labelHanded }) rfl rfl
  have hposts := labelTakenBy_posts ht
  obtain ⟨hwait, hback⟩ := hroom
  have hhas : s.re.hasRoom = true := by
    simp only [RequestEngine.hasRoom, RequestEngine.used, hwait, List.length_nil, decide_eq_true_iff]
    split <;> omega
  have hhas' : (labelled (handedOver s step) cd reports).re.hasRoom = true := by
    simp only [RequestEngine.hasRoom, RequestEngine.used, labelled, handedOver, hwait, List.length_nil, List.length_append,
      decide_eq_true_iff]
    split <;> omega
  have hi : i = placeStation p := by
    rcases hp with ⟨hk', -⟩ | ⟨-, hi⟩
    · cases hk.symm.trans hk'
    · exact hi
  rw [readEnded_taken hs hst hp hw ht hhas, hsurvey hk,
    surveyNext_done (s := labelled (handedOver s step) cd reports) hq ha hsc ho (hst.trans (congrArg some hi)) hlast]
  rw [← hst]
  exact endOrder_eq (s := { labelled (handedOver s step) cd reports with cd := latchCleared scope cd }) hq hf hhas'

end Results

/-- Settles O58: every way an exchange ends is one of the link's equations, and a result goes the way of `readEnded`. -/
theorem labelLinkEventsTaken : Obligations.LabelLinkEventsTaken := by
  intro s x hs a exchange open' sum unsuccessful reads idle
  have hopen (b : Byte) : open' → labelExchange b x s = receiveByte b a := fun ⟨m, hm, hstop⟩ => labelExchange_open hm hstop
  have hfails (c : Instr) : unsuccessful c → ∃ f, exec c s = runStep s f ∧ f s = attemptFailed a := by
    rintro (⟨b, rfl, ho, hr, h1, h2⟩ | ⟨b, label, rfl, ho, hr, hb⟩ | ⟨rfl, m, hm, hstop, ht⟩)
    · exact ⟨labelExchange b x, rfl, (hopen b ho).trans ((receiveByte_status (s := a) hr).trans
        ((if_neg h1).trans (if_neg h2)))⟩
    · exact ⟨labelExchange b x, rfl, (hopen b ho).trans ((receiveByte_check (s := a) hr).trans (if_neg hb))⟩
    · exact ⟨exchangeTimeout x, rfl, (exchangeTimeout_expires hm ht).trans (if_neg (by rw [hstop]; decide))⟩
  have hreads (c : Instr) (result : Option Label) : reads c result → ∃ f, exec c s = runStep s f ∧ f s = readEnded result a := by
    rintro (⟨b, label, rfl, ho, hr, hb, hgood, hbad⟩ | ⟨rfl, ho, hr, rfl⟩ | ⟨hc, hlast, rfl⟩)
    · refine ⟨labelExchange b x, rfl, (hopen b ho).trans ((receiveByte_check (s := a) hr).trans ((if_pos hb).trans ?_))⟩
      exact congrArg (readEnded · a) (readable_result hgood hbad)
    · exact ⟨labelExchange 2 x, rfl, (hopen 2 ho).trans (receiveByte_status (s := a) hr)⟩
    · obtain ⟨f, hexec, he⟩ := hfails c hc
      exact ⟨f, hexec, he.trans (attemptFailed_last (s := a) hlast)⟩
  refine ⟨fun b hn => ?_, fun ho hr => ?_, fun b ho hr hn => ?_, fun c hc hn => ?_, fun m hm ht => ?_, fun m b hm hstop => ?_, ?_⟩
  · exact runStep_next s _ (labelExchange b x) hs (labelExchange_none hn)
  · exact runStep_next s _ (labelExchange 1 x) hs ((hopen 1 ho).trans (receiveByte_status (s := a) hr))
  · exact runStep_next s _ (labelExchange b x) hs ((hopen b ho).trans (receiveByte_character (s := a) hr hn))
  · obtain ⟨f, hexec, he⟩ := hfails c hc
    rw [hexec]
    exact runStep_next s _ f hs (he.trans (attemptFailed_retries (s := a) hn))
  · exact runStep_next s _ (retryTimer x) hs (retryTimer_expires hm ht)
  · have hends (f : State → State) (he : f s = stoppedExchangeOver a) :
        ((∀ y, s.lc.step = some y → y.part ≠ .reading) → ∃ z, runStep s f = .next (withStale z { a with lc := { a.lc with
          exchange := none, exchanging := false, attempt := 0, received := [] } }))
        ∧ ((∃ y, s.lc.step = some y ∧ y.part = .reading) → ∃ z, runStep s f = .next (withStale z { a with lc := { a.lc with
          attempt := s.lc.attempt + 1, received := [], exchange := some (exchange 0x4C), retryTimer := none } })) :=
      ⟨fun hn => runStep_next s _ f hs (he.trans (stoppedExchangeOver_idle (s := a) hn)),
        fun hr => runStep_next s _ f hs (he.trans (stoppedExchangeOver_reads (s := a) hr))⟩
    exact ⟨hends (labelExchange b x) (labelExchange_stopped hm hstop),
      fun ht => hends (exchangeTimeout x) ((exchangeTimeout_expires hm ht).trans (if_pos hstop))⟩
  · intro c result o rest step p i hc hstep hpart hq ha ho hst hp handed
    obtain ⟨f, hexec, he⟩ := hreads c result hc
    rw [hexec]
    refine ⟨fun hw => runStep_next s _ f hs (he.trans (readEnded_held (s := a) hstep hst hp hw)), fun cd reports hw ht => ?_⟩
    intro taken
    refine ⟨fun q hroom hne hgo => ?_, fun scope hk hsc hlast hf hroom => ?_⟩
    · exact runStep_next s _ f hs (he.trans (readEnded_travels (s := a) hstep hst hp hw ht hroom hq ha ho hne hgo))
    · obtain ⟨b, hb⟩ := runStep_next s _ f hs
        (he.trans (readEnded_ends (s := a) hstep hst hp hw ht hq ha ho hk hsc hlast hf hroom))
      obtain ⟨hdoorA, hdoorB, hdoorMail⟩ := labelTakenBy_doors ht
      refine ⟨_, hb, orderEnded_of (s := taken) (u := { taken with cd := latchCleared scope cd }) ho rfl rfl rfl rfl rfl rfl b,
        ?_, ?_, ?_⟩
      · exact congrArg (doorCleared scope .a) hdoorA
      · exact congrArg (doorCleared scope .b) hdoorB
      · exact congrArg (doorCleared scope .mail) hdoorMail

end Sys2Proof.Proofs.Orders
end

section
/-! PROOFS. The backlog (R22): what a report that joins it sets going. -/
namespace Sys2Proof.Proofs.Backlog
open Sys2Proof Sys2Proof.Machine Sys2Proof.Safety Sys2Proof.Laws

/-! ## The waiter that joins -/

section Joins
variable {s u : State} {x : Sample} {unit : Poster} {report : Report} {rest : List Waiter}

/-- The sampled state in which a report has joined the backlog, followed by others. -/
def joined (s : State) (x : Sample) (rest : List Waiter) (reports : List Report) : State := { s.observe x with
  re := { s.re with waiters := rest, backlog := s.re.backlog ++ reports } }

theorem waiting_rest {p : Poster} (hw : s.re.waiters = rest) (h : ∀ w ∈ rest, w.unit ≠ p) : s.waiting p = false := by
  unfold State.waiting
  rw [hw, List.any_eq_false]
  exact fun w hm => by simpa using h w hm

/-- With no request in hand and no pending RING_FAULT the Request Engine has nothing to go on with. -/
theorem requestAdvance_idle (hh : u.re.inHand = none) (hp : u.re.pendingRingFault = none) : requestAdvance u = u := by
  unfold requestAdvance
  rw [hp]
  dsimp only
  rw [hh]
  split
  · rfl
  · rfl

theorem backlogAdmit_joins (hw : s.re.waiters = { unit := unit, item := .post report } :: rest) (hu : s.re.used < 64) :
    backlogAdmit x s = requestAdvance (unitJoined unit (joined s x rest [report])) := by
  unfold backlogAdmit
  rw [hw]
  exact if_pos hu

theorem backlogAdmit_still (h : s.re.waiters = [] ∨ 64 ≤ s.re.used) : backlogAdmit x s = s := by
  unfold backlogAdmit
  split
  · rfl
  · next w rest hw =>
    rcases h with h | h
    · rw [h] at hw
      cases hw
    · exact if_neg (Nat.not_lt.mpr h)

/-- The step in which a report joins: what its unit makes of it is the state that the step leaves. -/
theorem next_joins (hs : running s) (hw : s.re.waiters = { unit := unit, item := .post report } :: rest) (hu : s.re.used < 64)
    (he : unitJoined unit (joined s x rest [report]) = u) (hh : u.re.inHand = none) (hp : u.re.pendingRingFault = none) :
    ∃ b, exec (.backlogAdmit x) s = .next (withStale b u) := by
  refine runStep_next s _ (backlogAdmit x) hs ?_
  rw [backlogAdmit_joins hw hu, he, requestAdvance_idle hh hp]

/-- The Request Engine's reservation is taken, and a request of no kind is answered. -/
theorem backlogAdmit_badKind {r : List Byte} (hw : s.re.waiters = { unit := .requestEngine, item := .reservation } :: rest)
    (hrest : ∀ w ∈ rest, w.unit ≠ .requestEngine) (hb : s.re.backlog.length < 64) (hres : s.re.reservation = false)
    (hh : s.re.inHand = some { bytes := r, reserved := false }) (hp : s.re.pendingRingFault = none) (hk : recordKind r = none) :
    backlogAdmit x s = answered .badKind r { s.observe x with re := { s.re with waiters := rest } } := by
  have hu : s.re.used < 64 := by
    unfold RequestEngine.used
    rw [hres]
    exact hb
  let v : State := joinBacklog .reservation { s.observe x with re := { s.re with waiters := rest } }
  have hv : v.re.inHand = some (({ bytes := r, reserved := false } : InHand).reserve
      { s.observe x with re := { s.re with waiters := rest } }) := congrArg (Option.map _) hh
  have hadvance : requestAdvance v = decideRequest r v := by
    have hwait : v.waiting .requestEngine = false := waiting_rest (s := v) rfl hrest
    unfold requestAdvance
    rw [show v.re.pendingRingFault = none from hp]
    dsimp only
    rw [hwait, hv]
    rfl
  have hdecide : decideRequest r v = answer .badKind r v := by
    unfold decideRequest
    rw [hk]
  have hadmit : backlogAdmit x s = requestAdvance v := by
    unfold backlogAdmit
    rw [hw]
    exact if_pos hu
  rw [hadmit, hadvance, hdecide]
  rfl

/-- A stream's OVERRUN joins and its accept limit is recomputed. -/
theorem streamJoins {i : StreamId} (hrest : ∀ w ∈ rest, w.unit ≠ .stream i) :
    recomputeLimit i (joined s x rest [report]) = { joined s x rest [report] with
      wd := { s.wd with streamAperture := s.wd.streamAperture.set i { s.wd.streamAperture[i] with
        limit := match s.streams[i].phase with
          | .free => 0
          | .closing => s.wd.streamAperture[i].expected
          | .opened => s.wd.streamAperture[i].expected + BitVec.ofNat 32 s.streams[i].space } } } := by
  have hwait : (joined s x rest [report]).waiting (.stream i) = false := waiting_rest rfl hrest
  have hlimit : (joined s x rest [report]).streamLimit i = match s.streams[i].phase with
      | .free => 0
      | .closing => s.wd.streamAperture[i].expected
      | .opened => s.wd.streamAperture[i].expected + BitVec.ofNat 32 s.streams[i].space := by
    unfold State.streamLimit
    rw [hwait]
    rfl
  unfold recomputeLimit
  rw [hlimit]
  rfl

end Joins

end Sys2Proof.Proofs.Backlog
end

section
/-! PROOFS. The backlog (R22): a Lane Unit's and the Job Table's reports. -/
namespace Sys2Proof.Proofs.Backlog
open Sys2Proof Sys2Proof.Machine Sys2Proof.Safety Sys2Proof.Laws
open Sys2Proof.Proofs.Copying Sys2Proof.Proofs.Beginning

/-! ## A Lane Unit's GROUP_READY (R82) -/

section Lane
variable {s : State} {n : LaneId}

/-- A Lane Unit without held signals goes on with its packer and then with the final-byte signals it has held. -/
theorem laneJoined_of {u v : State} {ks : List Nat} (hu : resumePacker n s = u) (hr : u.lanes[n].heldReads = ks)
    (hv : takeHeldReads n ks.length u = v) (hs : v.lanes[n].heldSignals = []) : laneJoined n s = v := by
  subst hu hr hv
  unfold laneJoined
  dsimp only
  rw [hs]
  rfl

/-- A final-byte signal that a Lane Unit has held finds its slot OPEN: a misordered read. -/
theorem laneJoined_misordered {q : Nat} {g : Word} (hw : s.waiting (.laneUnit n) = false) (hp : s.lanes[n].packing = none)
    (hr : s.lanes[n].heldReads = [q]) (hq : s.lanes[n].slots[q]? = some (.opened g)) (hs : s.lanes[n].heldSignals = []) :
    laneJoined n s = { s with lanes := s.lanes.set n { s.lanes[n] with
      heldReads := []
      counters := { s.lanes[n].counters with misordered := satInc s.lanes[n].counters.misordered } } } := by
  have hresume : resumePacker n s = s := by
    unfold resumePacker
    rw [hp]
  let u : State := s.modLane n fun l => { l with heldReads := [] }
  have hu : u.lanes[n] = { s.lanes[n] with heldReads := [] } := Vector.getElem_set_self n.isLt
  have htake : takeFinalByte n q u = u.modLane n fun l =>
      { l with counters := { l.counters with misordered := satInc l.counters.misordered } } := by
    unfold takeFinalByte
    rw [show u.lanes[n].slots[q]? = some (.opened g) by rw [hu]; exact hq]
  have hmod : (u.modLane n fun l => { l with counters := { l.counters with misordered := satInc l.counters.misordered } }) =
      { s with lanes := s.lanes.set n { s.lanes[n] with
        heldReads := []
        counters := { s.lanes[n].counters with misordered := satInc s.lanes[n].counters.misordered } } } := by
    unfold State.modLane
    rw [hu]
    exact congrArg (fun v => ({ s with lanes := v } : State)) (Vector.set_set _ n.isLt)
  have hreads : takeHeldReads n 1 s = takeFinalByte n q u := by
    conv_lhs => unfold takeHeldReads
    rw [hw, hr]
    rfl
  refine laneJoined_of hresume hr (hreads.trans (htake.trans hmod)) ?_
  exact (congrArg Lane.heldSignals (Vector.getElem_set_self n.isLt)).trans hs

/-- The lane once its packer has opened the next slot and its segment has begun or goes on. -/
def resumedLane (time : Nat) (k : Packing) (l : Lane) : Lane := { l with
  slots := l.slots.set l.nextSlot (.opened l.nextGroup)
  nextGroup := l.nextGroup + 1
  nextSlot := (l.nextSlot + 1) % l.slots.length
  openedAt := some time
  packing := some { k with starting := false }
  position := some {
    slot := l.nextSlot, firstSegment := if k.starting then some 0 else none, starts := if k.starting then 1 else 0 } }

/-- The packer that waits for a slot opens the next one. -/
theorem resumePacker_opens {k : Packing} (hw : s.waiting (.laneUnit n) = false) (hk : s.lanes[n].packing = some k)
    (hrest : k.starting = true ∨ k.rest ≠ []) (hp : s.lanes[n].position = none)
    (hf : s.lanes[n].slots[s.lanes[n].nextSlot]? = some .free) :
    resumePacker n s = { s with lanes := s.lanes.set n (resumedLane s.timebase k s.lanes[n]) } := by
  have hlane {y : Lane} (h : y = resumedLane s.timebase k s.lanes[n]) : ({ s with lanes := s.lanes.set n y } : State) =
      { s with lanes := s.lanes.set n (resumedLane s.timebase k s.lanes[n]) } := by rw [h]
  unfold resumePacker
  rw [hk]
  dsimp only
  cases hst : k.starting with
  | true =>
    refine (if_pos rfl).trans ((startCopying_new hp).trans (hlane ?_))
    unfold startedLane openedLane resumedLane
    dsimp only
    rw [hk, hst]
    rfl
  | false =>
    have hne : k.rest ≠ [] := hrest.resolve_left (by rw [hst]; exact Bool.false_ne_true)
    have hcopy : s.copying n = some k := by
      unfold State.copying
      rw [hk]
      dsimp only
      rw [hst, hw]
      rfl
    refine (if_neg Bool.false_ne_true).trans ((continueSegment_goesOn hcopy hne hp hf).trans (hlane ?_))
    have hk' : s.lanes[n].packing = some { k with starting := false } := by
      rw [hk, ← hst]
    unfold openedLane resumedLane
    rw [hst, ← hk']
    rfl

end Lane

end Sys2Proof.Proofs.Backlog
end

section
/-! PROOFS. The backlog (R22): the Job Table's JOB_DONE (R46). -/
namespace Sys2Proof.Proofs.Backlog
open Sys2Proof Sys2Proof.Machine Sys2Proof.Safety Sys2Proof.Laws
open Sys2Proof.Proofs.JobEnds Sys2Proof.Proofs.WriteEnds Sys2Proof.Proofs.Framers

section Ends
variable {s : State} {k j m : SlotId} {n : LaneId}

/-- The state once the slot of a WRITE job whose JOB_DONE has joined is free. -/
def slotFreed (s : State) (k : SlotId) : State := streamFreed s { s with jt := { s.jt with
  jobs := s.jt.jobs.set k { live := false, record := { s.jt.jobs[k].record with state := .free } }, ending := none } }
  s.jt.jobs[k].record.stream

theorem slotFreed_other (h : j ≠ k) : (slotFreed s k).jt.jobs[j] = s.jt.jobs[j] :=
  Vector.getElem_set_ne k.isLt j.isLt fun e => h (Fin.ext e.symm)

/-- A WRITE job's slot is freed beside another WRITE job of its lane, which stays WRITE. -/
theorem freeSlot_beside (hk : s.jt.jobs[k].record.kind = .write) (hne : j ≠ k) (hj : writeJob s s.jt.jobs[k].record.lane j)
    (hw : s.waiting (.laneUnit s.jt.jobs[k].record.lane) = false) :
    freeSlot k { s with jt := { s.jt with ending := none } } = slotFreed s k := by
  rw [freeSlot_write (s := { s with jt := { s.jt with ending := none } }) hk, freeStream_eq]
  have hsignal : laneSignal s.jt.jobs[k].record.lane .idleTest (slotFreed s k) =
      idleTest s.jt.jobs[k].record.lane (slotFreed s k) := if_neg (Bool.not_eq_true _ ▸ hw)
  refine hsignal.trans (idleTest_busy ⟨j, ?_⟩)
  unfold writeJob
  rw [slotFreed_other hne]
  exact hj

theorem jobDoneJoined_frees (he : s.jt.ending = some k) (hk : s.jt.jobs[k].record.kind = .write) (hne : j ≠ k)
    (hj : writeJob s s.jt.jobs[k].record.lane j) (hw : s.waiting (.laneUnit s.jt.jobs[k].record.lane) = false) :
    jobDoneJoined s = takeJobSignals (20 * s.jt.held.length) (slotFreed s k) := by
  unfold jobDoneJoined
  rw [he]
  dsimp only
  rw [freeSlot_beside hk hne hj hw]
  rfl

/-- The state once the active job of a live slot is in ENDING and its end evaluation due. -/
def endEntered (s : State) (m : SlotId) : State := { s with
  jt := { s.jt with
    jobs := s.jt.jobs.set m { live := true, record := { s.jt.jobs[m].record with state := .ending } }, held := [] }
  de := { s.de with due := s.de.due ++ [m] } }

/-- A held signal of an end condition puts its job in ENDING and makes its evaluation due. -/
theorem takeJobSignals_ends (hw : s.waiting .jobTable = false) (hh : s.jt.held = [.endCondition m]) (hl : s.jt.jobs[m].live = true)
    (ha : s.jt.jobs[m].record.state = .active) (hop : s.de.operation = none) (hq : ∀ e ∈ s.de.queue, e.slot ≠ m)
    (hd : m ∉ s.de.due) : takeJobSignals 20 s = { s with
      jt := { s.jt with
        jobs := s.jt.jobs.set m { s.jt.jobs[m] with record := { s.jt.jobs[m].record with state := .ending } }, held := [] }
      de := { s.de with due := s.de.due ++ [m] } } := by
  have hself : withHeld [.endCondition m] s = s := by
    unfold withHeld
    rw [← hh]
  have hdue : evaluationDue s.de m = s.de.due ++ [m] := by
    unfold evaluationDue
    rw [hop]
    exact if_pos ⟨hq, rfl, hd⟩
  have htake := takeEndCondition (s := withHeld [] s) hl ha
  rw [show (withHeld [] s).de = s.de from rfl, hdue] at htake
  have hstep := takeJobSignals_cons (s := s) (rest := []) (ys := []) (zs := [])
    (u := endEntered s m) 19 hw htake
  rw [hself] at hstep
  refine hstep.trans ((takeJobSignals_none _ _ rfl).trans ?_)
  unfold endEntered
  rw [← hl]
  rfl

end Ends

end Sys2Proof.Proofs.Backlog
end

section
/-! PROOFS. The backlog (R22): a Framer's reports (R103). -/
namespace Sys2Proof.Proofs.Backlog
open Sys2Proof Sys2Proof.Machine Sys2Proof.Safety Sys2Proof.Laws
open Sys2Proof.Proofs.Framers

section Framer
variable {u : State} {n : LaneId} {f : Framer}

/-- A Framer without held signals goes on with its frame, and its event ends. -/
theorem framerJoined_continues (hw : u.waiting (.framer n) = false) (hp : u.framers[n].pendingOverrun = none)
    (hrun : runFrame n frameFuel u = { u with framers := u.framers.set n f }) (ht : f.phase = .taking) (hl : f.pastLast = false)
    (hh : f.held = []) : framerJoined n u = framerSettle n { u with framers := u.framers.set n f } := by
  have hself : ({ u with framers := u.framers.set n f } : State).framers[n] = f := Vector.getElem_set_self n.isLt
  have hsettle := framerSettle_taking (u := { u with framers := u.framers.set n f }) (n := n) hw (by rw [hself]; exact ht)
    (by rw [hself]; exact hl)
  have hheld : (framerSettle n { u with framers := u.framers.set n f }).framers[n].held = [] := by
    obtain ⟨c, hc⟩ := recomputeConsumed_framer (s := { u with framers := u.framers.set n f }) (n := n)
    rw [hsettle, hc, hself]
    exact hh
  have hn : ¬ u.waiting (.framer n) = true := by rw [hw]; decide
  unfold framerJoined
  rw [hp]
  refine (if_neg hn).trans ?_
  unfold continueFrame
  rw [hrun]
  dsimp only
  rw [hheld]
  rfl

theorem setFramer_self (n : LaneId) (u : State) : { u with framers := u.framers.set n u.framers[n] } = u :=
  congrArg (fun v => ({ u with framers := v } : State)) (Vector.set_getElem_self n.isLt)

/-- A Framer with no frame unfinished only ends its event. -/
theorem framerJoined_rests (hw : u.waiting (.framer n) = false) (hp : u.framers[n].pendingOverrun = none)
    (hf : u.framers[n].frame = none) (ht : u.framers[n].phase = .taking) (hl : u.framers[n].pastLast = false)
    (hh : u.framers[n].held = []) : framerJoined n u = framerSettle n { u with framers := u.framers.set n u.framers[n] } := by
  refine framerJoined_continues hw hp ?_ ht hl hh
  rw [setFramer_self]
  exact runFrame_none _ hf

/-- A Framer at the end of its frame finishes it. -/
theorem framerJoined_finishes {w : FrameWork} (hw : u.waiting (.framer n) = false) (hp : u.framers[n].pendingOverrun = none)
    (hf : u.framers[n].frame = some w) (hst : w.stage = .finish false) (hn : ∀ a, u.framers[n].assembler ≠ .hold a)
    (ht : u.framers[n].phase = .taking) (hl : u.framers[n].pastLast = false) (hh : u.framers[n].held = []) :
    framerJoined n u = framerSettle n { u with framers := u.framers.set n { u.framers[n] with
      frame := none, scan := w.position + 4096 } } := by
  refine framerJoined_continues hw hp ?_ ht hl hh
  exact (runFrame_finish ⟨hf, hw, hn, hl⟩ hst 599).trans (if_neg Bool.false_ne_true)

/-- A pending OVERRUN is posted, and the Framer has none. -/
theorem framerJoined_overrun {r : Report} (hp : u.framers[n].pendingOverrun = some r) (hr : u.re.hasRoom = true) :
    framerJoined n u = framerJoined n { u with
      re := { u.re with backlog := u.re.backlog ++ [r] }
      framers := u.framers.set n { u.framers[n] with pendingOverrun := none } } := by
  have hpost : post (.framer n) r (u.modFramer n fun f => { f with pendingOverrun := none }) = { u with
      re := { u.re with backlog := u.re.backlog ++ [r] }
      framers := u.framers.set n { u.framers[n] with pendingOverrun := none } } := Requests.post_room hr
  have hnone : ({ u with
      re := { u.re with backlog := u.re.backlog ++ [r] }
      framers := u.framers.set n { u.framers[n] with pendingOverrun := none } } : State).framers[n].pendingOverrun = none :=
    congrArg Framer.pendingOverrun (Vector.getElem_set_self n.isLt)
  conv_lhs => unfold framerJoined
  conv_rhs => unfold framerJoined
  rw [hp, hnone]
  dsimp only
  rw [hpost]

end Framer

section Moves
variable {s v : State} {x : Sample} {report : Report} {rest : List Waiter} {n : LaneId} {f : Framer} {l : Layout}

/-- The step in which a Framer's report joins: its Framer as given, with its marks recomputed. -/
theorem framer_joins (hs : running s) (hw : s.re.waiters = { unit := .framer n, item := .post report } :: rest) (hu : s.re.used < 64)
    (he : framerJoined n (joined s x rest [report]) = framerSettle n { v with framers := v.framers.set n f })
    (hv : v.re.waiters = rest) (hrest : ∀ w ∈ rest, w.unit ≠ .framer n)
    (hh : v.re.inHand = none) (hp : v.re.pendingRingFault = none) (hl : v.wd.layout = some l)
    (ht : f.phase = .taking) (hpast : f.pastLast = false) (hc : f.consumed = s.framers[n].consumed) :
    ∃ t, exec (.backlogAdmit x) s = .next t ∧ framerMoves s v t l n f := by
  have hself : ({ v with framers := v.framers.set n f } : State).framers[n] = f := Vector.getElem_set_self n.isLt
  have hwait : v.waiting (.framer n) = false := waiting_rest hv hrest
  have hre : (framerSettle n { v with framers := v.framers.set n f }).re = v.re := by
    rw [framerSettle_taking (u := { v with framers := v.framers.set n f }) hwait (by rw [hself]; exact ht)
      (by rw [hself]; exact hpast)]
    exact recomputeConsumed_re
  exact next_settles (next_joins hs hw hu he (by rw [hre]; exact hh) (by rw [hre]; exact hp)) hl hwait ht hpast hc

end Moves

end Sys2Proof.Proofs.Backlog
end

section
/-! PROOFS. The backlog (R22): the reports of the directory and of the loader (R144, R145, R153, R163). -/
namespace Sys2Proof.Proofs.Backlog
open Sys2Proof Sys2Proof.Machine Sys2Proof.Safety Sys2Proof.Laws
open Sys2Proof.Proofs.Requests Sys2Proof.Proofs.Orders

/-! ## The directory's LABEL_CHANGED -/

section Directory
variable {s : State} {o : Order} {more : List Order} {p : PlaceId} {i : Int} {d : Door}

/-- A GET that waited for its label goes on to its target. -/
theorem directoryJoined_travels (hh : s.cd.held = []) (hq : s.lc.queue = o :: more) (ha : o.active = true) (ht : o.target = some p)
    (hs : s.lc.step = some { kind := .labelRead, station := i, part := .labelHanded }) (hst : s.lc.station = some i)
    (hne : i ≠ p.val) : directoryJoined s = { s with lc := travelBegun s i p } := by
  have hbind : s.activeOrder.bind (fun o => o.target) = some p := by
    rw [activeOrder_eq hq ha]
    exact ht
  have hdone := (labelDone_eq hs rfl).1 p rfl hbind
  unfold directoryJoined State.labelHeld
  rw [hh]
  exact hdone.trans (startTravel_eq hst hne)

/-- The directory with the latch of a door set. -/
def latchSetOf (d : Door) (cd : Directory) : Directory := { cd with
  doorA := if d = .a then { cd.doorA with latch := true } else cd.doorA
  doorB := if d = .b then { cd.doorB with latch := true } else cd.doorB
  doorMail := if d = .mail then { cd.doorMail with latch := true } else cd.doorMail }

/-- The state once the directory has taken an edge that it held. -/
def heldEdgeTaken (d : Door) (s : State) : State := { s with
  cd := withoutPlaces (placesBehind d) (latchSetOf d { s.cd with held := [] }) }

theorem openDoor_held (d : Door) (s : State) : openDoor d { s with cd := { s.cd with held := [] } } = heldEdgeTaken d s := by
  unfold openDoor heldEdgeTaken
  rw [vacate_fold]
  cases d <;> rfl

/-- An edge that the directory held is taken, with no step under way and no order active. -/
theorem directoryJoined_edge (hw : s.waiting .directory = false) (hh : s.cd.held = [.edge d]) (hs : s.lc.step = none)
    (hf : loaderFree s) (hq : ∀ o more, s.lc.queue = o :: more → o.active = false) (hroom : s.re.hasRoom = true) :
    directoryJoined s = { heldEdgeTaken d s with
      re := { s.re with backlog := s.re.backlog ++ [.doorOpened d (s.occupiedCount (placesBehind d))] } } := by
  have hdone : labelDone s = s := by
    unfold labelDone
    rw [hs]
  have hsignal : signalDoor d (heldEdgeTaken d s) = heldEdgeTaken d s :=
    signalDoor_ignored (s := heldEdgeTaken d s) hf fun o more h ha => by rw [hq o more h] at ha; cases ha
  have hedge : takeEdge d { s with cd := { s.cd with held := [] } } = { heldEdgeTaken d s with
      re := { s.re with backlog := s.re.backlog ++ [.doorOpened d (s.occupiedCount (placesBehind d))] } } := by
    unfold takeEdge
    rw [openDoor_held, hsignal]
    exact post_room hroom
  unfold directoryJoined State.labelHeld
  rw [hh]
  have htake : takeDirectoryHeld 1 s = takeEdge d { s with cd := { s.cd with held := [] } } := by
    conv_lhs => unfold takeDirectoryHeld
    rw [hw, hh]
    rfl
  refine Eq.trans ?_ (htake.trans hedge)
  rw [hdone]
  rfl

end Directory

/-! ## The loader's ORDER_DONE -/

section Loader
variable {s : State}

theorem loaderDoor_inactive (h : ∀ o more, s.lc.queue = o :: more → o.active = false) (d : Door) : loaderDoor d s = s := by
  unfold loaderDoor State.activeOrder
  cases hq : s.lc.queue with
  | nil => rfl
  | cons o more =>
    dsimp only
    rw [h o more hq]
    rfl

/-- Held door signals concern no order while none is active. -/
theorem takeHeldDoors_inactive (h : ∀ o more, s.lc.queue = o :: more → o.active = false) (hw : s.loaderWaits = false)
    (ds : List Door) : takeHeldDoors ds.length { s with lc := { s.lc with heldDoors := ds } } =
      { s with lc := { s.lc with heldDoors := [] } } := by
  induction ds with
  | nil => rfl
  | cons d ds ih =>
    have hstep : takeHeldDoors (d :: ds).length { s with lc := { s.lc with heldDoors := d :: ds } } =
        takeHeldDoors ds.length (loaderDoor d { s with lc := { s.lc with heldDoors := ds } }) := by
      conv_lhs => unfold takeHeldDoors
      exact if_neg (Bool.not_eq_true _ ▸ hw)
    rw [hstep, loaderDoor_inactive (s := { s with lc := { s.lc with heldDoors := ds } }) h]
    exact ih

/-- The state once the loader's reports have joined. -/
def postsJoined (s : State) : State := { s with
  lc := { s.lc with posts := [] }, re := { s.re with backlog := s.re.backlog ++ s.lc.posts } }

/-- The reports still to be posted follow, and the held door signals are taken. -/
theorem loaderJoined_posts (h : ∀ o more, s.lc.queue = o :: more → o.active = false) (hw : s.re.waiters = [])
    (hroom : s.re.used + s.lc.posts.length ≤ 64) : loaderJoined s = { s with
      re := { s.re with backlog := s.re.backlog ++ s.lc.posts }, lc := { s.lc with posts := [], heldDoors := [] } } := by
  have hwait : s.waiting .loader = false :=
    waiting_rest (rest := []) hw fun _ hm => absurd hm List.not_mem_nil
  have hlen : s.re.waiters.length = 0 := congrArg List.length hw
  have hposts := drainPosts_joins s.lc.posts (s := s) rfl hwait (by omega)
  have hwaits : (postsJoined s).loaderWaits = false := Requests.ownerReady_loader ⟨hwait, rfl⟩
  have hdoors := takeHeldDoors_inactive (s := postsJoined s) h hwaits s.lc.heldDoors
  refine Eq.trans ?_ hdoors
  unfold loaderJoined
  dsimp only
  rw [hposts]
  rfl

end Loader

end Sys2Proof.Proofs.Backlog
end

section
/-! PROOFS. Settling what a freed backlog entry sets going (R19, R22, R44, R46, R82, R103, R144, R145, R153, R163). -/
namespace Sys2Proof.Proofs.Backlog
open Sys2Proof Sys2Proof.Machine Sys2Proof.Safety Sys2Proof.Laws
open Sys2Proof.Proofs.Requests Sys2Proof.Proofs.Orders

theorem used_le (re : RequestEngine) : re.used ≤ re.backlog.length + 1 := by
  unfold RequestEngine.used
  split <;> omega

theorem joined_hasRoom {s : State} {x : Sample} {report : Report} {rest : List Waiter} (hnil : rest = [])
    (hback : s.re.backlog.length < 62) : (joined s x rest [report]).re.hasRoom = true := by
  simp only [RequestEngine.hasRoom, RequestEngine.used, joined, hnil, List.length_append, List.length_singleton, List.length_nil,
    decide_eq_true_iff]
  split <;> omega

section Units
variable {s : State} {x : Sample} {unit : Poster} {report : Report} {rest : List Waiter} (hs : running s)
  (hw : s.re.waiters = { unit := unit, item := .post report } :: rest) (hu : s.re.used < 64)
  (hrest : ∀ w ∈ rest, w.unit ≠ .requestEngine ∧ w.unit ≠ unit) (hh : s.re.inHand = none) (hp : s.re.pendingRingFault = none)
include hs hw hu hrest hh hp

/-- The Job Table's JOB_DONE joins. -/
theorem jobTable_joins {k j : SlotId} (hunit : unit = .jobTable) (he : s.jt.ending = some k)
    (hk : s.jt.jobs[k].record.kind = .write) (hne : j ≠ k) (hj : writeJob s s.jt.jobs[k].record.lane j)
    (hlane : s.waiting (.laneUnit s.jt.jobs[k].record.lane) = false) :
    (s.jt.held = [] → ∃ b, exec (.backlogAdmit x) s = .next (withStale b { slotFreed (joined s x rest [report]) k with
      jt := { jobs := (slotFreed (joined s x rest [report]) k).jt.jobs, ending := none, held := [] } }))
    ∧ ∀ m : SlotId, s.jt.held = [.endCondition m] → m ≠ k → s.jt.jobs[m].live = true →
      s.jt.jobs[m].record.state = .active → s.de.operation = none → (∀ e ∈ s.de.queue, e.slot ≠ m) → m ∉ s.de.due →
      ∃ b, exec (.backlogAdmit x) s = .next (withStale b { slotFreed (joined s x rest [report]) k with
        jt := { (slotFreed (joined s x rest [report]) k).jt with
          jobs := (slotFreed (joined s x rest [report]) k).jt.jobs.set m { s.jt.jobs[m] with
            record := { s.jt.jobs[m].record with state := .ending } }
          held := [] }
        de := { s.de with due := s.de.due ++ [m] } }) := by
  have hfree : (joined s x rest [report]).waiting (.laneUnit s.jt.jobs[k].record.lane) = false := by
    refine waiting_rest (rest := rest) rfl fun w hm => ?_
    have hall := List.any_eq_false.mp hlane w (by rw [hw]; exact List.mem_cons_of_mem _ hm)
    simpa using hall
  have hjoined := jobDoneJoined_frees (s := joined s x rest [report]) he hk hne hj hfree
  refine ⟨fun hheld => ?_, fun m hheld hm hl ha hop hq hd => ?_⟩
  · refine next_joins hs hw hu ?_ hh hp
    rw [hunit]
    refine (hjoined.trans (takeJobSignals_none _ _ hheld)).trans ?_
    exact congrArg (fun xs => ({ slotFreed (joined s x rest [report]) k with
      jt := { jobs := (slotFreed (joined s x rest [report]) k).jt.jobs, ending := none, held := xs } } : State)) hheld
  · refine next_joins hs hw hu ?_ hh hp
    have hslot := slotFreed_other (s := joined s x rest [report]) hm
    have htable : (slotFreed (joined s x rest [report]) k).waiting .jobTable = false :=
      waiting_rest (rest := rest) rfl fun w h => hunit ▸ (hrest w h).2
    have htake := takeJobSignals_ends (s := slotFreed (joined s x rest [report]) k) (m := m) htable hheld
      (by rw [hslot]; exact hl) (by rw [hslot]; exact ha) hop hq hd
    rw [hslot] at htake
    rw [hunit]
    refine (hjoined.trans ?_).trans htake
    rw [show (joined s x rest [report]).jt.held = [.endCondition m] from hheld]
    rfl

/-- A Lane Unit's GROUP_READY joins. -/
theorem lane_joins {n : LaneId} (hunit : unit = .laneUnit n) (hsig : s.lanes[n].heldSignals = []) :
    (∀ q : Nat, s.lanes[n].packing = none → s.lanes[n].heldReads = [q] → (∃ g, s.lanes[n].slots[q]? = some (.opened g)) →
      ∃ b, exec (.backlogAdmit x) s = .next (withStale b { joined s x rest [report] with
        lanes := s.lanes.set n { s.lanes[n] with
          heldReads := []
          counters := { s.lanes[n].counters with misordered := satInc s.lanes[n].counters.misordered } } }))
    ∧ ∀ k : Packing, s.lanes[n].packing = some k → k.starting = true ∨ k.rest ≠ [] → s.lanes[n].heldReads = [] →
      s.lanes[n].position = none → s.lanes[n].slots[s.lanes[n].nextSlot]? = some .free →
      ∃ b, exec (.backlogAdmit x) s = .next (withStale b { joined s x rest [report] with
        lanes := s.lanes.set n (resumedLane (s.observe x).timebase k s.lanes[n]) }) := by
  have hfree : (joined s x rest [report]).waiting (.laneUnit n) = false :=
    waiting_rest (rest := rest) rfl fun w hm => hunit ▸ (hrest w hm).2
  refine ⟨fun q hpack hreads hq => ?_, fun k hpack hk hreads hpos hslot => ?_⟩
  · obtain ⟨g, hq⟩ := hq
    refine next_joins hs hw hu ?_ hh hp
    rw [hunit]
    exact laneJoined_misordered (s := joined s x rest [report]) hfree hpack hreads hq hsig
  · refine next_joins hs hw hu ?_ hh hp
    rw [hunit]
    have hself : ({ joined s x rest [report] with lanes := s.lanes.set n (resumedLane (s.observe x).timebase k s.lanes[n]) } :
        State).lanes[n] = resumedLane (s.observe x).timebase k s.lanes[n] := Vector.getElem_set_self n.isLt
    exact laneJoined_of (ks := []) (resumePacker_opens (s := joined s x rest [report]) hfree hpack hk hpos hslot)
      ((congrArg Lane.heldReads hself).trans hreads) rfl ((congrArg Lane.heldSignals hself).trans hsig)

/-- A Framer's post joins. -/
theorem framer_posts {n : LaneId} {l : Layout} (hunit : unit = .framer n) (hl : s.wd.layout = some l)
    (ht : s.framers[n].phase = .taking) (hpast : s.framers[n].pastLast = false) (hheld : s.framers[n].held = []) :
    (s.framers[n].pendingOverrun = none → s.framers[n].frame = none →
      ∃ t, exec (.backlogAdmit x) s = .next t ∧ framerMoves s (joined s x rest [report]) t l n s.framers[n])
    ∧ (∀ w : FrameWork, s.framers[n].pendingOverrun = none → s.framers[n].frame = some w → w.stage = .finish false →
      (∀ a, s.framers[n].assembler ≠ .hold a) →
      ∃ t, exec (.backlogAdmit x) s = .next t
        ∧ framerMoves s (joined s x rest [report]) t l n { s.framers[n] with frame := none, scan := w.position + 4096 })
    ∧ ∀ r : Report, s.framers[n].pendingOverrun = some r → s.framers[n].frame = none → rest = [] → s.re.backlog.length < 62 →
      ∃ t, exec (.backlogAdmit x) s = .next t
        ∧ framerMoves s (joined s x rest [report, r]) t l n { s.framers[n] with pendingOverrun := none } := by
  subst hunit
  have hothers : ∀ w ∈ rest, w.unit ≠ .framer n := fun w hm => (hrest w hm).2
  have hfree : (joined s x rest [report]).waiting (.framer n) = false := waiting_rest (rest := rest) rfl hothers
  refine ⟨fun hover hf => ?_, fun w hover hf hst hn => ?_, fun r hover hf hnil hback => ?_⟩
  · exact framer_joins (v := joined s x rest [report]) hs hw hu
      (framerJoined_rests (u := joined s x rest [report]) hfree hover hf ht hpast hheld) rfl hothers hh hp hl ht hpast rfl
  · exact framer_joins (v := joined s x rest [report]) hs hw hu
      (framerJoined_finishes (u := joined s x rest [report]) hfree hover hf hst hn ht hpast hheld) rfl hothers hh hp hl ht hpast rfl
  · have hroom : (joined s x rest [report]).re.hasRoom = true := joined_hasRoom hnil hback
    let u : State := { joined s x rest [report, r] with
      framers := s.framers.set n { s.framers[n] with pendingOverrun := none } }
    have hself : u.framers[n] = { s.framers[n] with pendingOverrun := none } := Vector.getElem_set_self n.isLt
    have hposted : framerJoined n (joined s x rest [report]) = framerJoined n u := by
      rw [framerJoined_overrun (u := joined s x rest [report]) hover hroom]
      unfold joined
      dsimp only
      rw [List.append_assoc]
      rfl
    have hrests : framerJoined n u = framerSettle n u := by
      rw [framerJoined_rests (u := u) (waiting_rest (rest := rest) rfl hothers) (by rw [hself]) (by rw [hself]; exact hf)
        (by rw [hself]; exact ht) (by rw [hself]; exact hpast) (by rw [hself]; exact hheld), setFramer_self]
    exact framer_joins (v := joined s x rest [report, r]) hs hw hu (hposted.trans hrests) rfl hothers hh hp hl ht hpast rfl

omit hrest in
/-- The directory's LABEL_CHANGED joins, and a GET travels on. -/
theorem directory_travels {o : Order} {more : List Order} {p : PlaceId} {i : Int} (hunit : unit = .directory)
    (hheld : s.cd.held = []) (hq : s.lc.queue = o :: more) (ha : o.active = true) (ht : o.target = some p)
    (hstep : s.lc.step = some { kind := .labelRead, station := i, part := .labelHanded }) (hst : s.lc.station = some i)
    (hne : i ≠ p.val) : ∃ b, exec (.backlogAdmit x) s = .next (withStale b { joined s x rest [report] with
      lc := travelBegun (joined s x rest [report]) i p }) := by
  refine next_joins hs hw hu ?_ hh hp
  rw [hunit]
  exact directoryJoined_travels (s := joined s x rest [report]) hheld hq ha ht hstep hst hne

omit hrest in
/-- The directory's LABEL_CHANGED joins, and an edge that it held is taken. -/
theorem directory_edge {d : Door} (hunit : unit = .directory) (hheld : s.cd.held = [.edge d]) (hstep : s.lc.step = none)
    (hf : loaderFree s) (hq : ∀ o more, s.lc.queue = o :: more → o.active = false) (hnil : rest = [])
    (hback : s.re.backlog.length < 62) : ∃ b, exec (.backlogAdmit x) s = .next (withStale b {
      joined s x rest [report, .doorOpened d (s.occupiedCount (placesBehind d))] with
      cd := withoutPlaces (placesBehind d) (latchSetOf d { s.cd with held := [] }) }) := by
  refine next_joins hs hw hu ?_ hh hp
  have hwait (p : Poster) : (joined s x rest [report]).waiting p = false :=
    waiting_rest (rest := []) hnil fun _ hm => absurd hm List.not_mem_nil
  rw [hunit]
  refine (directoryJoined_edge (s := joined s x rest [report]) (hwait _) hheld hstep ⟨hwait _, hf.2⟩ hq
    (joined_hasRoom hnil hback)).trans ?_
  unfold heldEdgeTaken joined
  dsimp only
  rw [List.append_assoc]
  rfl

omit hrest in
/-- The loader's ORDER_DONE joins. -/
theorem loader_joins (hunit : unit = .loader) (hq : ∀ o more, s.lc.queue = o :: more → o.active = false) (hnil : rest = [])
    (hback : s.re.backlog.length + s.lc.posts.length < 63) : ∃ b, exec (.backlogAdmit x) s = .next (withStale b {
      joined s x rest (report :: s.lc.posts) with lc := { (s.observe x).lc with posts := [], heldDoors := [] } }) := by
  refine next_joins hs hw hu ?_ hh hp
  have hroom : (joined s x rest [report]).re.used + (joined s x rest [report]).lc.posts.length ≤ 64 := by
    have hused : (joined s x rest [report]).re.used ≤ s.re.backlog.length + 2 := by
      have hle := used_le (joined s x rest [report]).re
      have hlen : (joined s x rest [report]).re.backlog.length = s.re.backlog.length + 1 := List.length_append
      omega
    have hposts : (joined s x rest [report]).lc.posts.length = s.lc.posts.length := rfl
    omega
  rw [hunit]
  refine (loaderJoined_posts (s := joined s x rest [report]) hq hnil hroom).trans ?_
  unfold joined
  dsimp only
  rw [List.append_assoc]
  rfl

end Units

/-- Settles O20: the report joins, and what its unit makes of it is that unit's lemma above. -/
theorem backlogAdmitted : Obligations.BacklogAdmitted := by
  refine ⟨fun s x hs h => runStep_next s _ (backlogAdmit x) hs (backlogAdmit_still h), ?_, ?_⟩
  · intro s x r rest hs hw hrest hb hres hh hp hk
    exact runStep_next s _ (backlogAdmit x) hs (backlogAdmit_badKind hw hrest hb hres hh hp hk)
  · intro s x unit report rest hs hw hrest hu hh hp joined time
    refine ⟨fun i hunit => ?_, fun k j hunit he hk hne hj hlane => ?_, fun n hunit hsig => ?_, fun n l hunit hl ht hpast hheld => ?_,
      fun hunit => ⟨fun o more p i hheld hq ha ht hstep hst hne hr => ?_, fun d hheld hstep hf hq hnil hback => ?_⟩,
      fun hunit hq hnil hback => ?_⟩
    · refine next_joins hs hw hu ?_ hh hp
      rw [hunit]
      exact streamJoins fun w hm => hunit ▸ (hrest w hm).2
    · exact jobTable_joins hs hw hu hrest hh hp hunit he hk hne hj hlane
    · have hlane := lane_joins (x := x) hs hw hu hrest hh hp hunit hsig
      simp only [satInc_eq] at hlane
      exact hlane
    · exact framer_posts hs hw hu hrest hh hp hunit hl ht hpast hheld
    · obtain ⟨b, hb⟩ := directory_travels (x := x) hs hw hu hh hp hunit hheld hq ha ht hstep hst hne
      refine ⟨b, hb.trans ?_⟩
      exact congrArg (fun y => Host.Outcome.next (withStale b { joined [] with lc := y })) (if_pos hr)
    · obtain ⟨b, hb⟩ := directory_edge (x := x) hs hw hu hh hp hunit hheld hstep hf hq hnil hback
      refine ⟨_, _, hb, ?_, ?_, occupiedCount_behind s d, fun p => withoutPlaces_pending _ _ p⟩
      · exact congrArg (fun cd => withStale b { joined [.doorOpened d (s.occupiedCount (placesBehind d))] with cd := cd })
          (withoutPlaces_rest (placesBehind d) (latchSetOf d { s.cd with held := [] }))
      · exact lost_congr (lost_withoutPlaces (placesBehind d) (after := latchSetOf d { s.cd with held := [] }) lost_nothing)
          fun p => by rw [false_or, mem_placesBehind]
    · exact loader_joins hs hw hu hh hp hunit hq hnil hback

end Sys2Proof.Proofs.Backlog
end
